-- ==== Sys2Proof/Word.lean ====
section
/-! DEFINITION. The word types of the module and their plainest arithmetic: a byte, a 32-bit register word, and counters
that wrap or that stop at all ones. -/

namespace Sys2Proof

/-- One byte. -/
abbrev Byte := BitVec 8

/-- One 32-bit control-space register (spec/00_scope.md, Registers). -/
abbrev Word := BitVec 32

/-- A counter of `w` bits raised by `n`, wrapping. -/
def wrapAdd (w n x : Nat) : Nat := (x + n) % 2 ^ w

/-- A counter of `w` bits raised by `n`, stopping at all ones. -/
def satAdd (w n x : Nat) : Nat := min (x + n) (2 ^ w - 1)

/-- Bit `i` of a natural number. -/
def natBit (x i : Nat) : Bool := x / 2 ^ i % 2 == 1

/-- Bits `lo + w - 1` to `lo` of a natural number. -/
def natBits (x lo w : Nat) : Nat := x / 2 ^ lo % 2 ^ w

/-- The bytes of a number, lowest first (R4: every multi-byte field is little-endian). -/
def leBytes : Nat → Nat → List Byte
  | 0, _ => []
  | n + 1, x => BitVec.ofNat 8 x :: leBytes n (x / 256)

/-- The number that bytes spell, lowest first (R4). -/
def leNat : List Byte → Nat
  | [] => 0
  | b :: bs => b.toNat + 256 * leNat bs

/-- `n` bytes of a list from offset `i`, absent bytes reading as zero. -/
def sliceBytes (l : List Byte) (i n : Nat) : List Byte :=
  let t := (l.drop i).take n
  t ++ List.replicate (n - t.length) 0#8

/-- The little-endian number in `n` bytes of a list from offset `i`. -/
def leAt (l : List Byte) (i n : Nat) : Nat := leNat (sliceBytes l i n)

/-- A truth value as a number. -/
def b2n (b : Bool) : Nat := if b then 1 else 0

end Sys2Proof
end

