-- ==== Sys2Proof/Machine/Table.lean ====
section
/-! DEFINITION. Sparse tables in one canonical form, and the shapes of a register field and of a dictionary entry. -/

namespace Sys2Proof.Machine

/-- A sparse table: pairs of key and value, keys rising, no value equal to the default of its key. -/
abbrev Tab (α : Type) := List (Nat × α)

/-- The value a table holds for a key; an absent key reads as its default. -/
def tget {α : Type} (d : Nat → α) : Tab α → Nat → α
  | [], k => d k
  | (n, v) :: t, k => if n = k then v else tget d t k

/-- A table without a key. -/
def tdel {α : Type} : Tab α → Nat → Tab α
  | [], _ => []
  | (n, v) :: t, k => if n = k then tdel t k else (n, v) :: tdel t k

/-- A pair put where its key belongs. -/
def tins {α : Type} (k : Nat) (v : α) : Tab α → Tab α
  | [] => [(k, v)]
  | (n, w) :: t => if k < n then (k, v) :: (n, w) :: t else (n, w) :: tins k v t

/-- The table with a key at a value; a key written to its default is taken out. -/
def tset {α : Type} [DecidableEq α] (d : Nat → α) (t : Tab α) (k : Nat) (v : α) : Tab α :=
  if v = d k then tdel t k else tins k v (tdel t k)

/-- The table with the value of one key changed. -/
def tmod {α : Type} [DecidableEq α] (d : Nat → α) (t : Tab α) (k : Nat) (f : α → α) : Tab α :=
  tset d t k (f (tget d t k))

/-- The canonical form: keys strictly rising from above `lo`, and no value equal to its default. -/
def twfFrom {α : Type} [DecidableEq α] (d : Nat → α) : Nat → Tab α → Bool
  | _, [] => true
  | lo, (n, v) :: t => decide (lo ≤ n) && decide (v ≠ d n) && twfFrom d (n + 1) t

/-- The canonical form of a table. -/
def twf {α : Type} [DecidableEq α] (d : Nat → α) (t : Tab α) : Bool := twfFrom d 0 t

/-- The control spaces: a core's window, a die's blocks, the hub's space (R5). -/
inductive Space where
  | core | die | hub
  deriving DecidableEq, Repr

/-- Register access codes of Table 0.3. -/
inductive RegAcc where
  | ro | rw | wo | w1c | rc
  deriving DecidableEq, Repr

/-- The source that may write a register: the die's housekeeping controller, the hub, or the hub and the host (R571). -/
inductive RegWriter where
  | housekeeping | hub | hubOrHost
  deriving DecidableEq, Repr

/-- One register field: space, offset of its first copy, copies and their stride, lowest bit, width, access code, reset
value, writer, and the reserved values (first and last of each run). -/
structure Fld where
  space  : Space
  off    : Nat
  copies : Nat
  stride : Nat
  lo     : Nat
  width  : Nat
  acc    : RegAcc
  rst    : Nat
  writer : RegWriter
  bad    : List (Nat × Nat)
  deriving DecidableEq, Repr

/-- Dictionary types of Table 0.4 (the module holds no I32 entry). -/
inductive OdTy where
  | u8 | u16 | u32 | u64 | f32 | bool | str | blob
  deriving DecidableEq, Repr

/-- Dictionary access of one role: none, read, read and write, write. -/
inductive OdAcc where
  | none | ro | rw | wo
  deriving DecidableEq, Repr

/-- What an entry holds: a value with a default; a value that is measured or computed (default column "—"); a counter
kept since manufacture (R557). -/
inductive OdKind where
  | plain | measured | mfg
  deriving DecidableEq, Repr

/-- One line of a dictionary table. -/
structure OdEnt where
  idx     : Nat
  run     : Nat
  sub     : Nat
  subs    : Nat
  ty      : OdTy
  oper    : OdAcc
  inst    : OdAcc
  maker   : OdAcc
  dflt    : Nat
  ranges  : List (Nat × Nat)
  blob    : Nat × Nat × Nat
  kind    : OdKind
  mailbox : Bool
  counter : Bool
  deriving DecidableEq, Repr

/-- A dictionary value: a number in the encoding of its type (an F32 by its bits), or bytes. -/
inductive OdVal where
  | num (n : Nat)
  | bytes (b : List Byte)
  deriving DecidableEq, Repr

end Sys2Proof.Machine
end

