-- ==== Sys2Proof/Syntax.lean ====
section
/-! DEFINITION. The commands that the module takes: one constructor per row of spec/opcode_table.json, with the operands that
the row's rule gives it, and the operand structures. -/

namespace Sys2Proof

open Sys2Proof.Machine (OdVal)

/-- Who writes a dictionary entry: role (1 operator, 2 installer, 3 maker), transport (1 CMP, 2 mailbox), credential entry
and session identifier (R458, R544). -/
structure Writer where
  role : Nat
  tr : Nat
  entry : Nat
  session : Nat
  deriving DecidableEq, Repr

/-- A row of a step table (Table 15.7, R375). Role 0 decode, 1 prefill, 2 prefill with first token, 3 verify. -/
structure Row where
  ctx : Nat
  tenant : Nat
  queue : Nat
  role : Nat
  drafts : Nat
  first : Nat
  count : Nat
  kvva : Nat
  inputs : List Nat
  seed : Nat
  temp : Nat
  topp : Nat
  topk : Nat
  adapt : List Nat
  reserved : Nat
  deriving DecidableEq, Repr

/-- What a step's draws gave one row: the tokens it commits, each with its TAIL bits, and how many of them are accepted drafts. -/
structure RowResult where
  toks : List (Nat × Nat)
  accepted : Nat
  deriving DecidableEq, Repr

/-- What a follower module delivers to the lead's gate (R381): its module index, whether one of its stitch checks failed, and of the
first that did the stitch; whether a tile was accepted as analogue, and degraded; the counts B and X of each layer (R147). -/
structure ModReport where
  module : Nat
  failed : Bool
  stitch : Nat
  analog : Bool
  deg : Bool
  ladder : List (Nat × Nat × Nat)
  deriving DecidableEq, Repr

/-- What the hub writes to a task slot before VALID (R253, R286, R423): tenant, task tag, translation context; task, pattern
and array windows; step-table VA and KV geometry; the binding and step that the task belongs to; its stream's length and counts
of gate and patch entries; the layer of each of its stitches; its data slots as base and length. -/
structure SlotCfg where
  tenant : Nat
  tag : Nat
  tctx : Nat
  tbase : Nat
  tlen : Nat
  pbase : Nat
  plen : Nat
  arrLo : Nat
  arrHi : Nat
  arrEn : Bool
  kvstab : Nat
  kvD : Nat
  kvA : Nat
  pstride : Nat
  binding : Nat
  step : Nat
  streamLen : Nat
  ngate : Nat
  npatch : Nat
  layers : List Nat
  dslots : List (Nat × Nat)
  deriving DecidableEq, Repr

/-- A packet: its header (Table 17.3), its data, and the virtual channel that its flits take (R426, R441). -/
structure Packet where
  ver : Nat
  typ : Nat
  ctl : Bool
  epoch : Nat
  esc : Bool
  poison : Bool
  hops : Nat
  dst : Nat
  src : Nat
  tenant : Nat
  tag : Nat
  len : Nat
  addr : Nat
  reqid : Nat
  data : List Byte
  vc : Nat
  deriving DecidableEq, Repr

/-- A link-state record (R439). -/
structure Lsa where
  die : Nat
  port : Nat
  cls : Nat
  x2 : Bool
  seq : Nat
  deriving DecidableEq, Repr

/-- An IDENT body (Table 17.7). -/
structure Ident where
  ver : Nat
  majors : Nat
  minors : Nat
  serial : List Byte
  die : Nat
  port : Nat
  internal : Bool
  planHash : List Byte
  planGen : Nat
  deriving DecidableEq, Repr

/-- A UDP datagram received: source address and port, hop limit, whether it has neither an extension header nor a fragment, whether its
checksum passes, destination port, message (R536). -/
structure Dgram where
  addr : Nat
  port : Nat
  hop : Nat
  plain : Bool
  sumOk : Bool
  dport : Nat
  bytes : List Byte
  deriving DecidableEq, Repr

/-- The commands: one constructor per row of spec/opcode_table.json. -/
inductive Instr where
  /-- MEN has held high for 1.0 ms and is recognised high; this is one condition of the start moment (R57). -/
  | menHighRecognised
  /-- MEN has held low for 1.0 ms; the rails turn off within 5 ms with no orderly stop, and uncommitted steps are lost (R57). -/
  | menLowRecognised
  /-- STOP_N is recognised asserted: no new step is formed, cores stop at their next stitch boundary and uncommitted steps are abandoned (R58). -/
  | stopNAsserted
  /-- A core has not reached its stitch boundary 150 µs after STOP_N, so it stops where it stands and is reset as a core (R58). -/
  | orderlyStopCoreTimeout (d c : Nat)
  /-- Every core has stopped and the links are quiesced, so the module enters Stopped with its rails on (R58). -/
  | stoppedEntry
  /-- STOP_N is released and the module returns to Service within 100 µs unless OD 0x2045 is true (R58). -/
  | stopNReleased
  /-- The source-side voltage has stayed below 580 V for 10 µs, so input loss is declared and the hold-up shut-down starts (R51). -/
  | inputLoss
  /-- A core has not reached its stitch boundary 11 µs after the declaration, so it stops where it stands and its engine queues are discarded (R52). -/
  | holdupCoreStopTimeout (d c : Nat)
  /-- The ledger tail, the audit tail and the power-off cause have been written to flash, so the rails begin to turn off (R52). -/
  | holdupFlashDone
  /-- The input has been above 960 V for 10 µs, so the input switch opens and the hold-up shut-down starts (R48). -/
  | inputOvervoltage
  /-- After an overvoltage trip, the source has stayed at or below 920 V for 100 ms, so the input switch closes through the pre-charge limiter (R54). -/
  | inputSwitchReclose
  /-- The input has been within 580–620 V for 1 ms, so an F0 notice is recorded and operation continues (R48). -/
  | inputLow (vin : Nat)
  /-- The input has been above 920 V for 1 ms, so an F0 notice is recorded and operation continues (R48). -/
  | inputHigh (vin : Nat)
  /-- The input has been at or above 600 V continuously for 100 ms, so start is permitted until the input falls below 580 V (R48). -/
  | startPermitted
  /-- The bulk voltage reaches max(input − 20 V, 400 V), so the pre-charge bypass closes and the bus converter may start (R49). -/
  | prechargeBypassClose
  /-- The bulk voltage falls below 400 V after the bypass has closed, so the pre-charge limiter re-arms (R49). -/
  | prechargeRearm
  /-- The bulk voltage reaches 450 V, so the standby domain with its MEN, STOP_N and output logic becomes powered (R55). -/
  | standbyDomainPowerUp
  /-- The bulk voltage falls below 450 V, so the standby domain is unpowered and FAULT_N is released (R54). -/
  | standbyDomainLoss
  /-- A secondary rail leaves its regulation window, so PG goes low within 10 µs and the rails turn off with LASTOFF 0x5 (R92). -/
  | secondaryRailFault
  /-- The standby-domain watchdog expires, so the rails turn off with LASTOFF 0x6 (R92). -/
  | standbyDomainWatchdog
  /-- PERST_N is asserted, which starts an endpoint reset and makes the mailbox unavailable (R86). -/
  | perstNAsserted
  /-- PERST_N is released, so PCIe link training starts and configuration requests are later answered (R585). -/
  | perstNReleased
  /-- A PCIe hot reset is received and starts an endpoint reset (R585). -/
  | pcieHotReset
  /-- A Function Level Reset is received and starts an endpoint reset (R585). -/
  | functionLevelReset
  /-- The function enters D3hot, which starts an endpoint reset; only configuration requests are then accepted (R585). -/
  | d3hotEntry
  /-- The function returns from D3hot to D0 and comes up as after an FLR (R585). -/
  | d0Return
  /-- After each 100 µs averaging window, the hub selects the PCIe reference clock or the oscillator in holdover (R65). -/
  | refclkMeasurement (ppm : Int)
  /-- The hub measures REF_CAL and sets REFCAL_OK when it lies within ±5 mV of the certified value (R67). -/
  | refCalMeasurement (volts : Nat)
  /-- CBLPRS_N of an external link reads low, so the port starts training (R44). -/
  | cableInserted (d p : Nat)
  /-- CBLPRS_N of a link reads high, so the link is reported as having no cable and is not trained (R44). -/
  | cableRemoved (d p : Nat)
  /-- All start conditions hold for the first time, so start-up begins at t0 with phase 0x01 (R71). -/
  | startMoment
  /-- All secondary rails are in their windows, so PG goes high and phase 0x02 begins (R72). -/
  | railsInWindow
  /-- The boot ROM finishes checking an image slot, accepts it or tries the other slot, and sets SLOT and SLOTFALLBACK (R74). -/
  | bootImageVerify (slot : Nat)
  /-- The hub firmware has brought up the dictionary, mailbox and CMP and read its configuration, which ends phase 0x03 (R72). -/
  | hubFirmwareStarted
  /-- A die's housekeeping firmware is loaded and its PLLs lock, and the controller chooses the enabled-core set (R76). -/
  | dieRelease (d : Nat)
  /-- LPDDR5X training of a stack ends, either passing or failing after 3 attempts (R72). -/
  | memoryTrainingDone (d stack : Nat) (pass : Bool)
  /-- A core's logic self-test in phase 0x06 ends; a failing core is fenced and replaced by a spare (R76). -/
  | coreSelfTestDone (d c : Nat) (pass : Bool)
  /-- An ADC calibration ends; a failing ADC is retired and replaced by a spare, or its lane is fenced (R222). -/
  | adcSelfCalibrationDone (d c lane adc : Nat) (offset gain : Int) (dnl inl : Nat)
  /-- Both controllers of a die have written every folio with check bits, so its cores are released (R77). -/
  | memoryFillDone (d : Nat)
  /-- The die reference check ends; a failure is an F1 and the die's traces then run untraced (R219). -/
  | referenceCheckDone (d : Nat) (uv : Int)
  /-- A lane's five-point probe-DAC trace ends, setting KP and ZP or fencing the lane (R220). -/
  | probeDacTraceDone (d c lane ratio : Nat) (charges : List Int)
  /-- An array's column table is built, drift entries are staged, and failing outputs are marked for remap (R225). -/
  | columnTableDone (d c a : Nat) (codes : List (Int × Int × Int))
  /-- Phase 0x07 ends, so the module enters Service, or Stopped when STOP_N or OD 0x2045 requires it (R80). -/
  | moduleAssayDone
  /-- Start-up has not reached phase 0x08 within 120 s of t0, so an F3 is raised (R83). -/
  | startupWatchdogExpiry
  /-- A write of 0xA5C3 to OD 0x2040 does an orderly stop, writes the tails, resets the hub and dies and resumes start-up at phase 0x02 (R86). -/
  | moduleResetRequest (w : Writer) (v : OdVal)
  /-- A write of 0xA5C3 to OD 0x3010 + n starts a die reset with the rails on (R87). -/
  | dieResetRequest (w : Writer) (n : Nat) (v : OdVal)
  /-- The die reset's relock, reload, training, fill, table restoration and witness sweep have ended, so the die is Released (R87). -/
  | dieResetDone (d : Nat)
  /-- A die's golden slots and binding region have been restored from the mirror, so its bindings may form steps again (R359). -/
  | goldenRestoreDone (d : Nat)
  /-- A P4 loom command is queued on its lane: the record is loaded, blocks are aligned, and the array is integrated and converted (R108). -/
  | loomP4 (d c lane : Nat)
  /-- A P8 loom command runs four integration windows on a nested array (R113). -/
  | loomP8 (d c lane : Nat)
  /-- A witness probe drives rows 0–255 and converts the eight witness pairs at g = 6 (R121). -/
  | loomWitnessProbe (d c : Nat) (cmd : List Byte)
  /-- The probe DAC injects charge into one integrator, which is then converted (R121). -/
  | loomProbeConversion (d c : Nat) (cmd : List Byte)
  /-- A place frees in a full lane queue, so the stalled command is accepted (R115). -/
  | laneQueuePlaceFree (d c lane : Nat)
  /-- The last conversion round of an operation ends and its codes and status word reach the tally and the ladder (R124). -/
  | loomOperationDone (d c lane : Nat)
  /-- The housekeeping controller writes the selected array descriptor or remap entry (R128). -/
  | loomIdataWrite (d c data : Nat)
  /-- 4 ns after the status arrives, the ladder accepts the tile operation or finds it in trouble and issues a redo (R141). -/
  | ladderVerdict (d c : Nat)
  /-- The mender has streamed the golden copy and delivers the P16 result to the tally (R193). -/
  | p16RedoDone (d c : Nat)
  /-- The hub writes a core's grant for the period, and waiting STALL requests take it in order (R150). -/
  | stormGrantWrite (d c : Nat)
  /-- A promoted layer's HOLD steps have passed, so it starts one rung lower for one trial step (R148). -/
  | promotionHoldExpiry (b layer : Nat)
  /-- An accepted tile result, or a mender term, is added to its target entry with a frame raise and the flags set (R164). -/
  | tallyAddition (d c no : Nat)
  /-- A result place frees in the full tally buffer, so a held lane delivers its codes and resumes (R160). -/
  | tallyPlaceFree (d c : Nat)
  /-- MERGE copies, or adds, a source target into a destination target (R170). -/
  | tallyMerge (d c : Nat)
  /-- DRAIN converts the target entries into an output vector with range flags and writes the drain summary (R171). -/
  | tallyDrain (d c : Nat)
  /-- CLEAR writes an empty target of N entries (R170). -/
  | tallyClear (d c : Nat)
  /-- LRZ forms z = Vᵀx′, or Aᵀx′, into a tally target (R184). -/
  | menderLrz (d c : Nat)
  /-- LRU forms U_c z, or B z_a for an adapter, into the target (R184). -/
  | menderLru (d c : Nat)
  /-- TERM names a loom command by TILE_ID, forms its outlier term and holds the drift and outlier terms for the verdict (R191). -/
  | menderTerm (d c : Nat)
  /-- BIAS adds a bias vector, scaled by 2^PRE, to the target (R195). -/
  | menderBias (d c : Nat)
  /-- MATV computes a digital matrix product for a digital model (R194). -/
  | menderMatv (d c : Nat)
  /-- The housekeeping controller stages a drift entry for an array, up to 8 arrays at a time (R189). -/
  | mendDdataWrite (d c gain offs : Nat)
  /-- An engine command completes, with all its results in place or dropped, which may satisfy a WAIT (R259). -/
  | engineCommandDone (d c eng : Nat)
  /-- An array falls due for evaluation within WPERIOD, and NPROBE witness probes are issued in idle slots (R205). -/
  | witnessPeriodDue (d c a : Nat)
  /-- From the averaged witness codes the controller computes γ, ω and δ and records the evaluation (R207). -/
  | witnessEvaluationDone (d c a : Nat)
  /-- An array's last evaluation is more than 4 × WPERIOD old, so it becomes stale with an F0 notice (R206). -/
  | arrayStale (d c a : Nat)
  /-- Every 10 µs the bound b is evaluated for every Serving array (R202). -/
  | boundEvaluation (d c : Nat)
  /-- Every 10 s each array's age A grows by the temperature-weighted interval (R211). -/
  | ageUpdate (d c : Nat)
  /-- The next ADC of a lane falls due in the ADCPERIOD round, is replaced by a spare and calibrates (R223). -/
  | adcPeriodicCalibration (d c lane : Nat)
  /-- A suspect ADC's shadow period ends, and the ADC returns to service or is retired (R224). -/
  | adcShadowDone (d c lane adc : Nat)
  /-- TRACEPERIOD passes, so the die retraces its enabled lanes after a passing reference check (R229). -/
  | laneRetraceDue (d : Nat)
  /-- An array's witness evaluation and column table after programming end, so the array becomes Staging or Serving (R226). -/
  | arrayAssayDone (d c a : Nat) (sums : List Int) (codes : List (Int × Int × Int))
  /-- A full core assay of calibration, traces, witness sweep and tables ends (R227). -/
  | fullCoreAssayDone (d c : Nat)
  /-- A set-pulse and verify iteration on a group accepts, restarts or fails cells (R230). -/
  | writeVerifyIteration (d c : Nat) (reads : List Nat)
  /-- A row is written, any failing columns are remapped to spares, and the next row or the array assay follows (R233). -/
  | programmingRowDone (d c : Nat)
  /-- The junction leaves 20–70 °C, so the engine finishes its iteration and pauses (R232). -/
  | programmingPause (d c : Nat)
  /-- The junction has stayed in range for 10 ms, so the engine verify-reads its written rows and continues (R232). -/
  | programmingResume (d c : Nat)
  /-- Under AUTO, RTHOLD passes since the earliest TRIG on a half-die, so the hub requests a write window (R236). -/
  | rtholdExpiry (half : Nat)
  /-- A write to OD 0x4315 requests a write window on half-die h (R236). -/
  | windowRequest (w : Writer) (v : OdVal)
  /-- Every enabled core of the half-die lies within 20–68 °C, so the window opens and re-tempering starts (R237). -/
  | windowOpen (half : Nat)
  /-- WINMAX passes, so no new array starts and the window closes once the arrays in progress end (R236). -/
  | winmaxExpiry (half : Nat)
  /-- WINGAP passes, so the half-die may have a window again (R236). -/
  | wingapExpiry (half : Nat)
  /-- LTPERIOD passes, so a core logic test waits up to DEFER for a boundary with no task in flight (R240). -/
  | logicTestDue (d c : Nat)
  /-- DEFER expires: no new step needing the core is formed, and its tasks are pre-empted at the next boundary (R240). -/
  | deferDeadline (d c : Nat)
  /-- The 1.60 ms self-test ends; a core reset follows, or the core is fenced (R240). -/
  | logicTestDone (d c : Nat) (pass : Bool)
  /-- OD 0x4340 KIND 0x01 requests a core logic test (R241). -/
  | activityCoreLogicTest (w : Writer) (v : OdVal)
  /-- OD 0x4340 KIND 0x02 requests a lane ADC calibration (R241). -/
  | activityLaneAdcCalibration (w : Writer) (v : OdVal)
  /-- OD 0x4340 KIND 0x03 requests a lane retrace (R241). -/
  | activityLaneRetrace (w : Writer) (v : OdVal)
  /-- OD 0x4340 KIND 0x04 requests an array assay (R241). -/
  | activityArrayAssay (w : Writer) (v : OdVal)
  /-- OD 0x4340 KIND 0x05 requests a full core assay (R241). -/
  | activityFullCoreAssay (w : Writer) (v : OdVal)
  /-- A maker write to OD 0xF100 clears an array's remap table and a reason-1 retirement (R233). -/
  | remapResetArray (w : Writer) (v : OdVal)
  /-- The housekeeping controller reloads a poisoned shared-window line from DRAM, so steps on the core may be formed again (R251). -/
  | poisonedLineReload (d c line : Nat)
  /-- The sequencer issues the next stream entry to its engine queue, attaching gates and applying patches (R259). -/
  | sequencerIssue (d c : Nat)
  /-- A place frees in the target queue, or the WAIT condition holds, so the stalled sequencer resumes (R259). -/
  | sequencerStallEnd (d c : Nat)
  /-- A task's stitch completes, staged settings take effect, and the sequencer takes the next qualifying slot (R260). -/
  | stitchBoundary (d c : Nat)
  /-- A stitch has not reached its boundary within STITCHMAX, so an F2 fences the core (R261). -/
  | stitchWatchdogExpiry (d c : Nat)
  /-- The hub writes a slot's registers and sets VALID, checking the window rules (R253). -/
  | taskSlotValidate (d c slot : Nat) (cfg : SlotCfg)
  /-- The hub clears VALID, which takes effect at the task's next stitch boundary (R253). -/
  | taskSlotClear (d c slot : Nat)
  /-- The hub sets PREEMPT; the task leaves at its next boundary and its step is abandoned (R262). -/
  | taskPreempt (d c slot : Nat)
  /-- QUANT turns a source vector into an input record or record pair and writes its summary (R264). -/
  | vecQuant (d c : Nat)
  /-- NORM MODE 0 normalises a vector with a gain (R263). -/
  | vecNorm (d c : Nat)
  /-- NORM MODE 1 writes the FP32 sum of squares (R263). -/
  | vecNormSumsq (d c : Nat)
  /-- NORM MODE 2 normalises using a sum of squares read at AUX (R263). -/
  | vecNormPresum (d c : Nat)
  /-- ACT MODE 0 computes a·σ(a)·b (R263). -/
  | vecActGated (d c : Nat)
  /-- ACT MODE 1 computes the tanh-form GELU (R263). -/
  | vecActGelu (d c : Nat)
  /-- ROPE rotates element pairs by position (R263). -/
  | vecRope (d c : Nat)
  /-- ADD sums two vectors (R263). -/
  | vecAdd (d c : Nat)
  /-- MUL multiplies two vectors element by element (R263). -/
  | vecMul (d c : Nat)
  /-- CONV scales a vector by 2^SHIFT and converts it to DFMT (R263). -/
  | vecConv (d c : Nat)
  /-- CNT counts the elements that meet a comparison and fails the stitch check with CHECK (R252). -/
  | vecCnt (d c : Nat)
  /-- SAMPLE LOCAL forms a candidate record from a vocabulary slice (R384). -/
  | sampleLocal (d c : Nat)
  /-- SAMPLE MERGE combines two candidate records (R384). -/
  | sampleMerge (d c : Nat)
  /-- SAMPLE DRAW picks a token by top-k, top-p and a Philox draw, or greedily (R385). -/
  | sampleDraw (d c : Nat)
  /-- SAMPLE ACCEPT tests an apprentice draft and draws the corrected token on rejection (R395). -/
  | sampleAccept (d c : Nat)
  /-- SCAN attends each served query over its visible positions, from pages and the fresh block (R407). -/
  | attnScan (d c : Nat)
  /-- MERGE combines two softmax states (R411). -/
  | attnMerge (d c : Nat)
  /-- FINAL writes acc/S and fails the stitch check on a NONFIN or EMPTY state (R412). -/
  | attnFinal (d c : Nat)
  /-- COPY moves LENGTH bytes, with optional inline XTS decryption (R267). -/
  | porterCopy (d c ch : Nat)
  /-- GATHER reads listed elements into consecutive places (R268). -/
  | porterGather (d c ch : Nat)
  /-- SCATTER writes consecutive elements to listed addresses (R268). -/
  | porterScatter (d c ch : Nat)
  /-- APPEND reads its elements into the append buffer and holds them for the commit gate (R269). -/
  | porterAppend (d c ch : Nat)
  /-- A KV-form APPEND resolves the K/V addresses of this die's positions and holds them for the gate (R414). -/
  | kvAppend (d c ch : Nat)
  /-- PUSH copies to the adjacent core's task window over a neighbour port (R268). -/
  | porterPush (d c ch : Nat)
  /-- A remote write or push arrives and is mapped through the matching slot's task window, or dropped (R258). -/
  | remoteWriteArrival (idx : Nat)
  /-- The command at a RELEASE entry completes its reads, so FULL clears and, in poison mode, the slot is poisoned (R288). -/
  | dataSlotRelease (d c slot ds : Nat)
  /-- A gated read held for FILLWAIT proceeds; a fill timeout fails the stitch check (R289). -/
  | fillwaitExpiry (d c key : Nat)
  /-- A router checks a flit's parity and has it resent up to two times (R307). -/
  | meshFlitReceive (d router port : Nat) (ok : Bool)
  /-- Routes are recomputed, EPOCH rises, and unroutable cores are fenced (R310). -/
  | routeRecomputeDone (d : Nat)
  /-- No seam heartbeat arrives for SEAMTO, so the seam is lost as an F2 (R316). -/
  | seamHeartbeatTimeout (d : Nat)
  /-- A core arrives at the die barrier; the root releases once every leaf has arrived (R318). -/
  | dieBarrierArrive (d c : Nat)
  /-- The controller reads and decodes a whole folio and returns the requested bytes (R329). -/
  | dramRead (d off len : Nat)
  /-- The controller writes a whole folio, or does a read-modify-write, merging writes to one folio (R329). -/
  | dramWrite (d off : Nat) (data : List Byte)
  /-- The 64 ns merge window of a folio buffer entry ends and the merged operation is issued (R329). -/
  | writeMergeExpiry (d stack phi : Nat)
  /-- An uncorrectable folio is re-read; it clears as an F1, or poisons the data and starts a die reset (R337). -/
  | folioReread (d stack : Nat) (alloc : Bool)
  /-- Each scrub interval the scrubber reads the next folio and writes back any correction (R340). -/
  | scrubTick (d stack : Nat)
  /-- The remap copy ends, the entry is in force and held accesses proceed (R339). -/
  | remapCopyDone (d stack : Nat)
  /-- A page walk completes and fills the core cache, or finds a fault (R333). -/
  | translationWalkDone (d c u : Nat)
  /-- The hub answers RESUME and the suspended unit restarts from PROGRESS (R335). -/
  | xrespResume (d c u : Nat)
  /-- The hub answers FAIL; the unit completes with nothing more written and the stitch check fails (R335). -/
  | xrespFail (d c u : Nat)
  /-- XLTWAIT passes with no answer, so the die applies FAIL with an F0 notice (R335). -/
  | xltwaitExpiry (d c u : Nat)
  /-- MEMC_INVCMD with GO starts the invalidation of a context or VA range (R334). -/
  | invalidationStart (d tctx : Nat) (whole : Bool) (page pages : Nat)
  /-- Every cache of the die has dropped the matching entries (R334). -/
  | invalidationDone (d : Nat)
  /-- A maker write to OD 0xF110 clears a stack's folio remap table (R339). -/
  | remapResetStack (w : Writer) (v : OdVal)
  /-- OPEN reads and verifies an image head and hallmark and creates an object (R348). -/
  | modelOpen (aq : Nat) (e data : List Byte) (layers groups : Nat)
  /-- PUT lands GCM-sealed chunks of sections and verifies each section's digest (R351). -/
  | modelPut (aq : Nat) (e data : List Byte)
  /-- PLACE checks a placement table and creates a Loading generation (R355). -/
  | modelPlace (aq : Nat) (e data : List Byte) (nl groups vocab : Nat)
  /-- PATTERN loads a pattern image after the checks of Table 11.3 (R280). -/
  | modelPattern (aq : Nat) (e data : List Byte)
  /-- SWITCH makes a Ready generation Current at the next step boundary (R360). -/
  | modelSwitch (aq : Nat) (e : List Byte)
  /-- RETIRE drops a Loading or Ready generation (R360). -/
  | modelRetire (aq : Nat) (e : List Byte)
  /-- REUSE binds a generation to the arrays named in a valid placement record (R362). -/
  | modelReuse (aq : Nat) (e data : List Byte) (nl groups vocab : Nat)
  /-- KEYIMPORT unwraps an upload key or data key under the KIK into a slot (R350). -/
  | keyimport (aq : Nat) (e data : List Byte)
  /-- KEYERASE empties a key slot for steps formed afterwards (R350). -/
  | keyerase (aq : Nat) (e : List Byte)
  /-- CLOSE drops a private object once no step binds it (R361). -/
  | modelClose (aq : Nat) (e : List Byte)
  /-- All sections are verified, all tiles are Staging, the mirrors are complete and a pattern is loaded, so the generation is Ready (R360). -/
  | generationReady (b gen : Nat)
  /-- CREATE makes the lowest Free context Idle and reserves its KV range (R373). -/
  | serveCreate (q : Nat) (e img : List Byte)
  /-- SUBMIT appends tokens to the pending prompt and makes the context Runnable (R374). -/
  | serveSubmit (q : Nat) (e : List Byte) (toks : List Nat)
  /-- CANCEL drops pending work at once, or at the step's gate (R386). -/
  | serveCancel (q : Nat) (e : List Byte)
  /-- PAUSE copies the context's KV pages to the cellar (R387). -/
  | servePause (q : Nat) (e : List Byte)
  /-- RESUME reads the cellar blocks back and checks their tags (R389). -/
  | serveResume (q : Nat) (e : List Byte)
  /-- DESTROY releases the KV pages and cellar blocks and frees the context (R373). -/
  | serveDestroy (q : Nat) (e : List Byte)
  /-- SETPARAM replaces the sampling and stopping fields from the next step (R373). -/
  | serveSetparam (q : Nat) (e img : List Byte)
  /-- FORK creates a context that shares the source's first COUNT positions (R418). -/
  | serveFork (q : Nat) (e : List Byte)
  /-- The operator writes a queue record through OD 0x7030 (R372). -/
  | queueRecordWrite (w : Writer) (v : OdVal)
  /-- The dispatcher forms a step from Runnable contexts and binds its generation, tables and bucket (R375). -/
  | stepFormation (b : Nat) (accepted : List Nat)
  /-- The frame copy ends; the entry is rewritten and the old frame's count falls (R419). -/
  | cowCopyDone (x p : Nat)
  /-- A follower receives PREPARE, writes the step tables, makes its slots VALID and sends READY (R379). -/
  | hubmsgPrepare (b num gen bucket audrole : Nat) (levels : List Nat) (rows : List Row)
  /-- The lead receives READY; when all have arrived it writes parameter blocks and sends GO (R379). -/
  | hubmsgReady (b num m : Nat)
  /-- A follower receives GO and writes its parameter blocks (R379). -/
  | hubmsgGo (b num : Nat)
  /-- A follower has not sent READY within PREPTO, so the step is abandoned before any task runs (R379). -/
  | preptoExpiry (b num : Nat)
  /-- The gate decides COMMIT when all items pass, or ABANDON on the first failure, and sends the decision (R381). -/
  | commitDecision (b num : Nat) (reports : List ModReport) (results : List RowResult) (sigs : List (List Byte))
  /-- A module receives COMMIT, releases the step's held appends and sends DONE (R381). -/
  | hubmsgCommit (b num : Nat) (lens : List Nat)
  /-- A module receives ABANDON and discards the step's appends (R381). -/
  | hubmsgAbandon (b num cause : Nat)
  /-- With DONE from every module, the lead writes context records, token records and the promotion table (R381). -/
  | hubmsgDone (b num m : Nat)
  /-- A follower has not sent DONE within GATETO, so the step's contexts become Lost and an F2 is recorded (R382). -/
  | gatetoExpiry (b num m : Nat)
  /-- The last module reports its cellar copy, so the context becomes Paused and its TTL starts (R387). -/
  | cellarCopyDone (x : Nat)
  /-- All pages are back and their tags checked, so the context becomes Runnable, Idle or Lost (R389). -/
  | cellarRestoreDone (x : Nat) (data : List (List Byte))
  /-- A Paused context's TTL passes, so it becomes Free and an EXPIRED event is sent (R390). -/
  | cellarTtlExpiry (x : Nat)
  /-- An Idle context's TOUCHED lies IDLEPAUSE in the past, so it is paused (R388). -/
  | idlepauseExpiry (x : Nat)
  /-- A zero-count frame or range returns to the pool after steps up to E retire and the invalidation completes (R420). -/
  | frameReclaim
  /-- A port completes training on four or two lanes, comes Up and sends IDENT (R429). -/
  | portTrainingDone (d p lanes : Nat)
  /-- A port that failed training retries once a second while its cable is present (R429). -/
  | trainingRetryTick (d p : Nat)
  /-- LINK_CTRL.RETRAIN starts a full retrain of the port (R429). -/
  | linkRetrain (d p : Nat)
  /-- IDENT arrives, the version is negotiated and the port is classified against the plan (R436). -/
  | identReceived (d p : Nat) (ident : Ident)
  /-- A Quarantined port sends IDENT once a second (R430). -/
  | identSendTick (d p : Nat)
  /-- A flit whose CRC fails is discarded and go-back-N replay is requested (R431). -/
  | linkFlitReceive (d p corr unc : Nat) (flit : List Byte)
  /-- The sender replays from the requested SEQ out of its replay buffer (R431). -/
  | linkReplay (d p seq : Nat)
  /-- The fast retrain ends and the port resumes, or it fails (R431). -/
  | fastRetrainDone (d p : Nat) (ok : Bool)
  /-- A data packet arrives and is checked against the tenant presence and region owner tables (R433). -/
  | packetArrival (d p : Nat) (pkt : Packet)
  /-- No IDENT has arrived by DISCTO, so the port is classified Missing (R436). -/
  | disctoExpiry (d p : Nat)
  /-- A fabric plan is accepted and every port is reclassified (R434). -/
  | fabricPlanWrite (w : Writer) (v : OdVal)
  /-- A link-state record is received and flooded over Routed links (R439). -/
  | lsaReceived (d p : Nat) (lsa : Lsa)
  /-- Once a second each hub floods link-state records for its ports (R439). -/
  | lsaPeriodicTick
  /-- Link-state records have been unchanged for 100 µs, so route tables are computed into the inactive epoch (R439). -/
  | routeTableCompute
  /-- ARRIVE reaches a parent, or the root, in a group tree (R445). -/
  | barrierArrive (d frm grp digest inj del : Nat)
  /-- RELEASE travels down the tree and carries root hub time (R445). -/
  | barrierRelease (d grp seq rootTime : Nat)
  /-- A snapshot round's counts differ at the root, so members arrive again (R446). -/
  | snapshotRetry (d grp seq : Nat)
  /-- A member sends up to 192 B, which the root sends down the tree (R445). -/
  | broadcast (d grp seq : Nat) (down : Bool) (data : List Byte)
  /-- An OD 0x6022 write or a RESET message discards data flits, resets link state and rebuilds routes (R445). -/
  | fabricReset (w : Writer) (v : OdVal) (msg : Bool) (d p die seq : Nat)
  /-- OD 0x6061 starts a barrier on a group (R443). -/
  | globalBarrierStart (w : Writer) (v : OdVal)
  /-- OD 0x6061 starts a consistent snapshot on a group (R446). -/
  | globalSnapshotStart (w : Writer) (v : OdVal)
  /-- Every SYNCPERIOD the hubs run a group-0 barrier for time relation (R447). -/
  | syncPeriodTick
  /-- The operator writes a tenant record through OD 0x7080.02 (R453). -/
  | tenantRecordWrite (w : Writer) (v : OdVal)
  /-- CHALREQ returns a nonce bound to the requester, role and entry (R457). -/
  | cmpChalreq (g : Dgram)
  /-- OPEN verifies the signature over the nonce and opens a session (R457). -/
  | cmpOpen (g : Dgram)
  /-- CLOSE ends a session (R458). -/
  | cmpClose (g : Dgram)
  /-- A nonce's 10 s validity passes (R457). -/
  | nonceExpiry (tr addr port : Nat)
  /-- The 10 s hold after five failures on a transport ends (R457). -/
  | challengeHoldExpiry (tr : Nat)
  /-- A session has had no message for SESSIDLE, so it closes (R458). -/
  | sessionIdleExpiry (id : Nat)
  /-- Each second, or when the buffer is full, audit records and seals are flushed to flash (R462). -/
  | auditFlush
  /-- At each METERP boundary balances refill, storm grants are computed, demotions start and holds are set (R463). -/
  | meteringPeriodBoundary
  /-- A write to OD 0x8002 acknowledges a record, or all permitted records, and may release FAULT_N (R488). -/
  | faultAcknowledge (w : Writer) (v : OdVal)
  /-- Writing 0xA5C3 to OD 0x8020 in Stopped enters test mode (R490). -/
  | testModeEnter (w : Writer) (v : OdVal)
  /-- Writing 0x5A3C to OD 0x8020 leaves test mode and writes sticky records (R490). -/
  | testModeLeave (w : Writer) (v : OdVal)
  /-- A write to OD 0x8030 in test mode forces one occurrence of a fault code (R491). -/
  | faultForce (w : Writer) (v : OdVal)
  /-- A write to OD 0x8040 resets, tests and assays a fenced core, which then leaves the fence record (R489). -/
  | coreUnfence (w : Writer) (v : OdVal) (test assay : Bool)
  /-- The audit run is not at the gate within AUDTO, so the step is abandoned and re-formed unaudited (R507). -/
  | audtoExpiry (b num : Nat)
  /-- A write to OD 0x8070 + b sub 0x0B audits the next step formed (R501). -/
  | auditRequest (w : Writer) (b : Nat) (v : OdVal)
  /-- Every 10 µs the model and offsets are updated, sensors checked, the stop predicted and half codes set (R515). -/
  | thermalModelUpdate (d : Nat) (temps : List Int) (powers : List Nat) (sens model : List Int)
  /-- Every 100 µs the rise code of each half steps down, up or holds (R521). -/
  | riseCodeUpdate (d : Nat)
  /-- Every 100 µs the window code of a requested half steps towards 66–68 °C (R525). -/
  | windowCodeUpdate (d : Nat)
  /-- A window not open within WINOPEN is withdrawn with an F0 notice (R525). -/
  | winopenExpiry (half : Nat)
  /-- 60 s after withdrawal the request returns to the window queue (R525). -/
  | windowRequeueExpiry (half : Nat)
  /-- Every 100 µs the hub supplies the plate node from inlet temperature and input power (R515). -/
  | plateNodeUpdate (valid : Bool) (plate : Int) (inlet outlet : Nat)
  /-- A comparator above 115 °C for 10 µs turns the rails off with LASTOFF 0x4 (R523). -/
  | hardTrip (d sensor : Nat)
  /-- Every 100 µs the hub adjusts the module cap code from A₁₀ and A₀.₁ (R528). -/
  | powerCapUpdate (a01 a10 vin iin : Nat) (dies : List Nat)
  /-- An inlet over its limit, or an outlet more than 15 K above inlet, held for 1 s records 0x0A07 (R529). -/
  | coolantAlarmExpiry
  /-- SOLICIT schedules a unicast ANNOUNCE after a random delay (R541). -/
  | cmpSolicit (g : Dgram)
  /-- The delay after a SOLICIT ends and the ANNOUNCE is sent (R541). -/
  | announceJitterExpiry (addr port : Nat)
  /-- Every ANNPERIOD, or after a state change subject to the 100 ms gap, a multicast ANNOUNCE is sent (R541). -/
  | announcePeriodTick
  /-- An ANNOUNCE from another node updates the partner table (R542). -/
  | announceReceived (g : Dgram)
  /-- A partner sends no ANNOUNCE within 3 × its ANNPERIOD, so its entry expires (R542). -/
  | partnerExpiry (serial : List Byte)
  /-- READ returns up to 1,024 B of an entry from a snapshot (R545). -/
  | cmpRead (g : Dgram)
  /-- WRITE stages segments and applies a dictionary value at LAST, after the checks of R554 (R545). -/
  | cmpWrite (g : Dgram) (test assay : Bool)
  /-- FWBEGIN starts an upload into a slot and erases its header (R546). -/
  | fwbegin (g : Dgram)
  /-- FWDATA writes the next image segment (R546). -/
  | fwdata (g : Dgram)
  /-- FWEND checks the uploaded image as the boot ROM does and marks the slot valid (R546). -/
  | fwend (g : Dgram)
  /-- FWCOMMIT raises the fused anti-rollback count to the running image's security version (R547). -/
  | fwcommit (g : Dgram)
  /-- Duplicate Address Detection ends; a failure stops CMP sends and is retried every 10 s (R536). -/
  | dadDone (ok : Bool)
  /-- The module answers a Neighbor Solicitation (R536). -/
  | neighborSolicitation (addr target : Nat)
  /-- The module answers an ICMPv6 Echo Request (R536). -/
  | echoRequest (addr : Nat) (data : List Byte)
  /-- PLCA beacons stop, OD 0x1028 turns false and the module falls back to CSMA/CD with an F0 notice (R535). -/
  | plcaBeaconLoss
  /-- The host writes LEN with GO and the hub serves the mailbox message (R549). -/
  | mailboxGo (v : Nat) (test assay : Bool)
  /-- The host writes a submission tail doorbell (R572). -/
  | doorbellSqtail (admin : Bool) (q v : Nat)
  /-- The host releases completion entries by writing the head doorbell (R572). -/
  | doorbellCqhead (admin : Bool) (q v : Nat)
  /-- The host releases token records by writing the output head doorbell (R572). -/
  | doorbellOqhead (admin : Bool) (q v : Nat)
  /-- The hub fetches a submission entry with a reserved completion slot and checks its header (R575). -/
  | submissionFetch (admin : Bool) (q : Nat) (e : List Byte)
  /-- RINGSET sets a serving queue's three rings (R582). -/
  | ringset (aq : Nat) (e : List Byte)
  /-- RINGCLR stops fetching from a queue and waits for its steps in flight (R582). -/
  | ringclr (aq : Nat) (e : List Byte)
  /-- No step of the queue is in flight, so its records are written, the rings are removed and RINGCLR completes (R582). -/
  | ringclrComplete (q : Nat)
  /-- A mailbox write of OD 0x1060 enables or disables an admin queue bound to the session's role (R581). -/
  | adminQueueRecordWrite (w : Writer) (v : OdVal)
  /-- ITIME passes since a ring's first unsignalled entry, so its MSI-X vector is sent (R583). -/
  | interruptTimerExpiry (which q : Nat)
  /-- A masked vector with its pending bit set is unmasked and sends its message (R583). -/
  | msixUnmask (vec : Nat)
  /-- A write to HUB_HIFCTRL.EN starts or stops the serving of doorbells and ring writes (R584). -/
  | hifEnable (en : Bool)
  /-- A write to a register with no row of its own acts under its access code, or is discarded with an F0 notice if it comes from a wrong source or carries a reserved encoding (R6). -/
  | registerWrite (src die off size v : Nat) (test assay : Bool)
  /-- The die watchdog expires, raising F2 0x0606 and starting a die reset under the die reaction (R85). -/
  | dieWatchdogExpiry (d : Nat)
  /-- A core has not stopped at its stitch boundary within 20 µs of safe-state entry, so it is reset (R486). -/
  | safeStateCoreStopTimeout (d c : Nat)
  /-- A hub firmware or hub hardware fault is detected, raising F3 0x0B03 and entering safe state (R82). -/
  | hubHardwareFault
  /-- The internal DC+ fuse opens on an internal short, and the module stops drawing current as a power-off with LASTOFF 0x0 (R595). -/
  | internalFuseOpen
  /-- The input voltage returns into 620–920 V, so the input-low or input-high condition ends and VLOW or VHIGH clears (R48). -/
  | inputReturnInRange (vin : Nat)
  /-- PLCA beacons are received again, so OD 0x1028 turns true and the module transmits only in its own transmit opportunity (R535). -/
  | plcaBeaconRegained
  /-- 10 s after a failed Duplicate Address Detection, detection is repeated (R536). -/
  | dadRetryExpiry
  /-- A core clock change completes within 2 µs and CLK_ACT reports the new code, letting its half-die code change next (R273). -/
  | coreClockChangeDone (d c : Nat)
  /-- Once an hour the hub writes its since-manufacture counters, including hours in Service, to management flash (R557). -/
  | manufactureCounterHourTick (us : Nat)
  deriving DecidableEq, Repr

end Sys2Proof
end

