-- ==== Sys2Proof/WellFormed.lean ====
section
/-! DEFINITION. Which commands are well formed: their numbers name parts that the module has (dies 0–7, cores 0–71, lanes
0–15, slots 0–3, ports 0–5, queues, contexts), and each field of an encoded command fits its bits. -/

namespace Sys2Proof

/-- A writer holds one of the three roles on one of the two transports. -/
def Writer.wf (w : Writer) : Bool :=
  decide (1 ≤ w.role) && decide (w.role ≤ 3) && decide (1 ≤ w.tr) && decide (w.tr ≤ 2)

/-- A slot's settings fit their registers, and there are at most 32 data slots. -/
def SlotCfg.wf (c : SlotCfg) : Bool :=
  decide (c.tenant < 65536) && decide (c.tag < 65536) && decide (c.tctx < 65536) && decide (c.tbase < 512) && decide (c.tlen < 512) &&
  decide (c.pbase < 512) && decide (c.plen < 512) && decide (c.arrLo < 512) && decide (c.arrHi < 512) && decide (c.kvstab < 2 ^ 48) &&
  decide (c.kvD < 256) && decide (c.kvA < 256) && decide (c.pstride < 2048) && decide (c.binding < 4) && decide (c.dslots.length ≤ 32)

/-- Whether a command's operands are ones that the module's parts have. -/
def Instr.wf : Instr → Bool
  | .menHighRecognised => true
  | .menLowRecognised => true
  | .stopNAsserted => true
  | .orderlyStopCoreTimeout d c => decide (d < 8) && decide (c < 72)
  | .stoppedEntry => true
  | .stopNReleased => true
  | .inputLoss => true
  | .holdupCoreStopTimeout d c => decide (d < 8) && decide (c < 72)
  | .holdupFlashDone => true
  | .inputOvervoltage => true
  | .inputSwitchReclose => true
  | .inputLow _ => true
  | .inputHigh _ => true
  | .startPermitted => true
  | .prechargeBypassClose => true
  | .prechargeRearm => true
  | .standbyDomainPowerUp => true
  | .standbyDomainLoss => true
  | .secondaryRailFault => true
  | .standbyDomainWatchdog => true
  | .perstNAsserted => true
  | .perstNReleased => true
  | .pcieHotReset => true
  | .functionLevelReset => true
  | .d3hotEntry => true
  | .d0Return => true
  | .refclkMeasurement _ => true
  | .refCalMeasurement _ => true
  | .cableInserted d p => decide (d < 8) && decide (p < 6)
  | .cableRemoved d p => decide (d < 8) && decide (p < 6)
  | .startMoment => true
  | .railsInWindow => true
  | .bootImageVerify slot => decide (slot < 2)
  | .hubFirmwareStarted => true
  | .dieRelease d => decide (d < 8)
  | .memoryTrainingDone d stack _ => decide (d < 8) && decide (stack < 2)
  | .coreSelfTestDone d c _ => decide (d < 8) && decide (c < 72)
  | .adcSelfCalibrationDone d c lane adc _ _ _ _ => decide (d < 8) && decide (c < 72) && decide (lane < 16) && decide (adc < 136)
  | .memoryFillDone d => decide (d < 8)
  | .referenceCheckDone d _ => decide (d < 8)
  | .probeDacTraceDone d c lane _ _ => decide (d < 8) && decide (c < 72) && decide (lane < 16)
  | .columnTableDone d c a _ => decide (d < 8) && decide (c < 72) && decide (a < 512)
  | .moduleAssayDone => true
  | .startupWatchdogExpiry => true
  | .moduleResetRequest w _ => Writer.wf w
  | .dieResetRequest w n _ => Writer.wf w && decide (n < 8)
  | .dieResetDone d => decide (d < 8)
  | .goldenRestoreDone d => decide (d < 8)
  | .loomP4 d c lane => decide (d < 8) && decide (c < 72) && decide (lane < 16)
  | .loomP8 d c lane => decide (d < 8) && decide (c < 72) && decide (lane < 16)
  | .loomWitnessProbe d c _ => decide (d < 8) && decide (c < 72)
  | .loomProbeConversion d c _ => decide (d < 8) && decide (c < 72)
  | .laneQueuePlaceFree d c lane => decide (d < 8) && decide (c < 72) && decide (lane < 16)
  | .loomOperationDone d c lane => decide (d < 8) && decide (c < 72) && decide (lane < 16)
  | .loomIdataWrite d c _ => decide (d < 8) && decide (c < 72)
  | .ladderVerdict d c => decide (d < 8) && decide (c < 72)
  | .p16RedoDone d c => decide (d < 8) && decide (c < 72)
  | .stormGrantWrite d c => decide (d < 8) && decide (c < 72)
  | .promotionHoldExpiry b _ => decide (b < 4)
  | .tallyAddition d c _ => decide (d < 8) && decide (c < 72)
  | .tallyPlaceFree d c => decide (d < 8) && decide (c < 72)
  | .tallyMerge d c => decide (d < 8) && decide (c < 72)
  | .tallyDrain d c => decide (d < 8) && decide (c < 72)
  | .tallyClear d c => decide (d < 8) && decide (c < 72)
  | .menderLrz d c => decide (d < 8) && decide (c < 72)
  | .menderLru d c => decide (d < 8) && decide (c < 72)
  | .menderTerm d c => decide (d < 8) && decide (c < 72)
  | .menderBias d c => decide (d < 8) && decide (c < 72)
  | .menderMatv d c => decide (d < 8) && decide (c < 72)
  | .mendDdataWrite d c _ _ => decide (d < 8) && decide (c < 72)
  | .engineCommandDone d c _ => decide (d < 8) && decide (c < 72)
  | .witnessPeriodDue d c a => decide (d < 8) && decide (c < 72) && decide (a < 512)
  | .witnessEvaluationDone d c a => decide (d < 8) && decide (c < 72) && decide (a < 512)
  | .arrayStale d c a => decide (d < 8) && decide (c < 72) && decide (a < 512)
  | .boundEvaluation d c => decide (d < 8) && decide (c < 72)
  | .ageUpdate d c => decide (d < 8) && decide (c < 72)
  | .adcPeriodicCalibration d c lane => decide (d < 8) && decide (c < 72) && decide (lane < 16)
  | .adcShadowDone d c lane adc => decide (d < 8) && decide (c < 72) && decide (lane < 16) && decide (adc < 136)
  | .laneRetraceDue d => decide (d < 8)
  | .arrayAssayDone d c a _ _ => decide (d < 8) && decide (c < 72) && decide (a < 512)
  | .fullCoreAssayDone d c => decide (d < 8) && decide (c < 72)
  | .writeVerifyIteration d c _ => decide (d < 8) && decide (c < 72)
  | .programmingRowDone d c => decide (d < 8) && decide (c < 72)
  | .programmingPause d c => decide (d < 8) && decide (c < 72)
  | .programmingResume d c => decide (d < 8) && decide (c < 72)
  | .rtholdExpiry half => decide (half < 16)
  | .windowRequest w _ => Writer.wf w
  | .windowOpen half => decide (half < 16)
  | .winmaxExpiry half => decide (half < 16)
  | .wingapExpiry half => decide (half < 16)
  | .logicTestDue d c => decide (d < 8) && decide (c < 72)
  | .deferDeadline d c => decide (d < 8) && decide (c < 72)
  | .logicTestDone d c _ => decide (d < 8) && decide (c < 72)
  | .activityCoreLogicTest w _ => Writer.wf w
  | .activityLaneAdcCalibration w _ => Writer.wf w
  | .activityLaneRetrace w _ => Writer.wf w
  | .activityArrayAssay w _ => Writer.wf w
  | .activityFullCoreAssay w _ => Writer.wf w
  | .remapResetArray w _ => Writer.wf w
  | .poisonedLineReload d c _ => decide (d < 8) && decide (c < 72)
  | .sequencerIssue d c => decide (d < 8) && decide (c < 72)
  | .sequencerStallEnd d c => decide (d < 8) && decide (c < 72)
  | .stitchBoundary d c => decide (d < 8) && decide (c < 72)
  | .stitchWatchdogExpiry d c => decide (d < 8) && decide (c < 72)
  | .taskSlotValidate d c slot cfg => decide (d < 8) && decide (c < 72) && decide (slot < 4) && SlotCfg.wf cfg
  | .taskSlotClear d c slot => decide (d < 8) && decide (c < 72) && decide (slot < 4)
  | .taskPreempt d c slot => decide (d < 8) && decide (c < 72) && decide (slot < 4)
  | .vecQuant d c => decide (d < 8) && decide (c < 72)
  | .vecNorm d c => decide (d < 8) && decide (c < 72)
  | .vecNormSumsq d c => decide (d < 8) && decide (c < 72)
  | .vecNormPresum d c => decide (d < 8) && decide (c < 72)
  | .vecActGated d c => decide (d < 8) && decide (c < 72)
  | .vecActGelu d c => decide (d < 8) && decide (c < 72)
  | .vecRope d c => decide (d < 8) && decide (c < 72)
  | .vecAdd d c => decide (d < 8) && decide (c < 72)
  | .vecMul d c => decide (d < 8) && decide (c < 72)
  | .vecConv d c => decide (d < 8) && decide (c < 72)
  | .vecCnt d c => decide (d < 8) && decide (c < 72)
  | .sampleLocal d c => decide (d < 8) && decide (c < 72)
  | .sampleMerge d c => decide (d < 8) && decide (c < 72)
  | .sampleDraw d c => decide (d < 8) && decide (c < 72)
  | .sampleAccept d c => decide (d < 8) && decide (c < 72)
  | .attnScan d c => decide (d < 8) && decide (c < 72)
  | .attnMerge d c => decide (d < 8) && decide (c < 72)
  | .attnFinal d c => decide (d < 8) && decide (c < 72)
  | .porterCopy d c ch => decide (d < 8) && decide (c < 72) && decide (ch < 4)
  | .porterGather d c ch => decide (d < 8) && decide (c < 72) && decide (ch < 4)
  | .porterScatter d c ch => decide (d < 8) && decide (c < 72) && decide (ch < 4)
  | .porterAppend d c ch => decide (d < 8) && decide (c < 72) && decide (ch < 4)
  | .kvAppend d c ch => decide (d < 8) && decide (c < 72) && decide (ch < 4)
  | .porterPush d c ch => decide (d < 8) && decide (c < 72) && decide (ch < 4)
  | .remoteWriteArrival _ => true
  | .dataSlotRelease d c slot _ => decide (d < 8) && decide (c < 72) && decide (slot < 4)
  | .fillwaitExpiry d c _ => decide (d < 8) && decide (c < 72)
  | .meshFlitReceive d router port _ => decide (d < 8) && decide (router < 72) && decide (port < 4)
  | .routeRecomputeDone d => decide (d < 8)
  | .seamHeartbeatTimeout d => decide (d < 8)
  | .dieBarrierArrive d c => decide (d < 8) && decide (c < 72)
  | .dramRead d _ _ => decide (d < 8)
  | .dramWrite d _ _ => decide (d < 8)
  | .writeMergeExpiry d stack _ => decide (d < 8) && decide (stack < 2)
  | .folioReread d stack _ => decide (d < 8) && decide (stack < 2)
  | .scrubTick d stack => decide (d < 8) && decide (stack < 2)
  | .remapCopyDone d stack => decide (d < 8) && decide (stack < 2)
  | .translationWalkDone d c u => decide (d < 8) && decide (c < 72) && decide (u < 5)
  | .xrespResume d c u => decide (d < 8) && decide (c < 72) && decide (u < 5)
  | .xrespFail d c u => decide (d < 8) && decide (c < 72) && decide (u < 5)
  | .xltwaitExpiry d c u => decide (d < 8) && decide (c < 72) && decide (u < 5)
  | .invalidationStart d _ _ _ _ => decide (d < 8)
  | .invalidationDone d => decide (d < 8)
  | .remapResetStack w _ => Writer.wf w
  | .modelOpen _ _ _ _ _ => true
  | .modelPut _ _ _ => true
  | .modelPlace _ _ _ _ _ _ => true
  | .modelPattern _ _ _ => true
  | .modelSwitch _ _ => true
  | .modelRetire _ _ => true
  | .modelReuse _ _ _ _ _ _ => true
  | .keyimport _ _ _ => true
  | .keyerase _ _ => true
  | .modelClose _ _ => true
  | .generationReady b _ => decide (b < 4)
  | .serveCreate q _ _ => decide (q < 262144)
  | .serveSubmit q _ _ => decide (q < 262144)
  | .serveCancel q _ => decide (q < 262144)
  | .servePause q _ => decide (q < 262144)
  | .serveResume q _ => decide (q < 262144)
  | .serveDestroy q _ => decide (q < 262144)
  | .serveSetparam q _ _ => decide (q < 262144)
  | .serveFork q _ => decide (q < 262144)
  | .queueRecordWrite w _ => Writer.wf w
  | .stepFormation b _ => decide (b < 4)
  | .cowCopyDone x p => decide (x < 1048576) && decide (p < 2 ^ 21)
  | .hubmsgPrepare b _ _ _ _ _ _ => decide (b < 4)
  | .hubmsgReady b _ _ => decide (b < 4)
  | .hubmsgGo b _ => decide (b < 4)
  | .preptoExpiry b _ => decide (b < 4)
  | .commitDecision b _ _ _ _ => decide (b < 4)
  | .hubmsgCommit b _ _ => decide (b < 4)
  | .hubmsgAbandon b _ _ => decide (b < 4)
  | .hubmsgDone b _ _ => decide (b < 4)
  | .gatetoExpiry b _ _ => decide (b < 4)
  | .cellarCopyDone x => decide (x < 1048576)
  | .cellarRestoreDone x _ => decide (x < 1048576)
  | .cellarTtlExpiry x => decide (x < 1048576)
  | .idlepauseExpiry x => decide (x < 1048576)
  | .frameReclaim => true
  | .portTrainingDone d p _ => decide (d < 8) && decide (p < 6)
  | .trainingRetryTick d p => decide (d < 8) && decide (p < 6)
  | .linkRetrain d p => decide (d < 8) && decide (p < 6)
  | .identReceived d p _ => decide (d < 8) && decide (p < 6)
  | .identSendTick d p => decide (d < 8) && decide (p < 6)
  | .linkFlitReceive d p _ _ _ => decide (d < 8) && decide (p < 6)
  | .linkReplay d p _ => decide (d < 8) && decide (p < 6)
  | .fastRetrainDone d p _ => decide (d < 8) && decide (p < 6)
  | .packetArrival d p _ => decide (d < 8) && decide (p < 6)
  | .disctoExpiry d p => decide (d < 8) && decide (p < 6)
  | .fabricPlanWrite w _ => Writer.wf w
  | .lsaReceived d p _ => decide (d < 8) && decide (p < 6)
  | .lsaPeriodicTick => true
  | .routeTableCompute => true
  | .barrierArrive d _ _ _ _ _ => decide (d < 8)
  | .barrierRelease d _ _ _ => decide (d < 8)
  | .snapshotRetry d _ _ => decide (d < 8)
  | .broadcast d _ _ _ _ => decide (d < 8)
  | .fabricReset w _ _ d p _ _ => Writer.wf w && decide (d < 8) && decide (p < 6)
  | .globalBarrierStart w _ => Writer.wf w
  | .globalSnapshotStart w _ => Writer.wf w
  | .syncPeriodTick => true
  | .tenantRecordWrite w _ => Writer.wf w
  | .cmpChalreq _ => true
  | .cmpOpen _ => true
  | .cmpClose _ => true
  | .nonceExpiry _ _ port => decide (port < 65536)
  | .challengeHoldExpiry _ => true
  | .sessionIdleExpiry _ => true
  | .auditFlush => true
  | .meteringPeriodBoundary => true
  | .faultAcknowledge w _ => Writer.wf w
  | .testModeEnter w _ => Writer.wf w
  | .testModeLeave w _ => Writer.wf w
  | .faultForce w _ => Writer.wf w
  | .coreUnfence w _ _ _ => Writer.wf w
  | .audtoExpiry b _ => decide (b < 4)
  | .auditRequest w b _ => Writer.wf w && decide (b < 4)
  | .thermalModelUpdate d _ _ _ _ => decide (d < 8)
  | .riseCodeUpdate d => decide (d < 8)
  | .windowCodeUpdate d => decide (d < 8)
  | .winopenExpiry half => decide (half < 16)
  | .windowRequeueExpiry half => decide (half < 16)
  | .plateNodeUpdate _ _ _ _ => true
  | .hardTrip d sensor => decide (d < 8) && decide (sensor < 24)
  | .powerCapUpdate _ _ _ _ _ => true
  | .coolantAlarmExpiry => true
  | .cmpSolicit _ => true
  | .announceJitterExpiry _ port => decide (port < 65536)
  | .announcePeriodTick => true
  | .announceReceived _ => true
  | .partnerExpiry _ => true
  | .cmpRead _ => true
  | .cmpWrite _ _ _ => true
  | .fwbegin _ => true
  | .fwdata _ => true
  | .fwend _ => true
  | .fwcommit _ => true
  | .dadDone _ => true
  | .neighborSolicitation _ _ => true
  | .echoRequest _ _ => true
  | .plcaBeaconLoss => true
  | .mailboxGo _ _ _ => true
  | .doorbellSqtail _ q _ => decide (q < 262144)
  | .doorbellCqhead _ q _ => decide (q < 262144)
  | .doorbellOqhead _ q _ => decide (q < 262144)
  | .submissionFetch _ q _ => decide (q < 262144)
  | .ringset _ _ => true
  | .ringclr _ _ => true
  | .ringclrComplete q => decide (q < 262144)
  | .adminQueueRecordWrite w _ => Writer.wf w
  | .interruptTimerExpiry which q => decide (which < 3) && decide (q < 262144)
  | .msixUnmask _ => true
  | .hifEnable _ => true
  | .registerWrite _ _ _ _ _ _ _ => true
  | .dieWatchdogExpiry d => decide (d < 8)
  | .safeStateCoreStopTimeout d c => decide (d < 8) && decide (c < 72)
  | .hubHardwareFault => true
  | .internalFuseOpen => true
  | .inputReturnInRange _ => true
  | .plcaBeaconRegained => true
  | .dadRetryExpiry => true
  | .coreClockChangeDone d c => decide (d < 8) && decide (c < 72)
  | .manufactureCounterHourTick _ => true

end Sys2Proof
end

