-- ==== Sys2Proof/Config.lean ====
section
/-! DEFINITION. What the spec leaves open or leaves to a standard it names: constants with no body, so that nothing can be
proved of a value of one. A free value is applied to the state's free-value counter, so that each use is a fresh one (DESIGN CHOICE:
notes/assumptions/5.md, 6.md, 7.md, 8.md, 9.md). -/

namespace Sys2Proof.Config

/-- SHA-256 (FIPS 180-4), which R457 and R537 name. Uninterpreted. -/
opaque sha256 : List Byte → BitVec 256

/-- SHA-384 (FIPS 180-4), which R74, R346 and R461 name. Uninterpreted. -/
opaque sha384 : List Byte → BitVec 384

/-- Whether an ECDSA P-256 signature verifies (R457, R537): key, digest, signature. Uninterpreted. -/
opaque ecdsaP256 : List Byte → BitVec 256 → List Byte → Bool

/-- Whether an ECDSA P-384 signature verifies (R74, R280, R346): key, digest, signature. Uninterpreted. -/
opaque ecdsaP384 : List Byte → BitVec 384 → List Byte → Bool

/-- The signature that the hub's own P-384 key makes (R461): digest. Uninterpreted. -/
opaque auditSign : BitVec 384 → BitVec 768

/-- Whether a P-256 point lies on the curve (R456). Uninterpreted. -/
opaque onCurve : List Byte → Bool

/-- AES-256 of one block (R368). Uninterpreted. -/
opaque aes256 : List Byte → List Byte → BitVec 128

/-- AES-256-GCM opening (R351, R388): key, IV, additional data, ciphertext, tag. `none` where the tag does not verify. -/
opaque gcmOpen : List Byte → List Byte → List Byte → List Byte → List Byte → Option (List Byte)

/-- The position in the fabric plan of a module of a binding's placement (R354, R448): binding, module index. How it is known is not stated. -/
opaque placeModule : Nat → Nat → Nat

/-- AES-256-GCM sealing (R388): key, IV, additional data, plaintext; the ciphertext. Uninterpreted. -/
opaque gcmSeal : List Byte → List Byte → List Byte → List Byte → List Byte

/-- The 128-bit tag of an AES-256-GCM sealing (R388): key, IV, additional data, plaintext. Uninterpreted. -/
opaque gcmTag : List Byte → List Byte → List Byte → List Byte → BitVec 128

/-- AES key unwrapping (R350): wrapping key, wrapped key. `none` where the integrity check fails. -/
opaque keyUnwrap : List Byte → List Byte → Option (List Byte)

/-- The Cledin pattern key, whose digest is fused into the hub (R280, R354). -/
opaque patternKey : List Byte

/-- The minimum pattern security version that a firmware image carries (R280). -/
opaque minPsvn : List Byte → Nat

/-- The Cledin firmware key, whose digest is fused into the hub (R74, OD 0x1007). -/
opaque firmwareKey : List Byte

/-- The maker's public key, whose digest is fused into the hub (R456, OD 0xA012). -/
opaque makerKey : List Byte

/-- The hub's audit public key (R461, OD 0xA202). -/
opaque auditPublicKey : List Byte

/-- What an image's header holds beside its version byte (R74), whose layout the spec does not give: release number, security version,
release number of the housekeeping firmware. -/
opaque imageRelease : List Byte → Nat
/-- The security version of an image. -/
opaque imageSecver : List Byte → Nat
/-- The release number of the housekeeping firmware in an image. -/
opaque imageHousekeeping : List Byte → Nat

/-- What the PCIe link reports at a moment of hub time, by subindex of OD 0x1061: rate, width, payload and read request sizes (Table 24.15). -/
opaque pcieLink : Nat → Nat → Nat

/-- The errors that AER reports in a microsecond: correctable and uncorrectable (Table 24.15). -/
opaque aerErrors : Nat → Nat × Nat

/-- The identity values that manufacture fixes (Table 23.4), by entry key (index × 256 + subindex). -/
opaque identity : Nat → Nat

/-- The fuse map as OD 0xF000 shows it (R566). -/
opaque fuseMap : List Byte

/-- AES-256-XTS decryption (R271, R352): key, data-unit number, ciphertext block of 16 bytes, block index. -/
opaque xtsBlock : List Byte → Nat → List Byte → Nat → BitVec 128

/-- The hub's random source (R388, R457, R501): a fresh number at each use. -/
opaque random : Nat → Nat

/-- The deviation of a conversion's charge from the exact sum (R201–R203; Class A, R24): a fresh value at each use. -/
opaque analogError : Nat → Int

/-- Where the signature area of a step that another module leads lies (R500), as the die number and DRAM offset of a leaf (Table 13.4):
binding, step number. How the hubs agree on it is not stated. -/
opaque leadSigArea : Nat → Nat → Nat

/-- What the hub of another module tells of a step that an audit run here repeats (R502): virtual page, and the die number and DRAM offset
that it is to be mapped to, of the step's KV frames, input tokens and adapter sections: binding, step number. -/
opaque primaryLeaves : Nat → Nat → List (Nat × Nat × Nat)

/-- The width W of a model (R500), by the digest of its base image: no header field gives it. -/
opaque modelWidth : Nat → Nat

/-- The residue mismatches that enter tallies in a microsecond (R497): die, core, target entry, and whether the recomputation mismatches too. -/
opaque residueErrors : Nat → List (Nat × Nat × Nat × Bool)

/-- The parity errors that enter scratchpads in a microsecond (R250, R251): die, core, word, and how many re-reads of it fail. -/
opaque parityErrors : Nat → List (Nat × Nat × Nat × Nat)

/-- How many further writes of management flash will fail, from a microsecond of hub time on (R546, R556). -/
opaque flashErrors : Nat → Nat

/-- The errors that enter DRAM folios in a microsecond (R326): die, stack, stack folio, the bytes in error with what they differ by, and
how many reads meet them. -/
opaque folioErrors : Nat → List (Nat × Nat × Nat × List (Nat × Nat) × Nat)

/-- A value the spec does not state, as a number: a fresh one at each use. -/
opaque freeNat : Nat → Nat

/-- A value the spec does not state, as a 32-bit pattern: a fresh one at each use. -/
opaque freeWord : Nat → BitVec 32

/-- A value the spec does not state, as a signed number: a fresh one at each use. -/
opaque freeInt : Nat → Int

end Sys2Proof.Config
end

