-- ==== Sys2Proof/Machine/Operands.lean ====
section
/-! DEFINITION. The number formats of the arithmetic path and the conversions between them (spec/05_precision_ladder.md,
R130–R139), the input record of a loom command and its alignment (spec/04_loom.md, R102–R107), and the quantiser. Every
value is exact, as a whole number times a power of two, until a format rounds it. -/

namespace Sys2Proof.Machine

/-! ### Exact numbers -/

/-- An exact number `m × 2^e`. -/
structure Dy where
  m : Int
  e : Int
  deriving DecidableEq, Repr

/-- A number read from a format: finite with its sign, infinite, or not a number. -/
inductive Fp where
  | fin (neg : Bool) (m : Nat) (e : Int)
  | inf (neg : Bool)
  | nan
  deriving DecidableEq, Repr

/-- The zero. -/
def Dy.zero : Dy := ⟨0, 0⟩

/-- A signed significand from sign and magnitude. -/
def signed (neg : Bool) (m : Nat) : Int := if neg then -(m : Int) else m

/-- The exact number of a finite value; zero for the others. -/
def Fp.dy : Fp → Dy
  | .fin neg m e => ⟨signed neg m, e⟩
  | _ => .zero

/-- Whether a value is finite. -/
def Fp.isFin : Fp → Bool
  | .fin .. => true
  | _ => false

/-- The exact sum. -/
def Dy.add (a b : Dy) : Dy :=
  if a.e ≤ b.e then ⟨a.m + b.m * 2 ^ (b.e - a.e).toNat, a.e⟩ else ⟨a.m * 2 ^ (a.e - b.e).toNat + b.m, b.e⟩

/-- The exact product. -/
def Dy.mul (a b : Dy) : Dy := ⟨a.m * b.m, a.e + b.e⟩

/-- The negation. -/
def Dy.neg (a : Dy) : Dy := ⟨-a.m, a.e⟩

/-- The number times a power of two. -/
def Dy.scale (a : Dy) (k : Int) : Dy := ⟨a.m, a.e + k⟩

/-- The exact difference. -/
def Dy.sub (a b : Dy) : Dy := a.add b.neg

/-- Whether the first is below the second. -/
def Dy.lt (a b : Dy) : Bool := decide ((a.sub b).m < 0)

/-- Whether the first is at most the second. -/
def Dy.le (a b : Dy) : Bool := decide ((a.sub b).m ≤ 0)

/-- Whether two numbers are equal. -/
def Dy.eq (a b : Dy) : Bool := decide ((a.sub b).m = 0)

/-- The magnitude. -/
def Dy.abs (a : Dy) : Dy := ⟨a.m.natAbs, a.e⟩

/-- The whole number as an exact number. -/
def Dy.ofInt (i : Int) : Dy := ⟨i, 0⟩

/-- A dyadic number as a fraction. -/
def Dy.rat (a : Dy) : Rat := if a.e ≥ 0 then ((a.m * 2 ^ a.e.toNat : Int) : Rat) else (a.m : Rat) / ((2 ^ (-a.e).toNat : Nat) : Rat)

/-- The exact sum of a list. -/
def Dy.sum (l : List Dy) : Dy := l.foldl Dy.add .zero

/-- `m / 2^k` rounded to the nearest whole number, ties to even. -/
def rneShr (m k : Nat) : Nat :=
  if k = 0 then m
  else
    let q := m / 2 ^ k
    let r := m % 2 ^ k
    if r > 2 ^ (k - 1) ∨ (r = 2 ^ (k - 1) ∧ q % 2 = 1) then q + 1 else q

/-- The number rounded to the nearest whole number, ties to even. -/
def Dy.rne (a : Dy) : Int :=
  if a.e ≥ 0 then a.m * 2 ^ a.e.toNat
  else signed (a.m < 0) (rneShr a.m.natAbs (-a.e).toNat)

/-- The largest whole number at or below the number. -/
def Dy.floor (a : Dy) : Int :=
  if a.e ≥ 0 then a.m * 2 ^ a.e.toNat else a.m / 2 ^ (-a.e).toNat

/-- The smallest whole number at or above the number. -/
def Dy.ceil (a : Dy) : Int := -(a.neg.floor)

/-- `⌊log₂ |a|⌋` of a number that is not zero. -/
def Dy.log2 (a : Dy) : Int := (Nat.log2 a.m.natAbs : Int) + a.e

/-- A whole number limited to a range. -/
def clampInt (lo hi x : Int) : Int := max lo (min hi x)

/-- A field of `w` bits read as two's complement. -/
def sext (w x : Nat) : Int :=
  let y := x % 2 ^ w
  if y ≥ 2 ^ (w - 1) then (y : Int) - 2 ^ w else y

/-- A whole number written as two's complement in `w` bits. -/
def toTwos (w : Nat) (x : Int) : Nat := (x % (2 ^ w : Int)).toNat

/-! ### Formats (Table 5.1) -/

/-- A binary floating format: fraction bits, exponent bias, the bits of its largest finite magnitude, what a finite
overflow writes, what an infinity writes, what a NaN writes, and the place of the sign. -/
structure FpFmt where
  frac : Nat
  bias : Nat
  maxFin : Nat
  ovf : Nat
  inf : Nat
  nan : Nat
  sign : Nat
  deriving DecidableEq, Repr

/-- FP32, overflowing to infinity. (DEDUCED: notes/assumptions/10.md.) -/
def fmt32 : FpFmt := ⟨23, 127, 0x7F7FFFFF, 0x7F800000, 0x7F800000, 0x7FC00000, 31⟩
/-- BF16 (Table 5.6: finite overflow gives infinity, NaN becomes 0x7FC0). (DEDUCED: notes/assumptions/10.md.) -/
def fmtBf16 : FpFmt := ⟨7, 127, 0x7F7F, 0x7F80, 0x7F80, 0x7FC0, 15⟩
/-- E4M3 (Table 5.6: finite overflow gives 448; NaN and infinity become 0x7F). -/
def fmtE4m3 : FpFmt := ⟨3, 7, 0x7E, 0x7E, 0xFF, 0x7F, 7⟩
/-- E5M2 (Table 5.6: finite overflow gives 57,344; infinity is kept; NaN becomes 0x7F). -/
def fmtE5m2 : FpFmt := ⟨2, 15, 0x7B, 0x7B, 0x7C, 0x7F, 7⟩

/-- A finite magnitude rounded to nearest, ties to even, into a format's bits without the sign; above the largest finite
magnitude, what the format's overflow writes. Subnormals are kept. -/
def FpFmt.round (f : FpFmt) (m : Nat) (e : Int) : Nat :=
  if m = 0 then 0
  else
    let q : Int := max ((Nat.log2 m : Int) + e - f.frac) (1 - f.bias - f.frac)
    let sh := q - e
    let m' := if sh > 0 then rneShr m sh.toNat else m * 2 ^ (-sh).toNat
    let bits := (q + f.bias + f.frac - 1).toNat * 2 ^ f.frac + m'
    if bits > f.maxFin then f.ovf else bits

/-- A value written in a format (Table 5.6). -/
def FpFmt.write (f : FpFmt) : Fp → Nat
  | .nan => f.nan
  | .inf neg => if f.inf = 0xFF then f.nan else f.inf + (if neg then 2 ^ f.sign else 0)
  | .fin neg m e => f.round m e + (if neg then 2 ^ f.sign else 0)

/-- An exact number rounded into a format; the zero is written positive. -/
def FpFmt.writeDy (f : FpFmt) (a : Dy) : Nat :=
  f.write (.fin (decide (a.m < 0)) a.m.natAbs a.e)

/-- Bits of an IEEE layout read as a value; `eb` exponent bits. -/
def readIeee (eb frac bias : Nat) (x : Nat) : Fp :=
  let neg := natBit x (eb + frac)
  let ex := natBits x frac eb
  let fr := natBits x 0 frac
  if ex = 0 then .fin neg fr (1 - (bias : Int) - frac)
  else if ex = 2 ^ eb - 1 then (if fr = 0 then .inf neg else .nan)
  else .fin neg (2 ^ frac + fr) ((ex : Int) - bias - frac)

/-- FP32 bits. -/
def read32 (x : Nat) : Fp := readIeee 8 23 127 x
/-- BF16 bits. -/
def readBf16 (x : Nat) : Fp := readIeee 8 7 127 x
/-- E5M2 bits (Table 5.3). -/
def readE5m2 (x : Nat) : Fp := readIeee 5 2 15 x
/-- E4M3 bits (Table 5.3: no infinity, S.1111.111 is the NaN). -/
def readE4m3 (x : Nat) : Fp :=
  let neg := natBit x 7
  let ex := natBits x 3 4
  let fr := natBits x 0 3
  if ex = 15 ∧ fr = 7 then .nan
  else if ex = 0 then .fin neg fr (-9)
  else .fin neg (8 + fr) ((ex : Int) - 10)

/-- Twice the magnitude of an E2M1 code (Table 5.2). -/
def e2m1Mag2 (c : Nat) : Nat :=
  match c % 8 with
  | 0 => 0 | 1 => 1 | 2 => 2 | 3 => 3 | 4 => 4 | 5 => 6 | 6 => 8 | _ => 12

/-- Twice the value of an E2M1 code; negative zero reads as zero (R131). -/
def e2m1Val2 (c : Nat) : Int := signed (natBit c 3) (e2m1Mag2 c)

/-- An E8M0 scale as an exact power of two; `none` for the NaN 0xFF. -/
def e8m0 (x : Nat) : Option Dy := if x = 0xFF then none else some ⟨1, (x : Int) - 127⟩

/-- FP32 to BF16, E4M3 and E5M2 and back (Table 5.6). -/
def f32ToBf16 (x : Nat) : Nat := fmtBf16.write (read32 x)

/-- BF16 to FP32: exact, NaN quietened (Table 5.6). -/
def bf16To32 (x : Nat) : Nat := fmt32.write (readBf16 x)

/-! ### FP32 arithmetic of the vector and attention engines: each result is the exact one, rounded once -/

/-- The FP32 sum. (DEDUCED: notes/assumptions/10.md.) -/
def f32Add (a b : Nat) : Nat :=
  match read32 a, read32 b with
  | .nan, _ | _, .nan => fmt32.nan
  | .inf s, .inf t => if s = t then fmt32.write (.inf s) else fmt32.nan
  | .inf s, _ => fmt32.write (.inf s)
  | _, .inf t => fmt32.write (.inf t)
  | .fin s m e, .fin t n f =>
    let r := (Dy.mk (signed s m) e).add ⟨signed t n, f⟩
    if r.m = 0 then (if s && t then 0x80000000 else 0) else fmt32.writeDy r

/-- The FP32 product. -/
def f32Mul (a b : Nat) : Nat :=
  match read32 a, read32 b with
  | .nan, _ | _, .nan => fmt32.nan
  | .inf s, .inf t => fmt32.write (.inf (s != t))
  | .inf s, .fin t n _ => if n = 0 then fmt32.nan else fmt32.write (.inf (s != t))
  | .fin s m _, .inf t => if m = 0 then fmt32.nan else fmt32.write (.inf (s != t))
  | .fin s m e, .fin t n f => fmt32.write (.fin (s != t) (m * n) (e + f))

/-- A quotient of magnitudes to `p` bits and a sticky bit, so that one rounding to a format below `p` bits is exact. -/
def divSticky (m n p : Nat) : Nat × Int :=
  let k := p + Nat.log2 n + 1 - Nat.log2 m
  let q := m * 2 ^ k / n
  let r := m * 2 ^ k % n
  (2 * q + (if r = 0 then 0 else 1), -(k : Int) - 1)

/-- A rational number rounded to FP32. -/
def ratF32 (q : Rat) : Nat :=
  if q = 0 then 0
  else
    let (m, k) := divSticky q.num.natAbs q.den 60
    fmt32.write (.fin (decide (q < 0)) m k)

/-- The FP32 quotient. -/
def f32Div (a b : Nat) : Nat :=
  match read32 a, read32 b with
  | .nan, _ | _, .nan => fmt32.nan
  | .inf _, .inf _ => fmt32.nan
  | .inf s, .fin t _ _ => fmt32.write (.inf (s != t))
  | .fin s _ _, .inf t => if s != t then 0x80000000 else 0
  | .fin s m e, .fin t n f =>
    if n = 0 then (if m = 0 then fmt32.nan else fmt32.write (.inf (s != t)))
    else if m = 0 then (if s != t then 0x80000000 else 0)
    else
      let (q, k) := divSticky m n 60
      fmt32.write (.fin (s != t) q (e - f + k))

/-- FP32 order: below, with NaN unordered. -/
def f32Lt (a b : Nat) : Bool :=
  match read32 a, read32 b with
  | .nan, _ | _, .nan => false
  | .inf s, .inf t => s && !t
  | .inf s, _ => s
  | _, .inf t => !t
  | x, y => x.dy.lt y.dy

/-- FP32 equality, with NaN equal to nothing and the zeros equal. -/
def f32Eq (a b : Nat) : Bool :=
  match read32 a, read32 b with
  | .nan, _ | _, .nan => false
  | .inf s, .inf t => s == t
  | .inf _, _ | _, .inf _ => false
  | x, y => x.dy.eq y.dy

/-- Whether FP32 bits are finite. -/
def f32Fin (a : Nat) : Bool := (read32 a).isFin

/-- The exact number of FP32 bits (zero for a value that is not finite). -/
def f32Dy (a : Nat) : Dy := (read32 a).dy

/-- An exact number as FP32. -/
def dyF32 (a : Dy) : Nat := fmt32.writeDy a

/-! ### Quantising activations (R134–R136) -/

/-- The class of a block (Table 5.4). -/
inductive BlockClass where
  | nonFinite | zero | flushed | clamped | normal
  deriving DecidableEq, Repr

/-- A source value times 2^PRE: a value that overflows FP32 becomes infinite (R134). -/
def prescale (pre : Int) (x : Nat) : Fp :=
  match read32 x with
  | .fin s m e =>
    if (Dy.mk (m : Int) (e + pre)).le ⟨2 ^ 24 - 1, 104⟩ then .fin s m (e + pre) else .inf s
  | y => y

/-- The largest magnitude of a block. -/
def amax (l : List Fp) : Dy :=
  l.foldl (fun a x => if a.lt x.dy.abs then x.dy.abs else a) .zero

/-- The class of a block of pre-scaled values. -/
def blockClass (l : List Fp) : BlockClass :=
  if l.any (fun x => !x.isFin) then .nonFinite
  else
    let a := amax l
    if a.m = 0 then .zero
    else if a.log2 < -121 then .flushed
    else if a.log2 > 129 then .clamped
    else .normal

/-- The P4 scale byte of a block. -/
def p4Scale (l : List Fp) : Nat :=
  match blockClass l with
  | .nonFinite => 0xFF
  | .zero | .flushed => 0
  | .clamped => 0xFE
  | .normal => ((amax l).log2 - 2 + 127).toNat

/-- The P8 scale byte of a block. -/
def p8Scale (l : List Fp) : Nat :=
  match blockClass l with
  | .nonFinite => 0xFF
  | .zero | .flushed => 0
  | .clamped => 0xFE
  | .normal => ((amax l).log2 - 6 + 127).toNat

/-- A magnitude rounded to the nearest E2M1 value, ties to the value whose M bit is 0, above 6 limited to 6 (R135).
The argument is the magnitude in eighths of the code unit with sticky information exact. -/
def e2m1Round (x : Dy) : Nat :=
  let t (k : Int) : Dy := ⟨k, -2⟩
  if x.le (t 1) then 0
  else if x.lt (t 3) then 1
  else if x.le (t 5) then 2
  else if x.lt (t 7) then 3
  else if x.le (t 10) then 4
  else if x.lt (t 14) then 5
  else if x.le (t 20) then 6
  else 7

/-- The P4 code of one pre-scaled element (four bits). -/
def p4Code (cls : BlockClass) (scale : Nat) (e2m1 : Bool) (x : Fp) : Nat :=
  match cls with
  | .normal =>
    let y := x.dy.scale (127 - (scale : Int))
    if e2m1 then
      let k := e2m1Round y.abs
      if k = 0 then 0 else k + (if y.m < 0 then 8 else 0)
    else toTwos 4 (clampInt (-8) 7 y.rne)
  | .clamped =>
    if x.dy.m = 0 then 0
    else if e2m1 then (if x.dy.m < 0 then 15 else 7)
    else (if x.dy.m < 0 then 8 else 7)
  | _ => 0

/-- The P8 code of one pre-scaled element (eight bits). -/
def p8Code (cls : BlockClass) (scale : Nat) (x : Fp) : Nat :=
  match cls with
  | .normal => toTwos 8 (clampInt (-128) 127 (x.dy.scale (127 - (scale : Int))).rne)
  | .clamped => if x.dy.m = 0 then 0 else if x.dy.m < 0 then 128 else 127
  | _ => 0

/-- The first `n` little-endian numbers of `k` bytes each in a list. -/
def leChunks (k : Nat) : Nat → List Byte → List Nat
  | 0, _ => []
  | n + 1, l => leNat (l.take k) :: leChunks k n (l.drop k)

/-- A list cut into blocks of 32, at most `n` of them. -/
def blocksOf {α : Type} : Nat → List α → List (List α)
  | 0, _ => []
  | n + 1, l => l.take 32 :: blocksOf n (l.drop 32)

/-- Two four-bit codes to a byte, the even one low (Table 4.3). -/
def packNibbles : List Nat → List Byte
  | a :: b :: t => BitVec.ofNat 8 (a % 16 + 16 * (b % 16)) :: packNibbles t
  | [a] => [BitVec.ofNat 8 (a % 16)]
  | [] => []

/-- The P4 record of a vector of 512 FP32 sources (Table 4.3): 16 scale bytes, then 256 bytes of codes. -/
def p4Record (pre : Int) (e2m1 : Bool) (src : List Nat) : List Byte :=
  let bl := blocksOf 16 (src.map (prescale pre))
  bl.map (fun b => BitVec.ofNat 8 (p4Scale b)) ++
    packNibbles (bl.flatMap fun b => b.map (p4Code (blockClass b) (p4Scale b) e2m1))

/-- The P8 record of a vector of 512 FP32 sources (Table 4.3). -/
def p8Record (pre : Int) (src : List Nat) : List Byte :=
  let bl := blocksOf 16 (src.map (prescale pre))
  bl.map (fun b => BitVec.ofNat 8 (p8Scale b)) ++
    bl.flatMap fun b => b.map fun x => BitVec.ofNat 8 (p8Code (blockClass b) (p8Scale b) x)

/-- The blocks of a vector that are in a class, as a mask. -/
def classMask (pre : Int) (c : BlockClass) (src : List Nat) : Nat :=
  ((blocksOf 16 (src.map (prescale pre))).zipIdx.foldl
    (fun a p => if blockClass p.1 = c then a + 2 ^ p.2 else a) 0)

/-- The non-zero source values in flushed blocks (Table 5.5, FLUSH). -/
def flushCount (pre : Int) (src : List Nat) : Nat :=
  ((blocksOf 16 (src.map (prescale pre))).map
    (fun b => if blockClass b = .flushed then (b.filter fun x => decide (x.dy.m ≠ 0)).length else 0)).sum

/-! ### Driving an input record (R102–R107) -/

/-- One row as it is driven: signed pulse count in units of 2^−7 of a full pulse (attenuation applied), and whether the
input was rounded to zero. -/
structure Drive where
  w : Int
  rtz : Bool
  deriving DecidableEq, Repr

/-- The signed pulse count of an INT4 or balanced-nibble code: polarity times |a| (R103). -/
def int4Pulses (a : Int) : Int := a

/-- The P4 input of row `i` of a record: its signed pulse count (R102, R103). -/
def p4Input (rec : List Byte) (e2m1 : Bool) (i : Nat) : Int :=
  let b := leAt rec (16 + i / 2) 1
  let c := if i % 2 = 0 then b % 16 else b / 16
  if e2m1 then e2m1Val2 c else sext 4 c

/-- The low nibble of a P8 input (R103). -/
def p8Low (a : Int) : Int := (a + 8) % 16 - 8

/-- The high nibble of a P8 input (R103). -/
def p8High (a : Int) : Int := (a - p8Low a) / 16

/-- The P8 input of row `i` of a record. -/
def p8Input (rec : List Byte) (i : Nat) : Int := sext 8 (leAt rec (16 + i) 1)

/-- The scale byte of the block of row `i`. -/
def blockScale (rec : List Byte) (b : Nat) : Nat := leAt rec b 1

/-- The tile exponent: the largest scale among the blocks with a non-zero code; `none` where there is no such block
(R104, R105, R116). -/
def tileExp (rec : List Byte) (code : Nat → Int) : Option Nat :=
  (List.range 16).foldl (fun a b =>
    if (List.range 32).any (fun i => code (32 * b + i) != 0) then
      match a with
      | none => some (blockScale rec b)
      | some x => some (max x (blockScale rec b))
    else a) none

/-- A row's pulses after alignment, in units of 2^−7 pulse (R104): offsets up to 7 attenuate, larger ones divide the count
with rounding, ties to even. -/
def alignRow (d : Nat) (p : Int) : Drive :=
  if d ≤ 7 then ⟨p * 2 ^ (7 - d), false⟩
  else
    let q := rneShr p.natAbs (d - 7)
    ⟨signed (p < 0) q, p != 0 && q == 0⟩

/-- The 512 rows of a record as driven for one activation phase. -/
def driveRows (rec : List Byte) (et : Nat) (code : Nat → Int) : List Drive :=
  (List.range 512).map fun i => alignRow (et - blockScale rec (i / 32)) (code i)

/-- The pulse weight of a set of rows in units of 2^−7 (R106). -/
def pulseWeight (rows : List Drive) : Nat := (rows.map fun r => r.w.natAbs).sum

/-- The row budget of 3,072 in units of 2^−7 (R106). -/
def rowBudget : Nat := 3072 * 128

/-- The rows that the passes of one phase drive: one pass, or two half-passes when the pulse weight exceeds the budget
(R107). Each pass is a first row and a count. -/
def passesOf (rows : List Drive) : List (Nat × Nat) :=
  if pulseWeight rows > rowBudget then [(0, 256), (256, 256)] else [(0, 512)]

/-- A conversion: the sum in units of 2^−7 product unit, with the deviation added, divided by 2^g, rounded to nearest even
and limited to ten bits (R109). (DEDUCED: notes/assumptions/6.md.) -/
def adcCode (sum dev : Int) (g : Nat) : Int :=
  clampInt (-512) 511 (Dy.mk (sum + dev) (-7 - (g : Int))).rne

/-- Whether a code is clipped (R111). -/
def isClipped (c : Int) : Bool := c == -512 || c == 511

end Sys2Proof.Machine
end

