-- ==== Sys2Proof/Machine/OdMap.lean ====
section
/-! DEFINITION. Every entry of the object dictionary, one line an entry (or a run of per-die indices, or of array elements),
as the dictionary tables of spec/ give it (Tables 2.14, 3.9, 4.17, 5.14, 6.11, 7.10, 8.8, 9.11, 10.14, 11.9, 12.8, 13.11,
14.13, 15.15, 16.9, 17.11, 18.8, 19.10, 20.12, 21.10, 22.5, 23.4, 23.5, 23.6, 23.8, 24.15; R565): index, run of indices,
subindex, run of subindices, type (Table 0.4), access of operator, installer and maker, default, numeric ranges, blob length
(least, greatest, whole multiples of), kind, mailbox only, counter. -/

namespace Sys2Proof.Machine

/-- Dictionary entries, part 0. -/
def odMap0 : List OdEnt :=
  [⟨0x1000, 1, 0, 1, .u32, .ro, .ro, .ro, 0x4c080768, [], (0, 0, 1), .plain, false, false⟩,
   ⟨0x1001, 1, 0, 1, .blob, .ro, .ro, .ro, 0x0, [], (0, 4294967295, 1), .measured, false, false⟩,
   ⟨0x1002, 1, 0, 1, .u8, .ro, .ro, .ro, 0x10, [], (0, 0, 1), .plain, false, false⟩,
   ⟨0x1003, 1, 1, 1, .u32, .ro, .ro, .ro, 0x0, [], (0, 0, 1), .measured, false, false⟩,
   ⟨0x1003, 1, 2, 1, .u32, .ro, .ro, .ro, 0x0, [], (0, 0, 1), .measured, false, false⟩,
   ⟨0x1003, 1, 3, 1, .u16, .ro, .ro, .ro, 0x0, [], (0, 0, 1), .measured, false, false⟩,
   ⟨0x1004, 1, 1, 1, .u16, .ro, .ro, .ro, 0x0, [], (0, 0, 1), .measured, false, false⟩,
   ⟨0x1004, 1, 2, 1, .u8, .ro, .ro, .ro, 0x0, [], (0, 0, 1), .measured, false, false⟩,
   ⟨0x1004, 1, 3, 1, .u8, .ro, .ro, .ro, 0x0, [], (0, 0, 1), .measured, false, false⟩,
   ⟨0x1005, 1, 0, 1, .u32, .ro, .ro, .ro, 0x0, [], (0, 0, 1), .measured, false, false⟩,
   ⟨0x1006, 1, 0, 1, .u32, .ro, .ro, .ro, 0x0, [], (0, 0, 1), .mfg, false, true⟩,
   ⟨0x1007, 1, 1, 1, .blob, .ro, .ro, .ro, 0x0, [], (48, 48, 1), .measured, false, false⟩,
   ⟨0x1007, 1, 2, 1, .blob, .ro, .ro, .ro, 0x0, [], (48, 48, 1), .measured, false, false⟩,
   ⟨0x1008, 1, 0, 1, .u8, .ro, .ro, .ro, 0x1, [], (0, 0, 1), .plain, false, false⟩,
   ⟨0x1009, 1, 0, 1, .str, .ro, .ro, .ro, 0x0, [], (11, 11, 1), .measured, false, false⟩,
   ⟨0x100A, 1, 0, 1, .str, .ro, .ro, .ro, 0x0, [], (16, 16, 1), .measured, false, false⟩]

/-- Dictionary entries, part 1. -/
def odMap1 : List OdEnt :=
  [⟨0x100B, 1, 0, 1, .u64, .ro, .ro, .ro, 0x0, [], (0, 0, 1), .measured, false, false⟩,
   ⟨0x100C, 1, 0, 1, .u8, .ro, .ro, .ro, 0x1, [], (0, 0, 1), .plain, false, false⟩,
   ⟨0x1020, 1, 0, 1, .u64, .ro, .ro, .ro, 0x0, [(0, 0xffffffffffff)], (0, 0, 1), .measured, false, false⟩,
   ⟨0x1021, 1, 0, 1, .bool, .ro, .rw, .rw, 0x0, [(0, 1)], (0, 0, 1), .plain, false, false⟩,
   ⟨0x1022, 1, 0, 1, .bool, .ro, .rw, .rw, 0x0, [(0, 1)], (0, 0, 1), .plain, false, false⟩,
   ⟨0x1023, 1, 0, 1, .u8, .ro, .rw, .rw, 0xff, [(0, 0xff)], (0, 0, 1), .plain, false, false⟩,
   ⟨0x1024, 1, 0, 1, .u8, .ro, .rw, .rw, 0x8, [(1, 0xff)], (0, 0, 1), .plain, false, false⟩,
   ⟨0x1025, 1, 0, 1, .u8, .ro, .rw, .rw, 0x20, [(1, 0xff)], (0, 0, 1), .plain, false, false⟩,
   ⟨0x1026, 1, 0, 1, .u8, .ro, .rw, .rw, 0x0, [(0, 0xff)], (0, 0, 1), .plain, false, false⟩,
   ⟨0x1027, 1, 0, 1, .u8, .ro, .rw, .rw, 0x80, [(0, 0xff)], (0, 0, 1), .plain, false, false⟩,
   ⟨0x1028, 1, 0, 1, .bool, .ro, .ro, .ro, 0x0, [(0, 1)], (0, 0, 1), .plain, false, false⟩,
   ⟨0x1029, 1, 0, 1, .blob, .ro, .ro, .ro, 0x0, [], (16, 16, 1), .measured, false, false⟩,
   ⟨0x102A, 1, 0, 1, .bool, .ro, .rw, .rw, 0x1, [(0, 1)], (0, 0, 1), .plain, false, false⟩,
   ⟨0x102B, 1, 0, 1, .u32, .ro, .rw, .rw, 0x2710, [(0x3e8, 0xea60)], (0, 0, 1), .plain, false, false⟩,
   ⟨0x102C, 1, 0, 1, .u16, .ro, .rw, .rw, 0x64, [(0, 0x3e8)], (0, 0, 1), .plain, false, false⟩,
   ⟨0x1030, 1, 1, 1, .u8, .rw, .rw, .rw, 0x0, [(0, 0x1f)], (0, 0, 1), .plain, false, false⟩]

/-- Dictionary entries, part 2. -/
def odMap2 : List OdEnt :=
  [⟨0x1030, 1, 2, 1, .blob, .ro, .ro, .ro, 0x0, [], (96, 96, 1), .measured, false, false⟩,
   ⟨0x1031, 1, 0, 1, .u8, .ro, .ro, .ro, 0x0, [(0, 0x20)], (0, 0, 1), .plain, false, false⟩,
   ⟨0x1040, 1, 1, 1, .u64, .ro, .ro, .ro, 0x0, [], (0, 0, 1), .plain, false, true⟩,
   ⟨0x1040, 1, 2, 1, .u64, .ro, .ro, .ro, 0x0, [], (0, 0, 1), .plain, false, true⟩,
   ⟨0x1040, 1, 3, 1, .u64, .ro, .ro, .ro, 0x0, [], (0, 0, 1), .plain, false, true⟩,
   ⟨0x1040, 1, 4, 1, .u32, .ro, .ro, .ro, 0x0, [], (0, 0, 1), .plain, false, true⟩,
   ⟨0x1040, 1, 5, 1, .u32, .ro, .ro, .ro, 0x0, [], (0, 0, 1), .plain, false, true⟩,
   ⟨0x1050, 1, 1, 1, .u8, .ro, .ro, .ro, 0x0, [], (0, 0, 1), .measured, false, false⟩,
   ⟨0x1050, 1, 2, 1, .u32, .ro, .ro, .ro, 0x0, [], (0, 0, 1), .measured, false, false⟩,
   ⟨0x1050, 1, 3, 1, .u8, .ro, .ro, .ro, 0x0, [(0, 0x3f)], (0, 0, 1), .measured, false, false⟩,
   ⟨0x1050, 1, 4, 1, .u8, .ro, .ro, .ro, 0x0, [], (0, 0, 1), .measured, false, false⟩,
   ⟨0x1050, 1, 5, 1, .u32, .ro, .ro, .ro, 0x0, [], (0, 0, 1), .measured, false, false⟩,
   ⟨0x1050, 1, 6, 1, .u8, .ro, .ro, .ro, 0x0, [], (0, 0, 1), .measured, false, false⟩,
   ⟨0x1050, 1, 7, 1, .u8, .ro, .ro, .ro, 0x0, [(0, 0x3f)], (0, 0, 1), .measured, false, false⟩,
   ⟨0x1060, 1, 1, 1, .u8, .rw, .rw, .rw, 0x0, [(0, 0xf)], (0, 0, 1), .plain, true, false⟩,
   ⟨0x1060, 1, 2, 1, .blob, .rw, .rw, .rw, 0x0, [], (64, 64, 1), .plain, true, false⟩]

/-- Dictionary entries, part 3. -/
def odMap3 : List OdEnt :=
  [⟨0x1061, 1, 1, 1, .u8, .ro, .ro, .ro, 0x0, [(1, 5)], (0, 0, 1), .measured, false, false⟩,
   ⟨0x1061, 1, 2, 1, .u8, .ro, .ro, .ro, 0x0, [], (0, 0, 1), .measured, false, false⟩,
   ⟨0x1061, 1, 3, 1, .u16, .ro, .ro, .ro, 0x0, [(0x80, 0x200)], (0, 0, 1), .measured, false, false⟩,
   ⟨0x1061, 1, 4, 1, .u16, .ro, .ro, .ro, 0x0, [(0x80, 0x1000)], (0, 0, 1), .measured, false, false⟩,
   ⟨0x1061, 1, 5, 1, .u16, .ro, .ro, .ro, 0x0, [(0, 0x800)], (0, 0, 1), .plain, false, false⟩,
   ⟨0x1061, 1, 6, 1, .u32, .ro, .ro, .ro, 0x0, [], (0, 0, 1), .plain, false, true⟩,
   ⟨0x1061, 1, 7, 1, .u32, .ro, .ro, .ro, 0x0, [], (0, 0, 1), .plain, false, true⟩,
   ⟨0x1061, 1, 8, 1, .u32, .ro, .ro, .ro, 0x0, [], (0, 0, 1), .plain, false, true⟩,
   ⟨0x1061, 1, 9, 1, .u64, .ro, .ro, .ro, 0x0, [], (0, 0, 1), .plain, false, true⟩,
   ⟨0x1061, 1, 10, 1, .u64, .ro, .ro, .ro, 0x0, [], (0, 0, 1), .plain, false, true⟩,
   ⟨0x1062, 1, 0, 1, .u32, .ro, .ro, .ro, 0x0, [(0, 0x40000)], (0, 0, 1), .plain, false, false⟩,
   ⟨0x2010, 1, 0, 1, .f32, .ro, .ro, .ro, 0x0, [(0, 0x447ff000)], (0, 0, 1), .measured, false, false⟩,
   ⟨0x2011, 1, 0, 1, .f32, .ro, .ro, .ro, 0x0, [(0, 0x40233333)], (0, 0, 1), .measured, false, false⟩,
   ⟨0x2012, 1, 0, 1, .f32, .ro, .ro, .ro, 0x0, [(0, 0x45228000)], (0, 0, 1), .measured, false, false⟩,
   ⟨0x2013, 1, 0, 1, .u8, .ro, .ro, .ro, 0x0, [(0, 6)], (0, 0, 1), .plain, false, false⟩,
   ⟨0x2030, 1, 0, 1, .f32, .ro, .rw, .rw, 0x40200000, [(0x401fae14, 0x402051ec)], (0, 0, 1), .plain, false, false⟩]

/-- Dictionary entries, part 4. -/
def odMap4 : List OdEnt :=
  [⟨0x2031, 1, 0, 1, .f32, .ro, .ro, .ro, 0x0, [(0, 0x40400000)], (0, 0, 1), .measured, false, false⟩,
   ⟨0x2040, 1, 0, 1, .u16, .none, .wo, .wo, 0x0, [(0xa5c3, 0xa5c3)], (0, 0, 1), .measured, false, false⟩,
   ⟨0x2042, 1, 0, 1, .u8, .ro, .rw, .rw, 0x0, [(0, 1)], (0, 0, 1), .plain, false, false⟩,
   ⟨0x2043, 1, 0, 1, .u32, .ro, .ro, .ro, 0x0, [(0, 0x1d4c0)], (0, 0, 1), .measured, false, false⟩,
   ⟨0x2044, 1, 0, 1, .u32, .ro, .ro, .ro, 0x0, [], (0, 0, 1), .mfg, false, true⟩,
   ⟨0x2045, 1, 0, 1, .bool, .ro, .rw, .rw, 0x0, [(0, 1)], (0, 0, 1), .plain, false, false⟩,
   ⟨0x2050, 1, 0, 1, .f32, .ro, .rw, .rw, 0x44548000, [(0x43c80000, 0x44548000)], (0, 0, 1), .plain, false, false⟩,
   ⟨0x2051, 1, 0, 1, .f32, .ro, .ro, .ro, 0x447a0000, [], (0, 0, 1), .plain, false, false⟩,
   ⟨0x2052, 1, 0, 1, .u8, .ro, .ro, .ro, 0x18, [(0, 0x20)], (0, 0, 1), .plain, false, false⟩,
   ⟨0x2053, 1, 0, 1, .u64, .ro, .ro, .ro, 0x0, [], (0, 0, 1), .plain, false, true⟩,
   ⟨0x2054, 1, 0, 1, .u64, .ro, .ro, .ro, 0x0, [], (0, 0, 1), .plain, false, true⟩,
   ⟨0x3000, 8, 1, 1, .u8, .ro, .ro, .ro, 0x1, [(1, 5)], (0, 0, 1), .plain, false, false⟩,
   ⟨0x3000, 8, 2, 1, .u8, .ro, .ro, .ro, 0x0, [], (0, 0, 1), .measured, false, false⟩,
   ⟨0x3000, 8, 3, 1, .u8, .ro, .ro, .ro, 0x0, [], (0, 0, 1), .measured, false, false⟩,
   ⟨0x3000, 8, 4, 1, .u32, .ro, .ro, .ro, 0x0, [], (0, 0, 1), .plain, false, true⟩,
   ⟨0x3000, 8, 5, 1, .u64, .ro, .ro, .ro, 0x0, [], (0, 0, 1), .plain, false, false⟩]

/-- Dictionary entries, part 5. -/
def odMap5 : List OdEnt :=
  [⟨0x3010, 8, 0, 1, .u16, .none, .wo, .wo, 0x0, [(0xa5c3, 0xa5c3)], (0, 0, 1), .measured, false, false⟩,
   ⟨0x3020, 1, 0, 1, .u32, .ro, .rw, .rw, 0x1388, [(0x64, 0x186a0)], (0, 0, 1), .plain, false, false⟩,
   ⟨0x3021, 1, 0, 1, .u8, .ro, .rw, .rw, 0x2, [(1, 3)], (0, 0, 1), .plain, false, false⟩,
   ⟨0x3030, 8, 1, 1, .u64, .ro, .ro, .ro, 0x0, [], (0, 0, 1), .plain, false, true⟩,
   ⟨0x3030, 8, 2, 1, .u32, .ro, .ro, .ro, 0x0, [], (0, 0, 1), .plain, false, true⟩,
   ⟨0x3030, 8, 3, 1, .u32, .ro, .ro, .ro, 0x0, [], (0, 0, 1), .plain, false, true⟩,
   ⟨0x3030, 8, 4, 1, .u32, .ro, .ro, .ro, 0x0, [], (0, 0, 1), .plain, false, true⟩,
   ⟨0x3040, 1, 0, 1, .bool, .ro, .rw, .rw, 0x0, [(0, 1)], (0, 0, 1), .plain, false, false⟩,
   ⟨0x3041, 1, 0, 1, .u32, .ro, .rw, .rw, 0x3e8, [(0xa, 0x186a0)], (0, 0, 1), .plain, false, false⟩,
   ⟨0x3050, 8, 1, 1, .u64, .ro, .ro, .ro, 0x0, [], (0, 0, 1), .plain, false, true⟩,
   ⟨0x3050, 8, 2, 1, .u32, .ro, .ro, .ro, 0x0, [], (0, 0, 1), .plain, false, true⟩,
   ⟨0x3050, 8, 3, 1, .u32, .ro, .ro, .ro, 0x0, [], (0, 0, 1), .plain, false, true⟩,
   ⟨0x3050, 8, 4, 1, .u32, .ro, .ro, .ro, 0x0, [], (0, 0, 1), .plain, false, true⟩,
   ⟨0x3060, 1, 0, 1, .u32, .ro, .ro, .ro, 0x0, [], (0, 0, 1), .plain, false, true⟩,
   ⟨0x3061, 1, 0, 1, .u32, .ro, .ro, .ro, 0x0, [], (0, 0, 1), .plain, false, true⟩,
   ⟨0x3062, 1, 0, 1, .u8, .ro, .ro, .ro, 0x0, [], (0, 0, 1), .plain, false, false⟩]

/-- Dictionary entries, part 6. -/
def odMap6 : List OdEnt :=
  [⟨0x3070, 8, 1, 1, .f32, .ro, .ro, .ro, 0x0, [(0x3ecccccd, 0x3f99999a)], (0, 0, 1), .measured, false, false⟩,
   ⟨0x3070, 8, 2, 1, .f32, .ro, .ro, .ro, 0x0, [(0x3ecccccd, 0x3f99999a)], (0, 0, 1), .measured, false, false⟩,
   ⟨0x3070, 8, 3, 1, .u64, .ro, .ro, .ro, 0x0, [], (0, 0, 1), .plain, false, true⟩,
   ⟨0x3070, 8, 4, 1, .u64, .ro, .ro, .ro, 0x0, [], (0, 0, 1), .plain, false, true⟩,
   ⟨0x3070, 8, 5, 1, .u64, .ro, .ro, .ro, 0x0, [], (0, 0, 1), .plain, false, true⟩,
   ⟨0x3070, 8, 6, 1, .u8, .ro, .ro, .ro, 0x0, [(0, 0x48)], (0, 0, 1), .plain, false, false⟩,
   ⟨0x3070, 8, 7, 1, .u32, .ro, .ro, .ro, 0x0, [], (0, 0, 1), .plain, false, true⟩,
   ⟨0x3080, 1, 0, 1, .u32, .ro, .rw, .rw, 0x2, [(1, 0x64)], (0, 0, 1), .plain, false, false⟩,
   ⟨0x3090, 8, 1, 72, .u8, .ro, .ro, .ro, 0x0, [], (0, 0, 1), .measured, false, false⟩,
   ⟨0x4010, 8, 0, 1, .bool, .ro, .rw, .rw, 0x0, [(0, 1)], (0, 0, 1), .plain, false, false⟩,
   ⟨0x4020, 1, 0, 1, .u8, .ro, .rw, .rw, 0x4, [(1, 0xf)], (0, 0, 1), .plain, false, false⟩,
   ⟨0x4021, 1, 0, 1, .u8, .ro, .rw, .rw, 0x3, [(1, 0xff)], (0, 0, 1), .plain, false, false⟩,
   ⟨0x4022, 1, 0, 1, .u16, .ro, .rw, .rw, 0x400, [(1, 0xffff)], (0, 0, 1), .plain, false, false⟩,
   ⟨0x4030, 8, 0, 1, .u64, .ro, .ro, .ro, 0x0, [], (0, 0, 1), .plain, false, true⟩,
   ⟨0x4100, 1, 0, 1, .u16, .rw, .rw, .rw, 0x64, [(0, 0x3e8)], (0, 0, 1), .plain, false, false⟩,
   ⟨0x4101, 1, 0, 1, .u8, .rw, .rw, .rw, 0x0, [(0, 1)], (0, 0, 1), .plain, false, false⟩]

/-- Dictionary entries, part 7. -/
def odMap7 : List OdEnt :=
  [⟨0x4102, 1, 0, 1, .u8, .ro, .rw, .rw, 0x0, [(0, 0xff)], (0, 0, 1), .plain, false, false⟩,
   ⟨0x4103, 1, 0, 1, .u16, .ro, .rw, .rw, 0x10, [(0, 0x200)], (0, 0, 1), .plain, false, false⟩,
   ⟨0x4104, 1, 0, 1, .u8, .ro, .rw, .rw, 0x19, [(1, 0x64)], (0, 0, 1), .plain, false, false⟩,
   ⟨0x4105, 1, 0, 1, .u16, .ro, .rw, .rw, 0x10, [(1, 0x400)], (0, 0, 1), .plain, false, false⟩,
   ⟨0x4106, 1, 0, 1, .u8, .rw, .rw, .rw, 0x0, [(0, 2)], (0, 0, 1), .plain, false, false⟩,
   ⟨0x4107, 1, 0, 1, .u8, .ro, .rw, .rw, 0x1, [(1, 0x40)], (0, 0, 1), .plain, false, false⟩,
   ⟨0x4110, 1, 0, 1, .u64, .ro, .ro, .ro, 0x0, [], (0, 0, 1), .plain, false, true⟩,
   ⟨0x4111, 1, 0, 1, .u64, .ro, .ro, .ro, 0x0, [], (0, 0, 1), .plain, false, true⟩,
   ⟨0x4112, 1, 0, 1, .u64, .ro, .ro, .ro, 0x0, [], (0, 0, 1), .plain, false, true⟩,
   ⟨0x4113, 1, 0, 1, .u64, .ro, .ro, .ro, 0x0, [], (0, 0, 1), .plain, false, true⟩,
   ⟨0x4114, 1, 0, 1, .u64, .ro, .ro, .ro, 0x0, [], (0, 0, 1), .plain, false, true⟩,
   ⟨0x4115, 1, 0, 1, .u32, .ro, .ro, .ro, 0x0, [], (0, 0, 1), .plain, false, true⟩,
   ⟨0x4116, 1, 0, 1, .u16, .ro, .ro, .ro, 0x0, [(0, 0x400)], (0, 0, 1), .plain, false, false⟩,
   ⟨0x4120, 1, 0, 1, .bool, .ro, .rw, .rw, 0x0, [(0, 1)], (0, 0, 1), .plain, false, false⟩,
   ⟨0x4121, 1, 0, 1, .bool, .ro, .rw, .rw, 0x1, [(0, 1)], (0, 0, 1), .plain, false, false⟩,
   ⟨0x4130, 1, 0, 1, .u64, .ro, .ro, .ro, 0x0, [], (0, 0, 1), .plain, false, true⟩]

/-- Dictionary entries, part 8. -/
def odMap8 : List OdEnt :=
  [⟨0x4131, 1, 0, 1, .u64, .ro, .ro, .ro, 0x0, [], (0, 0, 1), .plain, false, true⟩,
   ⟨0x4132, 1, 0, 1, .u64, .ro, .ro, .ro, 0x0, [], (0, 0, 1), .plain, false, true⟩,
   ⟨0x4133, 1, 0, 1, .u32, .ro, .ro, .ro, 0x0, [], (0, 0, 1), .plain, false, true⟩,
   ⟨0x4134, 1, 0, 1, .u64, .ro, .ro, .ro, 0x0, [], (0, 0, 1), .plain, false, true⟩,
   ⟨0x4140, 1, 0, 1, .bool, .ro, .rw, .rw, 0x1, [(0, 1)], (0, 0, 1), .plain, false, false⟩,
   ⟨0x4141, 1, 0, 1, .u64, .ro, .ro, .ro, 0x0, [], (0, 0, 1), .plain, false, true⟩,
   ⟨0x4142, 1, 0, 1, .u64, .ro, .ro, .ro, 0x0, [], (0, 0, 1), .plain, false, true⟩,
   ⟨0x4143, 1, 0, 1, .u64, .ro, .ro, .ro, 0x0, [], (0, 0, 1), .plain, false, true⟩,
   ⟨0x4144, 1, 0, 1, .u64, .ro, .ro, .ro, 0x0, [], (0, 0, 1), .plain, false, true⟩,
   ⟨0x4145, 1, 0, 1, .u32, .ro, .ro, .ro, 0x0, [], (0, 0, 1), .plain, false, true⟩,
   ⟨0x4146, 1, 0, 1, .u8, .rw, .rw, .rw, 0x4, [(0, 8)], (0, 0, 1), .plain, false, false⟩,
   ⟨0x4200, 1, 0, 1, .f32, .ro, .rw, .rw, 0x3f19999a, [(0x3e99999a, 0x3f800000)], (0, 0, 1), .plain, false, false⟩,
   ⟨0x4201, 1, 0, 1, .f32, .ro, .rw, .rw, 0x3fc00000, [(0x3f4ccccd, 0x40000000)], (0, 0, 1), .plain, false, false⟩,
   ⟨0x4202, 1, 0, 1, .u32, .ro, .rw, .rw, 0x3e8, [(0x64, 0xea60)], (0, 0, 1), .plain, false, false⟩,
   ⟨0x4203, 1, 0, 1, .u8, .ro, .rw, .rw, 0x8, [(1, 0x20)], (0, 0, 1), .plain, false, false⟩,
   ⟨0x4204, 1, 0, 1, .f32, .ro, .rw, .rw, 0x3f800000, [(0x3e800000, 0x40800000)], (0, 0, 1), .plain, false, false⟩]

/-- Dictionary entries, part 9. -/
def odMap9 : List OdEnt :=
  [⟨0x4205, 1, 0, 1, .f32, .ro, .rw, .rw, 0x41200000, [(0x40a00000, 0x41400000)], (0, 0, 1), .plain, false, false⟩,
   ⟨0x4210, 8, 1, 1, .f32, .ro, .ro, .ro, 0x0, [], (0, 0, 1), .measured, false, false⟩,
   ⟨0x4210, 8, 2, 1, .f32, .ro, .ro, .ro, 0x0, [], (0, 0, 1), .measured, false, false⟩,
   ⟨0x4210, 8, 3, 1, .f32, .ro, .ro, .ro, 0x0, [], (0, 0, 1), .measured, false, false⟩,
   ⟨0x4210, 8, 4, 1, .u32, .ro, .ro, .ro, 0x0, [], (0, 0, 1), .plain, false, false⟩,
   ⟨0x4210, 8, 5, 1, .u32, .ro, .ro, .ro, 0x0, [], (0, 0, 1), .plain, false, false⟩,
   ⟨0x4210, 8, 6, 1, .u32, .ro, .ro, .ro, 0x0, [], (0, 0, 1), .plain, false, false⟩,
   ⟨0x4210, 8, 7, 1, .u32, .ro, .ro, .ro, 0x0, [], (0, 0, 1), .plain, false, true⟩,
   ⟨0x4210, 8, 8, 1, .u32, .ro, .ro, .ro, 0x0, [], (0, 0, 1), .plain, false, true⟩,
   ⟨0x4210, 8, 9, 1, .u8, .ro, .ro, .ro, 0x40, [(0, 0x40)], (0, 0, 1), .plain, false, false⟩,
   ⟨0x4210, 8, 10, 1, .f32, .ro, .ro, .ro, 0x0, [], (0, 0, 1), .measured, false, false⟩,
   ⟨0x4220, 1, 1, 1, .f32, .ro, .ro, .ro, 0x0, [], (0, 0, 1), .measured, false, false⟩,
   ⟨0x4220, 1, 2, 1, .u32, .ro, .ro, .ro, 0x0, [], (0, 0, 1), .plain, false, false⟩,
   ⟨0x4220, 1, 3, 1, .u32, .ro, .ro, .ro, 0x0, [], (0, 0, 1), .plain, false, false⟩,
   ⟨0x4220, 1, 4, 1, .u32, .ro, .ro, .ro, 0x0, [], (0, 0, 1), .plain, false, false⟩,
   ⟨0x4220, 1, 5, 1, .u8, .ro, .ro, .ro, 0x8, [(0, 8)], (0, 0, 1), .plain, false, false⟩]

/-- Dictionary entries, part 10. -/
def odMap10 : List OdEnt :=
  [⟨0x4230, 1, 1, 1, .u32, .rw, .rw, .rw, 0x0, [], (0, 0, 1), .plain, false, false⟩,
   ⟨0x4230, 1, 2, 1, .blob, .ro, .ro, .ro, 0x0, [], (32, 32, 1), .measured, false, false⟩,
   ⟨0x4240, 8, 0, 1, .f32, .ro, .ro, .rw, 0xbdcccccd, [(0xbe99999a, 0x80000000), (0, 0)], (0, 0, 1), .plain, false, false⟩,
   ⟨0x4300, 8, 1, 1, .u32, .ro, .ro, .ro, 0x0, [], (0, 0, 1), .mfg, false, true⟩,
   ⟨0x4300, 8, 2, 1, .u32, .ro, .ro, .ro, 0x0, [], (0, 0, 1), .mfg, false, true⟩,
   ⟨0x4300, 8, 3, 1, .u64, .ro, .ro, .ro, 0x0, [], (0, 0, 1), .plain, false, false⟩,
   ⟨0x4300, 8, 4, 1, .f32, .ro, .ro, .ro, 0x0, [], (0, 0, 1), .measured, false, false⟩,
   ⟨0x4300, 8, 5, 1, .u32, .ro, .ro, .ro, 0x0, [], (0, 0, 1), .plain, false, true⟩,
   ⟨0x4300, 8, 6, 1, .u32, .ro, .ro, .ro, 0x0, [(0, 0x26400)], (0, 0, 1), .measured, false, false⟩,
   ⟨0x4300, 8, 7, 1, .u16, .ro, .ro, .ro, 0x0, [(0, 0x480)], (0, 0, 1), .measured, false, false⟩,
   ⟨0x4300, 8, 8, 1, .u32, .ro, .ro, .ro, 0x0, [], (0, 0, 1), .plain, false, true⟩,
   ⟨0x4300, 8, 9, 1, .u32, .ro, .ro, .ro, 0x0, [], (0, 0, 1), .plain, false, true⟩,
   ⟨0x4308, 1, 1, 1, .u64, .ro, .ro, .ro, 0x0, [], (0, 0, 1), .plain, false, false⟩,
   ⟨0x4308, 1, 2, 1, .u32, .ro, .ro, .ro, 0x0, [], (0, 0, 1), .mfg, false, true⟩,
   ⟨0x4308, 1, 3, 1, .u16, .ro, .ro, .ro, 0x0, [(0, 0x2000)], (0, 0, 1), .measured, false, false⟩,
   ⟨0x4310, 1, 0, 1, .u32, .ro, .rw, .rw, 0x258, [(0x3c, 0x15180)], (0, 0, 1), .plain, false, false⟩]

/-- Dictionary entries, part 11. -/
def odMap11 : List OdEnt :=
  [⟨0x4311, 1, 0, 1, .u32, .ro, .rw, .rw, 0x18, [(1, 0x2d0)], (0, 0, 1), .plain, false, false⟩,
   ⟨0x4312, 1, 0, 1, .u32, .ro, .rw, .rw, 0x18, [(1, 0x2d0)], (0, 0, 1), .plain, false, false⟩,
   ⟨0x4313, 1, 0, 1, .u32, .ro, .rw, .rw, 0x1388, [(0x64, 0xea60)], (0, 0, 1), .plain, false, false⟩,
   ⟨0x4314, 1, 0, 1, .u8, .rw, .rw, .rw, 0x0, [(0, 1)], (0, 0, 1), .plain, false, false⟩,
   ⟨0x4315, 1, 0, 1, .u8, .wo, .wo, .wo, 0x0, [(0, 0xf)], (0, 0, 1), .measured, false, false⟩,
   ⟨0x4316, 1, 0, 1, .u32, .rw, .rw, .rw, 0xe10, [(0, 0x93a80)], (0, 0, 1), .plain, false, false⟩,
   ⟨0x4317, 1, 0, 1, .u32, .ro, .rw, .rw, 0x3c, [(0xa, 0xe10)], (0, 0, 1), .plain, false, false⟩,
   ⟨0x4318, 1, 0, 1, .u32, .ro, .rw, .rw, 0x258, [(0, 0x15180)], (0, 0, 1), .plain, false, false⟩,
   ⟨0x4319, 1, 0, 1, .u8, .ro, .rw, .rw, 0x1, [(1, 0x10)], (0, 0, 1), .plain, false, false⟩,
   ⟨0x4320, 1, 0, 1, .u16, .ro, .rw, .rw, 0x2328, [(0x3e8, 0x2710)], (0, 0, 1), .plain, false, false⟩,
   ⟨0x4321, 1, 0, 1, .u64, .ro, .ro, .ro, 0x0, [], (0, 0, 1), .plain, false, true⟩,
   ⟨0x4322, 1, 0, 1, .u64, .ro, .ro, .ro, 0x0, [], (0, 0, 1), .plain, false, true⟩,
   ⟨0x4330, 1, 1, 1, .u32, .rw, .rw, .rw, 0x0, [], (0, 0, 1), .plain, false, false⟩,
   ⟨0x4330, 1, 2, 1, .blob, .ro, .ro, .ro, 0x0, [], (24, 24, 1), .measured, false, false⟩,
   ⟨0x4340, 1, 0, 1, .u32, .none, .wo, .wo, 0x0, [], (0, 0, 1), .measured, false, false⟩,
   ⟨0x5000, 8, 1, 1, .u8, .ro, .rw, .rw, 0x20, [(0x10, 0x10), (0x20, 0x20), (0x40, 0x40)], (0, 0, 1), .plain, false, false⟩]

/-- Dictionary entries, part 12. -/
def odMap12 : List OdEnt :=
  [⟨0x5000, 8, 2, 1, .u8, .ro, .rw, .rw, 0x20, [(0x10, 0x10), (0x20, 0x20), (0x40, 0x40)], (0, 0, 1), .plain, false, false⟩,
   ⟨0x5000, 8, 3, 1, .u64, .ro, .ro, .ro, 0x0, [], (0, 0, 1), .plain, false, true⟩,
   ⟨0x5000, 8, 4, 1, .u32, .ro, .ro, .ro, 0x0, [], (0, 0, 1), .plain, false, true⟩,
   ⟨0x5000, 8, 5, 1, .u32, .ro, .ro, .ro, 0x0, [], (0, 0, 1), .plain, false, true⟩,
   ⟨0x5000, 8, 6, 1, .u8, .ro, .ro, .ro, 0x0, [(0, 0x10)], (0, 0, 1), .plain, false, false⟩,
   ⟨0x5000, 8, 7, 1, .u8, .ro, .ro, .ro, 0x0, [(0, 0x10)], (0, 0, 1), .plain, false, false⟩,
   ⟨0x5000, 8, 8, 1, .u64, .ro, .ro, .ro, 0x0, [], (0, 0, 1), .plain, false, true⟩,
   ⟨0x5000, 8, 9, 1, .u32, .ro, .ro, .ro, 0x0, [], (0, 0, 1), .plain, false, true⟩,
   ⟨0x5010, 1, 0, 1, .u32, .ro, .rw, .rw, 0x18, [(1, 0x2d0)], (0, 0, 1), .plain, false, false⟩,
   ⟨0x5020, 1, 0, 1, .u32, .ro, .rw, .rw, 0x1f4, [(0xa, 0xfa0)], (0, 0, 1), .plain, false, false⟩,
   ⟨0x6000, 1, 0, 1, .blob, .ro, .rw, .rw, 0x0, [], (64, 65600, 32), .plain, false, false⟩,
   ⟨0x6001, 1, 0, 1, .blob, .ro, .ro, .ro, 0x0, [], (8, 8, 1), .measured, false, false⟩,
   ⟨0x6002, 1, 0, 1, .u32, .ro, .ro, .ro, 0xffffffff, [(0, 0x7ff)], (0, 0, 1), .plain, false, false⟩,
   ⟨0x6010, 1, 0, 1, .u8, .ro, .ro, .ro, 0x0, [], (0, 0, 1), .plain, false, false⟩,
   ⟨0x6011, 1, 1, 1, .u16, .ro, .ro, .ro, 0x0, [(0, 0x18)], (0, 0, 1), .plain, false, false⟩,
   ⟨0x6011, 1, 2, 1, .u16, .ro, .ro, .ro, 0x0, [(0, 0x18)], (0, 0, 1), .plain, false, false⟩]

/-- Dictionary entries, part 13. -/
def odMap13 : List OdEnt :=
  [⟨0x6011, 1, 3, 1, .u16, .ro, .ro, .ro, 0x0, [(0, 0x18)], (0, 0, 1), .plain, false, false⟩,
   ⟨0x6011, 1, 4, 1, .u16, .ro, .ro, .ro, 0x0, [(0, 0x18)], (0, 0, 1), .plain, false, false⟩,
   ⟨0x6011, 1, 5, 1, .u32, .ro, .ro, .ro, 0x0, [], (0, 0, 1), .plain, false, true⟩,
   ⟨0x6011, 1, 6, 1, .u8, .ro, .ro, .ro, 0x3, [(0, 0xff)], (0, 0, 1), .plain, false, false⟩,
   ⟨0x6011, 1, 7, 1, .u16, .ro, .ro, .ro, 0x0, [(0, 0x4000)], (0, 0, 1), .plain, false, false⟩,
   ⟨0x6020, 1, 0, 1, .u32, .ro, .rw, .rw, 0x1388, [(0x64, 0x927c0)], (0, 0, 1), .plain, false, false⟩,
   ⟨0x6021, 1, 0, 1, .u32, .ro, .rw, .rw, 0x3e8, [(0xa, 0xea60)], (0, 0, 1), .plain, false, false⟩,
   ⟨0x6022, 1, 0, 1, .u16, .none, .wo, .wo, 0x0, [(0xa5c3, 0xa5c3)], (0, 0, 1), .measured, false, false⟩,
   ⟨0x6030, 1, 1, 1, .u64, .ro, .ro, .ro, 0x0, [], (0, 0, 1), .plain, false, false⟩,
   ⟨0x6030, 1, 2, 1, .u64, .ro, .ro, .ro, 0x0, [], (0, 0, 1), .plain, false, false⟩,
   ⟨0x6030, 1, 3, 1, .u32, .ro, .ro, .ro, 0x0, [], (0, 0, 1), .plain, false, false⟩,
   ⟨0x6030, 1, 4, 1, .u16, .ro, .ro, .ro, 0x0, [(0, 0x3fff)], (0, 0, 1), .plain, false, false⟩,
   ⟨0x6040, 8, 1, 6, .u32, .ro, .ro, .ro, 0x0, [], (0, 0, 1), .plain, false, false⟩,
   ⟨0x6040, 8, 7, 1, .u64, .ro, .ro, .ro, 0x0, [], (0, 0, 1), .plain, false, true⟩,
   ⟨0x6040, 8, 8, 1, .u64, .ro, .ro, .ro, 0x0, [], (0, 0, 1), .plain, false, true⟩,
   ⟨0x6060, 1, 1, 15, .blob, .rw, .rw, .rw, 0x0, [], (0, 8192, 4), .plain, false, false⟩]

/-- Dictionary entries, part 14. -/
def odMap14 : List OdEnt :=
  [⟨0x6061, 1, 0, 1, .u16, .wo, .wo, .wo, 0x0, [], (0, 0, 1), .measured, false, false⟩,
   ⟨0x6062, 1, 0, 1, .blob, .ro, .ro, .ro, 0x0, [], (64, 64, 1), .measured, false, false⟩,
   ⟨0x7000, 1, 0, 1, .u32, .ro, .rw, .rw, 0x32, [(0xa, 0x3e8)], (0, 0, 1), .plain, false, false⟩,
   ⟨0x7001, 1, 0, 1, .u16, .ro, .ro, .ro, 0x0, [(0, 0x1000)], (0, 0, 1), .plain, false, false⟩,
   ⟨0x7002, 1, 0, 1, .bool, .ro, .rw, .rw, 0x1, [(0, 1)], (0, 0, 1), .plain, false, false⟩,
   ⟨0x7003, 1, 0, 1, .u64, .ro, .ro, .ro, 0x0, [], (0, 0, 1), .plain, false, true⟩,
   ⟨0x7004, 1, 0, 1, .u32, .ro, .ro, .ro, 0x0, [], (0, 0, 1), .plain, false, true⟩,
   ⟨0x7005, 1, 0, 1, .u32, .ro, .ro, .ro, 0x0, [], (0, 0, 1), .plain, false, true⟩,
   ⟨0x7010, 1, 1, 1, .u16, .rw, .rw, .rw, 0x0, [], (0, 0, 1), .plain, false, false⟩,
   ⟨0x7010, 1, 2, 1, .blob, .ro, .ro, .ro, 0x0, [], (32, 32, 1), .measured, false, false⟩,
   ⟨0x7020, 1, 0, 1, .u16, .rw, .rw, .rw, 0x100, [(1, 0x400)], (0, 0, 1), .plain, false, false⟩,
   ⟨0x7021, 1, 0, 1, .u16, .rw, .rw, .rw, 0x1000, [(0x40, 0x4000)], (0, 0, 1), .plain, false, false⟩,
   ⟨0x7022, 1, 0, 1, .u16, .rw, .rw, .rw, 0x200, [(0x40, 0x1000)], (0, 0, 1), .plain, false, false⟩,
   ⟨0x7023, 1, 0, 1, .u8, .rw, .rw, .rw, 0x2, [(1, 4)], (0, 0, 1), .plain, false, false⟩,
   ⟨0x7024, 1, 0, 1, .u32, .ro, .rw, .rw, 0x64, [(0xa, 0x3e8)], (0, 0, 1), .plain, false, false⟩,
   ⟨0x7025, 1, 0, 1, .u8, .rw, .rw, .rw, 0x3, [(1, 0x10)], (0, 0, 1), .plain, false, false⟩]

/-- Dictionary entries, part 15. -/
def odMap15 : List OdEnt :=
  [⟨0x7026, 1, 0, 1, .u32, .ro, .rw, .rw, 0xc8, [(0x14, 0x7d0)], (0, 0, 1), .plain, false, false⟩,
   ⟨0x7027, 1, 0, 1, .f32, .rw, .rw, .rw, 0x41800000, [(0x3f800000, 0x42400000)], (0, 0, 1), .plain, false, false⟩,
   ⟨0x7028, 1, 0, 1, .u32, .rw, .rw, .rw, 0x0, [(0, 0x93a80)], (0, 0, 1), .plain, false, false⟩,
   ⟨0x7030, 1, 1, 1, .u32, .rw, .rw, .rw, 0x0, [(0, 0x3ffff)], (0, 0, 1), .plain, false, false⟩,
   ⟨0x7030, 1, 2, 1, .blob, .rw, .ro, .ro, 0x0, [], (32, 32, 1), .measured, false, false⟩,
   ⟨0x7031, 1, 1, 1, .u32, .rw, .rw, .rw, 0x0, [(0, 0xfffff)], (0, 0, 1), .plain, false, false⟩,
   ⟨0x7031, 1, 2, 1, .blob, .ro, .ro, .ro, 0x0, [], (128, 128, 1), .measured, false, false⟩,
   ⟨0x7040, 1, 0, 1, .blob, .rw, .rw, .rw, 0x0, [], (0, 1024, 16), .plain, false, false⟩,
   ⟨0x7050, 1, 0, 1, .u64, .ro, .ro, .ro, 0x0, [], (0, 0, 1), .plain, false, true⟩,
   ⟨0x7051, 1, 0, 1, .u64, .ro, .ro, .ro, 0x0, [], (0, 0, 1), .plain, false, true⟩,
   ⟨0x7052, 1, 0, 1, .u64, .ro, .ro, .ro, 0x0, [], (0, 0, 1), .plain, false, true⟩,
   ⟨0x7053, 1, 0, 1, .u64, .ro, .ro, .ro, 0x0, [], (0, 0, 1), .plain, false, true⟩,
   ⟨0x7054, 1, 0, 1, .u64, .ro, .ro, .ro, 0x0, [], (0, 0, 1), .plain, false, true⟩,
   ⟨0x7055, 1, 0, 1, .u32, .ro, .ro, .ro, 0x0, [], (0, 0, 1), .plain, false, true⟩,
   ⟨0x7056, 1, 0, 1, .u32, .ro, .ro, .ro, 0x0, [], (0, 0, 1), .plain, false, true⟩,
   ⟨0x7057, 1, 0, 1, .u32, .ro, .ro, .ro, 0x0, [], (0, 0, 1), .plain, false, false⟩]

/-- Dictionary entries, part 16. -/
def odMap16 : List OdEnt :=
  [⟨0x7060, 4, 0, 1, .u8, .rw, .rw, .rw, 0x0, [(0, 0x40)], (0, 0, 1), .plain, false, false⟩,
   ⟨0x7064, 1, 0, 1, .u8, .rw, .rw, .rw, 0x4, [(1, 0x40)], (0, 0, 1), .plain, false, false⟩,
   ⟨0x7065, 1, 0, 1, .u64, .ro, .ro, .ro, 0x0, [], (0, 0, 1), .plain, false, true⟩,
   ⟨0x7066, 1, 0, 1, .u32, .ro, .ro, .ro, 0x0, [], (0, 0, 1), .plain, false, true⟩,
   ⟨0x7070, 8, 1, 1, .u32, .ro, .ro, .ro, 0x0, [], (0, 0, 1), .plain, false, false⟩,
   ⟨0x7070, 8, 2, 1, .u32, .ro, .ro, .ro, 0x0, [], (0, 0, 1), .plain, false, false⟩,
   ⟨0x7070, 8, 3, 1, .u32, .ro, .ro, .ro, 0x0, [], (0, 0, 1), .plain, false, false⟩,
   ⟨0x7070, 8, 4, 1, .u32, .ro, .ro, .ro, 0x0, [], (0, 0, 1), .measured, false, false⟩,
   ⟨0x7070, 8, 5, 1, .u64, .ro, .ro, .ro, 0x0, [], (0, 0, 1), .plain, false, true⟩,
   ⟨0x7070, 8, 6, 1, .u64, .ro, .ro, .ro, 0x0, [], (0, 0, 1), .plain, false, true⟩,
   ⟨0x7080, 1, 1, 1, .u16, .rw, .rw, .rw, 0x1, [(1, 0xfffe)], (0, 0, 1), .plain, false, false⟩,
   ⟨0x7080, 1, 2, 1, .blob, .rw, .ro, .ro, 0x0, [], (64, 64, 1), .measured, false, false⟩,
   ⟨0x7080, 1, 3, 1, .blob, .ro, .ro, .ro, 0x0, [], (64, 64, 1), .measured, false, false⟩,
   ⟨0x7081, 1, 1, 1, .u32, .rw, .rw, .rw, 0x0, [(0, 0x3ffff)], (0, 0, 1), .plain, false, false⟩,
   ⟨0x7081, 1, 2, 1, .blob, .rw, .ro, .ro, 0x0, [], (32, 32, 1), .plain, false, false⟩,
   ⟨0x7081, 1, 3, 1, .blob, .ro, .ro, .ro, 0x0, [], (32, 32, 1), .measured, false, false⟩]

/-- Dictionary entries, part 17. -/
def odMap17 : List OdEnt :=
  [⟨0x7082, 1, 0, 1, .u64, .ro, .ro, .ro, 0x0, [], (0, 0, 1), .plain, false, true⟩,
   ⟨0x7083, 1, 0, 1, .u64, .ro, .ro, .ro, 0x0, [], (0, 0, 1), .plain, false, true⟩,
   ⟨0x8000, 1, 1, 1, .u16, .ro, .ro, .ro, 0x0, [(0, 0x100)], (0, 0, 1), .plain, false, false⟩,
   ⟨0x8000, 1, 2, 1, .u16, .ro, .ro, .ro, 0x0, [(0, 0x100)], (0, 0, 1), .plain, false, false⟩,
   ⟨0x8000, 1, 3, 1, .u8, .ro, .ro, .ro, 0x0, [(0, 4)], (0, 0, 1), .plain, false, false⟩,
   ⟨0x8000, 1, 4, 1, .u32, .ro, .ro, .ro, 0x0, [], (0, 0, 1), .plain, false, true⟩,
   ⟨0x8000, 1, 5, 5, .u64, .ro, .ro, .ro, 0x0, [], (0, 0, 1), .plain, false, true⟩,
   ⟨0x8001, 1, 1, 1, .u32, .rw, .rw, .rw, 0x1, [(1, 0xffffffff)], (0, 0, 1), .plain, false, false⟩,
   ⟨0x8001, 1, 2, 1, .blob, .ro, .ro, .ro, 0x0, [], (32, 32, 1), .measured, false, false⟩,
   ⟨0x8002, 1, 0, 1, .u32, .wo, .wo, .wo, 0x0, [], (0, 0, 1), .measured, false, false⟩,
   ⟨0x8003, 1, 0, 1, .blob, .ro, .ro, .ro, 0x0, [], (0, 8192, 32), .plain, false, false⟩,
   ⟨0x8010, 1, 0, 1, .u8, .ro, .rw, .rw, 0x0, [(0, 2)], (0, 0, 1), .plain, false, false⟩,
   ⟨0x8011, 1, 0, 1, .u8, .ro, .rw, .rw, 0x0, [(0, 2)], (0, 0, 1), .plain, false, false⟩,
   ⟨0x8012, 1, 0, 1, .u16, .ro, .rw, .rw, 0x8, [(1, 0x800)], (0, 0, 1), .plain, false, false⟩,
   ⟨0x8020, 1, 0, 1, .u16, .none, .wo, .wo, 0x0, [(0xa5c3, 0xa5c3), (0x5a3c, 0x5a3c)], (0, 0, 1), .measured, false, false⟩,
   ⟨0x8021, 1, 0, 1, .bool, .ro, .ro, .ro, 0x0, [(0, 1)], (0, 0, 1), .plain, false, false⟩]

/-- Dictionary entries, part 18. -/
def odMap18 : List OdEnt :=
  [⟨0x8030, 1, 0, 1, .u64, .none, .wo, .wo, 0x0, [], (0, 0, 1), .measured, false, false⟩,
   ⟨0x8040, 1, 0, 1, .u16, .none, .wo, .wo, 0x0, [], (0, 0, 1), .measured, false, false⟩,
   ⟨0x8050, 8, 1, 1, .u8, .ro, .ro, .ro, 0x0, [(0, 0x40)], (0, 0, 1), .plain, false, false⟩,
   ⟨0x8050, 8, 2, 1, .u8, .ro, .ro, .ro, 0x0, [(0, 0x48)], (0, 0, 1), .plain, false, false⟩,
   ⟨0x8050, 8, 3, 1, .u16, .ro, .ro, .ro, 0x0, [(0, 0x480)], (0, 0, 1), .plain, false, false⟩,
   ⟨0x8050, 8, 4, 1, .u8, .ro, .ro, .ro, 0x0, [(0, 8)], (0, 0, 1), .plain, false, false⟩,
   ⟨0x8060, 1, 1, 1, .u64, .rw, .rw, .rw, 0x0, [], (0, 0, 1), .plain, false, false⟩,
   ⟨0x8060, 1, 2, 1, .blob, .ro, .ro, .ro, 0x0, [], (264, 264, 1), .measured, false, false⟩,
   ⟨0x8061, 1, 0, 1, .u32, .ro, .ro, .ro, 0x0, [], (0, 0, 1), .plain, false, true⟩,
   ⟨0x8062, 1, 0, 1, .bool, .rw, .rw, .rw, 0x1, [(0, 1)], (0, 0, 1), .plain, false, false⟩,
   ⟨0x8070, 4, 1, 1, .u16, .rw, .rw, .rw, 0x0, [(0, 0x3e8)], (0, 0, 1), .plain, false, false⟩,
   ⟨0x8070, 4, 2, 1, .u8, .rw, .rw, .rw, 0x0, [(0, 2)], (0, 0, 1), .plain, false, false⟩,
   ⟨0x8070, 4, 3, 1, .u32, .rw, .rw, .rw, 0x0, [], (0, 0, 1), .plain, false, false⟩,
   ⟨0x8070, 4, 4, 1, .f32, .rw, .rw, .rw, 0x40800000, [(0x3f000000, 0x42480000)], (0, 0, 1), .plain, false, false⟩,
   ⟨0x8070, 4, 5, 1, .u32, .rw, .rw, .rw, 0x4e20, [(0x3e8, 0xf4240)], (0, 0, 1), .plain, false, false⟩,
   ⟨0x8070, 4, 6, 1, .u64, .ro, .ro, .ro, 0x0, [], (0, 0, 1), .plain, false, true⟩]

/-- Dictionary entries, part 19. -/
def odMap19 : List OdEnt :=
  [⟨0x8070, 4, 7, 1, .u64, .ro, .ro, .ro, 0x0, [], (0, 0, 1), .plain, false, true⟩,
   ⟨0x8070, 4, 8, 1, .u64, .ro, .ro, .ro, 0x0, [], (0, 0, 1), .plain, false, true⟩,
   ⟨0x8070, 4, 9, 1, .u64, .ro, .ro, .ro, 0x0, [], (0, 0, 1), .plain, false, true⟩,
   ⟨0x8070, 4, 10, 1, .u8, .ro, .ro, .ro, 0x0, [(0, 2)], (0, 0, 1), .plain, false, false⟩,
   ⟨0x8070, 4, 11, 1, .u8, .wo, .wo, .wo, 0x0, [(1, 1)], (0, 0, 1), .measured, false, false⟩,
   ⟨0x8070, 4, 12, 1, .u64, .ro, .ro, .ro, 0x0, [], (0, 0, 1), .plain, false, true⟩,
   ⟨0x9010, 1, 0, 1, .f32, .ro, .ro, .ro, 0x0, [(0xc1200000, 0x42fa0000)], (0, 0, 1), .measured, false, false⟩,
   ⟨0x9011, 1, 0, 1, .f32, .ro, .ro, .ro, 0x0, [(0xc1200000, 0x42fa0000)], (0, 0, 1), .measured, false, false⟩,
   ⟨0x9020, 1, 0, 1, .f32, .ro, .rw, .rw, 0x42be0000, [(0x428c0000, 0x42c80000)], (0, 0, 1), .plain, false, false⟩,
   ⟨0x9021, 1, 0, 1, .f32, .ro, .rw, .rw, 0x40a00000, [(0x3f800000, 0x41a00000)], (0, 0, 1), .plain, false, false⟩,
   ⟨0x9022, 1, 0, 1, .f32, .ro, .rw, .rw, 0x40000000, [(0x3f000000, 0x41200000)], (0, 0, 1), .plain, false, false⟩,
   ⟨0x9023, 1, 0, 1, .f32, .ro, .ro, .rw, 0x42d20000, [(0x42be0000, 0x42d20000)], (0, 0, 1), .plain, false, false⟩,
   ⟨0x9024, 1, 0, 1, .u32, .ro, .rw, .rw, 0x1f4, [(0x64, 0x1388)], (0, 0, 1), .plain, false, false⟩,
   ⟨0x9025, 1, 0, 1, .f32, .ro, .ro, .rw, 0x42880000, [(0x42700000, 0x42880000)], (0, 0, 1), .plain, false, false⟩,
   ⟨0x9026, 1, 0, 1, .u8, .ro, .rw, .rw, 0x18, [(0, 0x20)], (0, 0, 1), .plain, false, false⟩,
   ⟨0x9030, 8, 1, 1, .f32, .ro, .ro, .ro, 0x0, [], (0, 0, 1), .measured, false, false⟩]

/-- Dictionary entries, part 20. -/
def odMap20 : List OdEnt :=
  [⟨0x9030, 8, 2, 1, .f32, .ro, .ro, .ro, 0x0, [], (0, 0, 1), .measured, false, false⟩,
   ⟨0x9030, 8, 3, 1, .u8, .ro, .ro, .ro, 0x18, [(0, 0x18)], (0, 0, 1), .plain, false, false⟩,
   ⟨0x9030, 8, 4, 1, .u8, .ro, .ro, .ro, 0x18, [(0, 0x20)], (0, 0, 1), .plain, false, false⟩,
   ⟨0x9030, 8, 5, 1, .u8, .ro, .ro, .ro, 0x18, [(0, 0x20)], (0, 0, 1), .plain, false, false⟩,
   ⟨0x9030, 8, 6, 1, .u32, .ro, .ro, .ro, 0x0, [], (0, 0, 1), .plain, false, true⟩,
   ⟨0x9030, 8, 7, 1, .f32, .ro, .ro, .ro, 0x0, [(0, 0x43480000)], (0, 0, 1), .measured, false, false⟩,
   ⟨0x9040, 1, 1, 1, .f32, .ro, .ro, .ro, 0x0, [], (0, 0, 1), .measured, false, false⟩,
   ⟨0x9040, 1, 2, 1, .u8, .ro, .ro, .ro, 0x0, [(0, 0x10)], (0, 0, 1), .plain, false, false⟩,
   ⟨0x9040, 1, 3, 1, .u8, .ro, .ro, .ro, 0x0, [(0, 0x10)], (0, 0, 1), .plain, false, false⟩,
   ⟨0x9050, 1, 1, 1, .u8, .rw, .rw, .rw, 0x0, [], (0, 0, 1), .plain, false, false⟩,
   ⟨0x9050, 1, 2, 1, .blob, .ro, .ro, .ro, 0x0, [], (8, 8, 1), .measured, false, false⟩,
   ⟨0xA010, 1, 0, 1, .blob, .ro, .rw, .rw, 0x0, [], (0, 648, 81), .plain, false, false⟩,
   ⟨0xA011, 1, 0, 1, .blob, .ro, .rw, .rw, 0x0, [], (0, 5184, 81), .plain, false, false⟩,
   ⟨0xA012, 1, 0, 1, .blob, .ro, .ro, .ro, 0x0, [], (48, 48, 1), .measured, false, false⟩,
   ⟨0xA020, 1, 0, 1, .u32, .ro, .rw, .rw, 0x258, [(0x3c, 0x15180)], (0, 0, 1), .plain, false, false⟩,
   ⟨0xA021, 1, 0, 1, .u8, .ro, .ro, .ro, 0x0, [(0, 0x10)], (0, 0, 1), .plain, false, false⟩]

/-- Dictionary entries, part 21. -/
def odMap21 : List OdEnt :=
  [⟨0xA022, 1, 0, 1, .u32, .ro, .ro, .ro, 0x0, [], (0, 0, 1), .plain, false, true⟩,
   ⟨0xA100, 1, 0, 1, .blob, .ro, .rw, .rw, 0x0, [], (0, 2320, 145), .plain, false, false⟩,
   ⟨0xA110, 1, 0, 1, .blob, .none, .wo, .wo, 0x0, [], (32, 32, 1), .measured, true, false⟩,
   ⟨0xA111, 1, 0, 1, .blob, .ro, .ro, .ro, 0x0, [], (3, 3, 1), .measured, false, false⟩,
   ⟨0xA112, 1, 0, 1, .u32, .ro, .ro, .ro, 0x0, [(0, 0x10000)], (0, 0, 1), .plain, false, false⟩,
   ⟨0xA200, 1, 1, 1, .u64, .rw, .rw, .rw, 0x1, [], (0, 0, 1), .plain, false, false⟩,
   ⟨0xA200, 1, 2, 1, .blob, .ro, .ro, .ro, 0x0, [], (96, 96, 1), .measured, false, false⟩,
   ⟨0xA201, 1, 0, 1, .u64, .ro, .ro, .ro, 0x0, [], (0, 0, 1), .plain, false, false⟩,
   ⟨0xA202, 1, 0, 1, .blob, .ro, .ro, .ro, 0x0, [], (97, 97, 1), .measured, false, false⟩,
   ⟨0xA203, 1, 1, 1, .u64, .rw, .rw, .rw, 0x0, [], (0, 0, 1), .plain, false, false⟩,
   ⟨0xA203, 1, 2, 1, .blob, .ro, .ro, .ro, 0x0, [], (168, 168, 1), .measured, false, false⟩,
   ⟨0xA204, 1, 0, 1, .u64, .ro, .ro, .ro, 0x0, [], (0, 0, 1), .plain, false, true⟩,
   ⟨0xF000, 1, 0, 1, .blob, .none, .none, .ro, 0x0, [], (0, 4096, 1), .measured, false, false⟩,
   ⟨0xF001, 1, 0, 1, .blob, .none, .none, .rw, 0x0, [], (0, 65536, 1), .measured, false, false⟩,
   ⟨0xF002, 1, 0, 1, .blob, .none, .none, .rw, 0x0, [], (0, 262144, 1), .measured, false, false⟩,
   ⟨0xF003, 1, 0, 1, .blob, .none, .none, .wo, 0x0, [], (0, 1024, 1), .measured, false, false⟩]

/-- Dictionary entries, part 22. -/
def odMap22 : List OdEnt :=
  [⟨0xF100, 1, 0, 1, .u32, .none, .none, .wo, 0x0, [], (0, 0, 1), .measured, false, false⟩,
   ⟨0xF110, 1, 0, 1, .u16, .none, .none, .wo, 0x0, [(0, 0xf)], (0, 0, 1), .measured, false, false⟩]

/-- Every entry of the object dictionary (R565). -/
def odMap : List OdEnt :=
  odMap0 ++ odMap1 ++ odMap2 ++ odMap3 ++ odMap4 ++ odMap5 ++ odMap6 ++ odMap7 ++ odMap8 ++ odMap9 ++ odMap10 ++ odMap11 ++ odMap12 ++ odMap13 ++ odMap14 ++ odMap15 ++ odMap16 ++ odMap17 ++ odMap18 ++ odMap19 ++ odMap20 ++ odMap21 ++ odMap22

end Sys2Proof.Machine
end

