-- ==== Sys2Proof/Machine/RegMap.lean ====
section
/-! DEFINITION. Every register field of the control space, one line a field, as the register tables of spec/ give it
(Tables 2.12, 2.13, 3.8, 4.11–4.16, 5.12–5.13, 6.9–6.10, 7.8–7.9, 8.6–8.7, 9.8–9.9, 10.11–10.13, 11.7–11.8, 12.6–12.7,
13.9–13.10, 15.14, 16.7–16.8, 17.9–17.10, 18.6–18.7, 19.7–19.9, 20.11, 21.7–21.9, 22.6, 24.12): its space, offset, copies and
stride, lowest bit, width, access code (R6), reset value, the source that may write it, and its reserved values (R9). -/

namespace Sys2Proof.Machine

namespace F

def LOOM_CTRL_FRUGAL : Fld := ⟨.core, 0x2000, 1, 0x4, 0, 1, .rw, 0, .housekeeping, []⟩
def LOOM_CTRL_SPCHK_EN : Fld := ⟨.core, 0x2000, 1, 0x4, 1, 1, .rw, 1, .housekeeping, []⟩
def LOOM_STAT_LANE_FENCED : Fld := ⟨.core, 0x2004, 1, 0x4, 0, 16, .ro, 0, .housekeeping, []⟩
def LOOM_STAT_FRUGAL_ACT : Fld := ⟨.core, 0x2004, 1, 0x4, 16, 1, .ro, 0, .housekeeping, []⟩
def LOOM_BUDGET_BUDGET : Fld := ⟨.core, 0x2008, 1, 0x4, 0, 13, .ro, 3072, .housekeeping, []⟩
def LOOM_SPCHK_THRESH : Fld := ⟨.core, 0x200c, 1, 0x4, 0, 4, .rw, 4, .housekeeping, [(0, 0)]⟩
def LOOM_SPCHK_STRIKES : Fld := ⟨.core, 0x200c, 1, 0x4, 8, 8, .rw, 3, .housekeeping, [(0, 0)]⟩
def LOOM_SPCHK_WINDOW : Fld := ⟨.core, 0x200c, 1, 0x4, 16, 16, .rw, 1024, .housekeeping, [(0, 0)]⟩
def LOOM_OPCNT_LO_COUNT : Fld := ⟨.core, 0x2010, 1, 0x4, 0, 32, .ro, 0, .housekeeping, []⟩
def LOOM_OPCNT_HI_COUNT : Fld := ⟨.core, 0x2014, 1, 0x4, 0, 32, .ro, 0, .housekeeping, []⟩
def LOOM_SKIPCNT_COUNT : Fld := ⟨.core, 0x2018, 1, 0x4, 0, 32, .ro, 0, .housekeeping, []⟩
def LOOM_SPLITCNT_COUNT : Fld := ⟨.core, 0x201c, 1, 0x4, 0, 32, .ro, 0, .housekeeping, []⟩
def LOOM_RTZCNT_COUNT : Fld := ⟨.core, 0x2020, 1, 0x4, 0, 32, .ro, 0, .housekeeping, []⟩
def LOOM_CLIPCNT_COUNT : Fld := ⟨.core, 0x2024, 1, 0x4, 0, 32, .ro, 0, .housekeeping, []⟩
def LOOM_SPUSE_USE : Fld := ⟨.core, 0x2030, 4, 0x4, 0, 32, .ro, 0, .housekeeping, []⟩
def LOOM_IDX_ARRAY : Fld := ⟨.core, 0x2040, 1, 0x4, 0, 9, .rw, 0, .housekeeping, []⟩
def LOOM_IDX_ENTRY : Fld := ⟨.core, 0x2040, 1, 0x4, 16, 6, .rw, 0, .housekeeping, [(48, 63)]⟩
def LOOM_IDX_TABLE : Fld := ⟨.core, 0x2040, 1, 0x4, 24, 2, .rw, 0, .housekeeping, [(2, 3)]⟩
def LOOM_IDATA_DATA : Fld := ⟨.core, 0x2044, 1, 0x4, 0, 32, .rw, 0, .housekeeping, []⟩
def LOOM_PROBE_LANE : Fld := ⟨.core, 0x2050, 1, 0x4, 0, 4, .rw, 0, .housekeeping, []⟩
def LOOM_PROBE_INTEG : Fld := ⟨.core, 0x2050, 1, 0x4, 4, 8, .rw, 0, .housekeeping, [(192, 255)]⟩
def LOOM_PROBE_EN : Fld := ⟨.core, 0x2050, 1, 0x4, 12, 1, .rw, 0, .housekeeping, []⟩
def LOOM_PROBE_CODE : Fld := ⟨.core, 0x2050, 1, 0x4, 16, 12, .rw, 0, .housekeeping, []⟩
def LOOM_PROBERES_CODE : Fld := ⟨.core, 0x2054, 1, 0x4, 0, 10, .ro, 0, .housekeeping, []⟩
def LOOM_PROBERES_VALID : Fld := ⟨.core, 0x2054, 1, 0x4, 16, 1, .ro, 0, .housekeeping, []⟩
def CORE_LADCTRL_POLICY : Fld := ⟨.core, 0x2400, 1, 0x4, 0, 1, .rw, 0, .housekeeping, []⟩
def CORE_LADCTRL_FLOOR : Fld := ⟨.core, 0x2400, 1, 0x4, 1, 2, .rw, 0, .housekeeping, [(3, 3)]⟩
def CORE_LADCTRL_EN : Fld := ⟨.core, 0x2400, 1, 0x4, 3, 1, .rw, 1, .housekeeping, []⟩
def CORE_LADLIM_SAT_MAX : Fld := ⟨.core, 0x2404, 1, 0x4, 0, 8, .rw, 0, .housekeeping, []⟩
def CORE_LADLIM_RTZ_MAX : Fld := ⟨.core, 0x2404, 1, 0x4, 8, 10, .rw, 16, .housekeeping, [(513, 1023)]⟩
def CORE_STORM_GRANT : Fld := ⟨.core, 0x2408, 1, 0x4, 0, 16, .rw, 1, .hub, []⟩
def CORE_STORM_USED : Fld := ⟨.core, 0x2408, 1, 0x4, 16, 16, .ro, 0, .housekeeping, []⟩
def CORE_LADSTAT_PENDING : Fld := ⟨.core, 0x240c, 1, 0x4, 0, 1, .ro, 0, .housekeeping, []⟩
def CORE_LADSTAT_STALLED : Fld := ⟨.core, 0x240c, 1, 0x4, 1, 1, .ro, 0, .housekeeping, []⟩
def CORE_LADSTAT_SUMM_USED : Fld := ⟨.core, 0x240c, 1, 0x4, 8, 7, .ro, 0, .housekeeping, []⟩
def CORE_LADCNT_TRB_COUNT : Fld := ⟨.core, 0x2410, 1, 0x4, 0, 32, .ro, 0, .housekeeping, []⟩
def CORE_LADCNT_P8_COUNT : Fld := ⟨.core, 0x2414, 1, 0x4, 0, 32, .ro, 0, .housekeeping, []⟩
def CORE_LADCNT_P16_COUNT : Fld := ⟨.core, 0x2418, 1, 0x4, 0, 32, .ro, 0, .housekeeping, []⟩
def CORE_LADCNT_EXM_COUNT : Fld := ⟨.core, 0x241c, 1, 0x4, 0, 32, .ro, 0, .housekeeping, []⟩
def CORE_LADCNT_DEG_COUNT : Fld := ⟨.core, 0x2420, 1, 0x4, 0, 32, .ro, 0, .housekeeping, []⟩
def CORE_LADCNT_BEG_COUNT : Fld := ⟨.core, 0x2424, 1, 0x4, 0, 32, .ro, 0, .housekeeping, []⟩
def CORE_TALCTRL_LOSS_RANGE : Fld := ⟨.core, 0x2500, 1, 0x4, 0, 1, .rw, 0, .housekeeping, []⟩
def CORE_TALCTRL_EXPECT_EN : Fld := ⟨.core, 0x2500, 1, 0x4, 1, 1, .rw, 1, .housekeeping, []⟩
def CORE_TALSTAT_BUF_USED : Fld := ⟨.core, 0x2504, 1, 0x4, 0, 6, .ro, 0, .housekeeping, []⟩
def CORE_TALSTAT_LANE_HELD : Fld := ⟨.core, 0x2504, 1, 0x4, 6, 1, .ro, 0, .housekeeping, []⟩
def CORE_TALSTAT_CMDQ : Fld := ⟨.core, 0x2504, 1, 0x4, 8, 5, .ro, 0, .housekeeping, []⟩
def CORE_TALCNT_TILE_COUNT : Fld := ⟨.core, 0x2510, 1, 0x4, 0, 32, .ro, 0, .housekeeping, []⟩
def CORE_TALCNT_MRG_COUNT : Fld := ⟨.core, 0x2514, 1, 0x4, 0, 32, .ro, 0, .housekeeping, []⟩
def CORE_TALCNT_DRN_COUNT : Fld := ⟨.core, 0x2518, 1, 0x4, 0, 32, .ro, 0, .housekeeping, []⟩
def CORE_TALCNT_SAT_COUNT : Fld := ⟨.core, 0x251c, 1, 0x4, 0, 32, .ro, 0, .housekeeping, []⟩
def CORE_TALCNT_LOSS_COUNT : Fld := ⟨.core, 0x2520, 1, 0x4, 0, 32, .ro, 0, .housekeeping, []⟩
def CORE_TALCNT_EXP_COUNT : Fld := ⟨.core, 0x2524, 1, 0x4, 0, 32, .ro, 0, .housekeeping, []⟩
def CORE_TALCNT_NF_COUNT : Fld := ⟨.core, 0x2528, 1, 0x4, 0, 32, .ro, 0, .housekeeping, []⟩
def MEND_CTRL_DRIFT_EN : Fld := ⟨.core, 0x2600, 1, 0x4, 0, 1, .rw, 1, .housekeeping, []⟩
def MEND_STAT_PQ : Fld := ⟨.core, 0x2604, 1, 0x4, 0, 5, .ro, 0, .housekeeping, []⟩
def MEND_STAT_RQ : Fld := ⟨.core, 0x2604, 1, 0x4, 8, 4, .ro, 0, .housekeeping, []⟩
def MEND_STAT_REDO_ACT : Fld := ⟨.core, 0x2604, 1, 0x4, 12, 1, .ro, 0, .housekeeping, []⟩
def MEND_STAT_HOLD : Fld := ⟨.core, 0x2604, 1, 0x4, 13, 1, .ro, 0, .housekeeping, []⟩
def MEND_DIDX_ARRAY : Fld := ⟨.core, 0x2608, 1, 0x4, 0, 9, .rw, 0, .housekeeping, []⟩
def MEND_DIDX_ENTRY : Fld := ⟨.core, 0x2608, 1, 0x4, 16, 8, .rw, 0, .housekeeping, [(192, 255)]⟩
def MEND_DDATA_GAIN : Fld := ⟨.core, 0x260c, 1, 0x4, 0, 8, .rw, 0, .housekeeping, []⟩
def MEND_DDATA_OFFS : Fld := ⟨.core, 0x260c, 1, 0x4, 8, 8, .rw, 0, .housekeeping, []⟩
def MEND_DSTAGE_PENDING : Fld := ⟨.core, 0x2610, 1, 0x4, 0, 4, .ro, 0, .housekeeping, []⟩
def MEND_DSTAGE_FULL : Fld := ⟨.core, 0x2610, 1, 0x4, 4, 1, .ro, 0, .housekeeping, []⟩
def MEND_CNT_CMD_COUNT : Fld := ⟨.core, 0x2620, 1, 0x4, 0, 32, .ro, 0, .housekeeping, []⟩
def MEND_CNT_BF16_COUNT : Fld := ⟨.core, 0x2624, 1, 0x4, 0, 32, .ro, 0, .housekeeping, []⟩
def MEND_CNT_FP8_COUNT : Fld := ⟨.core, 0x2628, 1, 0x4, 0, 32, .ro, 0, .housekeeping, []⟩
def MEND_CNT_P16_COUNT : Fld := ⟨.core, 0x262c, 1, 0x4, 0, 32, .ro, 0, .housekeeping, []⟩
def MEND_CNT_DISC_COUNT : Fld := ⟨.core, 0x2630, 1, 0x4, 0, 32, .ro, 0, .housekeeping, []⟩
def MEND_CNT_NF_COUNT : Fld := ⟨.core, 0x2634, 1, 0x4, 0, 32, .ro, 0, .housekeeping, []⟩
def MEND_CNT_UFL_COUNT : Fld := ⟨.core, 0x2638, 1, 0x4, 0, 32, .ro, 0, .housekeeping, []⟩
def ASSY_WSTAT_SETTLING : Fld := ⟨.core, 0x2700, 1, 0x4, 0, 1, .ro, 1, .housekeeping, []⟩
def ASSY_WSTAT_ANY_STALE : Fld := ⟨.core, 0x2700, 1, 0x4, 1, 1, .ro, 0, .housekeeping, []⟩
def ASSY_WSTAT_ANY_TRIG : Fld := ⟨.core, 0x2700, 1, 0x4, 2, 1, .ro, 0, .housekeeping, []⟩
def ASSY_WSTAT_WORST : Fld := ⟨.core, 0x2700, 1, 0x4, 16, 9, .ro, 0, .housekeeping, []⟩
def ASSY_WIDX_ARRAY : Fld := ⟨.core, 0x2704, 1, 0x4, 0, 9, .rw, 0, .housekeeping, []⟩
def ASSY_WDEV_DEV : Fld := ⟨.core, 0x2708, 1, 0x4, 0, 16, .ro, 65535, .housekeeping, []⟩
def ASSY_WDEV_BOUND : Fld := ⟨.core, 0x2708, 1, 0x4, 16, 16, .ro, 65535, .housekeeping, []⟩
def ASSY_WRHO_RHO : Fld := ⟨.core, 0x270c, 1, 0x4, 0, 32, .ro, 16777216, .housekeeping, []⟩
def ASSY_WFLG_FLAGS : Fld := ⟨.core, 0x2710, 1, 0x4, 0, 16, .ro, 1025, .housekeeping, []⟩
def ASSY_WFLG_TRIGCNT : Fld := ⟨.core, 0x2710, 1, 0x4, 16, 8, .ro, 0, .housekeeping, []⟩
def ASSY_ACT_PROG_ACT : Fld := ⟨.core, 0x2780, 1, 0x4, 0, 1, .ro, 0, .housekeeping, []⟩
def ASSY_ACT_ADCCAL_ACT : Fld := ⟨.core, 0x2780, 1, 0x4, 1, 1, .ro, 0, .housekeeping, []⟩
def ASSY_ACT_TRACE_ACT : Fld := ⟨.core, 0x2780, 1, 0x4, 2, 1, .ro, 0, .housekeeping, []⟩
def ASSY_ACT_COLTAB_ACT : Fld := ⟨.core, 0x2780, 1, 0x4, 3, 1, .ro, 0, .housekeeping, []⟩
def ASSY_ACT_WINDOW : Fld := ⟨.core, 0x2780, 1, 0x4, 4, 1, .ro, 0, .housekeeping, []⟩
def ASSY_ACT_ADCCAL_LANE : Fld := ⟨.core, 0x2780, 1, 0x4, 16, 4, .ro, 0, .housekeeping, []⟩
def ASSY_ACT_TRACE_LANE : Fld := ⟨.core, 0x2780, 1, 0x4, 20, 4, .ro, 0, .housekeeping, []⟩
def ASSY_PROG_ARRAY : Fld := ⟨.core, 0x2784, 1, 0x4, 0, 9, .ro, 0, .housekeeping, []⟩
def ASSY_PROG_ROW : Fld := ⟨.core, 0x2784, 1, 0x4, 16, 10, .ro, 0, .housekeeping, []⟩
def ASSY_PROG_PAUSED : Fld := ⟨.core, 0x2784, 1, 0x4, 26, 1, .ro, 0, .housekeeping, []⟩
def ASSY_PROGCNT_RESTARTS : Fld := ⟨.core, 0x2788, 1, 0x4, 0, 16, .ro, 0, .housekeeping, []⟩
def ASSY_PROGCNT_FAILCOL : Fld := ⟨.core, 0x2788, 1, 0x4, 16, 8, .ro, 0, .housekeeping, []⟩
def ASSY_ADCIDX_LANE : Fld := ⟨.core, 0x278c, 1, 0x4, 0, 4, .rw, 0, .housekeeping, []⟩
def ASSY_ADCIDX_ADC : Fld := ⟨.core, 0x278c, 1, 0x4, 8, 8, .rw, 0, .housekeeping, [(136, 255)]⟩
def ASSY_ADCDATA_OFFS : Fld := ⟨.core, 0x2790, 1, 0x4, 0, 8, .ro, 0, .housekeeping, []⟩
def ASSY_ADCDATA_GTRIM : Fld := ⟨.core, 0x2790, 1, 0x4, 8, 8, .ro, 0, .housekeeping, []⟩
def ASSY_ADCDATA_STATE : Fld := ⟨.core, 0x2790, 1, 0x4, 16, 3, .ro, 0, .housekeeping, []⟩
def ASSY_TRACE_KP : Fld := ⟨.core, 0x2794, 1, 0x4, 0, 21, .ro, 1048576, .housekeeping, []⟩
def ASSY_TRACEOFS_ZP : Fld := ⟨.core, 0x2798, 1, 0x4, 0, 16, .ro, 0, .housekeeping, []⟩
def ASSY_TRACEOFS_UNTRACED : Fld := ⟨.core, 0x2798, 1, 0x4, 16, 1, .ro, 0, .housekeeping, []⟩
def ASSY_LTEST_DUE : Fld := ⟨.core, 0x279c, 1, 0x4, 0, 1, .ro, 0, .housekeeping, []⟩
def ASSY_LTEST_PREEMPT : Fld := ⟨.core, 0x279c, 1, 0x4, 1, 1, .ro, 0, .housekeeping, []⟩
def ASSY_LTEST_LAST_PASS : Fld := ⟨.core, 0x279c, 1, 0x4, 2, 1, .ro, 1, .housekeeping, []⟩
def ASSY_CNT_PROG_COUNT : Fld := ⟨.core, 0x27a0, 1, 0x4, 0, 32, .ro, 0, .housekeeping, []⟩
def ASSY_CNT_ADCCAL_COUNT : Fld := ⟨.core, 0x27a4, 1, 0x4, 0, 32, .ro, 0, .housekeeping, []⟩
def ASSY_CNT_PAUSE_COUNT : Fld := ⟨.core, 0x27a8, 1, 0x4, 0, 32, .ro, 0, .housekeeping, []⟩
def ASSY_CNT_LTEST_COUNT : Fld := ⟨.core, 0x27ac, 1, 0x4, 0, 32, .ro, 0, .housekeeping, []⟩
def CORE_ID_CORE : Fld := ⟨.core, 0x0, 1, 0x4, 0, 7, .ro, 0, .housekeeping, []⟩
def CORE_ID_DIE : Fld := ⟨.core, 0x0, 1, 0x4, 7, 3, .ro, 0, .housekeeping, []⟩
def CORE_ID_ENABLED : Fld := ⟨.core, 0x0, 1, 0x4, 10, 1, .ro, 0, .housekeeping, []⟩
def CORE_ID_FENCED : Fld := ⟨.core, 0x0, 1, 0x4, 11, 1, .ro, 0, .housekeeping, []⟩
def CORE_ID_HALF : Fld := ⟨.core, 0x0, 1, 0x4, 12, 1, .ro, 0, .housekeeping, []⟩
def CORE_CLK_CLK_REQ : Fld := ⟨.core, 0x4, 1, 0x4, 0, 6, .rw, 24, .housekeeping, [(33, 63)]⟩
def CORE_CLK_CLK_ACT : Fld := ⟨.core, 0x4, 1, 0x4, 8, 6, .ro, 24, .housekeeping, []⟩
def CORE_CLK_CHANGING : Fld := ⟨.core, 0x4, 1, 0x4, 14, 1, .ro, 0, .housekeeping, []⟩
def CORE_STAT_SLOT : Fld := ⟨.core, 0x8, 1, 0x4, 0, 2, .ro, 0, .housekeeping, []⟩
def CORE_STAT_RUNNING : Fld := ⟨.core, 0x8, 1, 0x4, 2, 1, .ro, 0, .housekeeping, []⟩
def CORE_STAT_BOUNDARY : Fld := ⟨.core, 0x8, 1, 0x4, 3, 1, .ro, 1, .housekeeping, []⟩
def CORE_STAT_STALL_Q : Fld := ⟨.core, 0x8, 1, 0x4, 4, 1, .ro, 0, .housekeeping, []⟩
def CORE_STAT_STALL_W : Fld := ⟨.core, 0x8, 1, 0x4, 5, 1, .ro, 0, .housekeeping, []⟩
def CORE_WDOG_STITCHMAX : Fld := ⟨.core, 0xc, 1, 0x4, 0, 17, .rw, 5000, .housekeeping, [(0, 99), (100001, 131071)]⟩
def CORE_SHWIN_SBASE : Fld := ⟨.core, 0x10, 1, 0x4, 0, 9, .rw, 0, .hub, []⟩
def CORE_SHWIN_SLEN : Fld := ⟨.core, 0x10, 1, 0x4, 16, 9, .rw, 0, .hub, [(257, 511)]⟩
def CORE_TCTL_VALID : Fld := ⟨.core, 0x100, 4, 0x20, 0, 1, .rw, 0, .hub, []⟩
def CORE_TCTL_PREEMPT : Fld := ⟨.core, 0x100, 4, 0x20, 1, 1, .rw, 0, .hub, []⟩
def CORE_TCTL_SUSPENDED : Fld := ⟨.core, 0x100, 4, 0x20, 2, 1, .ro, 0, .hub, []⟩
def CORE_TCTL_ENDED : Fld := ⟨.core, 0x100, 4, 0x20, 3, 1, .ro, 0, .hub, []⟩
def CORE_TCTL_TENANT : Fld := ⟨.core, 0x100, 4, 0x20, 16, 16, .rw, 0, .hub, []⟩
def CORE_TTAG_TASKTAG : Fld := ⟨.core, 0x104, 4, 0x20, 0, 16, .rw, 0, .hub, []⟩
def CORE_TTAG_TCTX : Fld := ⟨.core, 0x104, 4, 0x20, 16, 16, .rw, 0, .hub, []⟩
def CORE_TWIN_BASE : Fld := ⟨.core, 0x108, 4, 0x20, 0, 9, .rw, 0, .hub, []⟩
def CORE_TWIN_LEN : Fld := ⟨.core, 0x108, 4, 0x20, 16, 9, .rw, 0, .hub, [(257, 511)]⟩
def CORE_TPAT_BASE : Fld := ⟨.core, 0x10c, 4, 0x20, 0, 9, .rw, 0, .hub, []⟩
def CORE_TPAT_LEN : Fld := ⟨.core, 0x10c, 4, 0x20, 16, 9, .rw, 0, .hub, [(257, 511)]⟩
def CORE_TARR_ARR_LO : Fld := ⟨.core, 0x110, 4, 0x20, 0, 9, .rw, 0, .hub, []⟩
def CORE_TARR_ARR_HI : Fld := ⟨.core, 0x110, 4, 0x20, 16, 9, .rw, 0, .hub, []⟩
def CORE_TARR_ARR_EN : Fld := ⟨.core, 0x110, 4, 0x20, 31, 1, .rw, 0, .hub, []⟩
def CORE_TPC_PC : Fld := ⟨.core, 0x114, 4, 0x20, 0, 20, .rw, 0, .hub, []⟩
def SPAD_PERR_ADDR : Fld := ⟨.core, 0x1000, 1, 0x4, 0, 21, .ro, 0, .housekeeping, []⟩
def SPAD_PERR_PERSIST : Fld := ⟨.core, 0x1000, 1, 0x4, 21, 1, .ro, 0, .housekeeping, []⟩
def SPAD_PERR_PORT : Fld := ⟨.core, 0x1000, 1, 0x4, 22, 4, .ro, 0, .housekeeping, []⟩
def SPAD_PERR_VALID : Fld := ⟨.core, 0x1000, 1, 0x4, 31, 1, .w1c, 0, .housekeeping, []⟩
def SPAD_CNT_REPLAY_COUNT : Fld := ⟨.core, 0x1004, 1, 0x4, 0, 32, .ro, 0, .housekeeping, []⟩
def SPAD_CNT_PERSIST_COUNT : Fld := ⟨.core, 0x1008, 1, 0x4, 0, 32, .ro, 0, .housekeeping, []⟩
def SPAD_CNT_BOUND_COUNT : Fld := ⟨.core, 0x100c, 1, 0x4, 0, 32, .ro, 0, .housekeeping, []⟩
def SPAD_CNT_RDROP_COUNT : Fld := ⟨.core, 0x1010, 1, 0x4, 0, 32, .ro, 0, .housekeeping, []⟩
def ATTN_STAT_QUEUED : Fld := ⟨.core, 0x2800, 1, 0x4, 0, 4, .ro, 0, .housekeeping, []⟩
def ATTN_STAT_ACTIVE : Fld := ⟨.core, 0x2800, 1, 0x4, 4, 1, .ro, 0, .housekeeping, []⟩
def ATTN_CNT_CMD_COUNT : Fld := ⟨.core, 0x2804, 1, 0x4, 0, 32, .ro, 0, .housekeeping, []⟩
def ATTN_CNT_BYTES_COUNT : Fld := ⟨.core, 0x2808, 1, 0x4, 0, 32, .ro, 0, .housekeeping, []⟩
def VEC_STAT_QUEUED : Fld := ⟨.core, 0x2900, 1, 0x4, 0, 4, .ro, 0, .housekeeping, []⟩
def VEC_STAT_ACTIVE : Fld := ⟨.core, 0x2900, 1, 0x4, 4, 1, .ro, 0, .housekeeping, []⟩
def VEC_CNT_CMD_COUNT : Fld := ⟨.core, 0x2904, 1, 0x4, 0, 32, .ro, 0, .housekeeping, []⟩
def VEC_CNT_CHECK_COUNT : Fld := ⟨.core, 0x2908, 1, 0x4, 0, 32, .ro, 0, .housekeeping, []⟩
def PORT_CH_QUEUED : Fld := ⟨.core, 0x3000, 4, 0x4, 0, 4, .ro, 0, .housekeeping, []⟩
def PORT_CH_ACTIVE : Fld := ⟨.core, 0x3000, 4, 0x4, 4, 1, .ro, 0, .housekeeping, []⟩
def PORT_CH_FAULT : Fld := ⟨.core, 0x3000, 4, 0x4, 5, 1, .ro, 0, .housekeeping, []⟩
def PORT_APPEND_DESC : Fld := ⟨.core, 0x3010, 1, 0x4, 0, 8, .ro, 0, .housekeeping, []⟩
def PORT_APPEND_LINES : Fld := ⟨.core, 0x3010, 1, 0x4, 16, 11, .ro, 0, .housekeeping, []⟩
def PORT_CNT_DESC_COUNT : Fld := ⟨.core, 0x3014, 1, 0x4, 0, 32, .ro, 0, .housekeeping, []⟩
def PORT_CNT_BYTES_COUNT : Fld := ⟨.core, 0x3018, 1, 0x4, 0, 32, .ro, 0, .housekeeping, []⟩
def PORT_CNT_XLT_COUNT : Fld := ⟨.core, 0x301c, 1, 0x4, 0, 32, .ro, 0, .housekeeping, []⟩
def CORE_PATCTL_FILLWAIT : Fld := ⟨.core, 0x3100, 1, 0x4, 0, 17, .rw, 1000, .housekeeping, [(0, 9), (100001, 131071)]⟩
def CORE_PATCTL_POISON : Fld := ⟨.core, 0x3100, 1, 0x4, 24, 1, .rw, 0, .housekeeping, []⟩
def CORE_DSIDX_TASK : Fld := ⟨.core, 0x3104, 1, 0x4, 0, 2, .rw, 0, .hub, []⟩
def CORE_DSIDX_DSLOT : Fld := ⟨.core, 0x3104, 1, 0x4, 8, 5, .rw, 0, .hub, []⟩
def CORE_DSDEF_BASE : Fld := ⟨.core, 0x3108, 1, 0x4, 0, 21, .rw, 0, .hub, []⟩
def CORE_DSDEF_DEFINED : Fld := ⟨.core, 0x3108, 1, 0x4, 31, 1, .rw, 0, .hub, []⟩
def CORE_DSLEN_LEN : Fld := ⟨.core, 0x310c, 1, 0x4, 0, 21, .rw, 0, .hub, []⟩
def CORE_DSSTAT_FILLS : Fld := ⟨.core, 0x3110, 1, 0x4, 0, 8, .ro, 0, .hub, []⟩
def CORE_DSSTAT_FULL : Fld := ⟨.core, 0x3110, 1, 0x4, 8, 1, .ro, 0, .hub, []⟩
def CORE_DSSTAT_HELD : Fld := ⟨.core, 0x3110, 1, 0x4, 9, 1, .ro, 0, .hub, []⟩
def CORE_DSSTAT_LANDED : Fld := ⟨.core, 0x3110, 1, 0x4, 10, 21, .ro, 0, .hub, []⟩
def CORE_GATEST_TASK : Fld := ⟨.core, 0x3114, 1, 0x4, 0, 2, .ro, 0, .hub, []⟩
def CORE_GATEST_DSLOT : Fld := ⟨.core, 0x3114, 1, 0x4, 2, 5, .ro, 0, .hub, []⟩
def CORE_GATEST_FILL : Fld := ⟨.core, 0x3114, 1, 0x4, 8, 8, .ro, 0, .hub, []⟩
def CORE_GATEST_WAITING : Fld := ⟨.core, 0x3114, 1, 0x4, 16, 1, .ro, 0, .hub, []⟩
def CORE_CNT_GWAIT_COUNT : Fld := ⟨.core, 0x3118, 1, 0x4, 0, 32, .ro, 0, .housekeeping, []⟩
def CORE_CNT_FILLTO_COUNT : Fld := ⟨.core, 0x311c, 1, 0x4, 0, 32, .ro, 0, .housekeeping, []⟩
def CORE_CNT_OVERWR_COUNT : Fld := ⟨.core, 0x3120, 1, 0x4, 0, 32, .ro, 0, .housekeeping, []⟩
def CORE_CNT_UNFILL_COUNT : Fld := ⟨.core, 0x3124, 1, 0x4, 0, 32, .ro, 0, .housekeeping, []⟩
def ATTN_KVSTAB_VA_LO : Fld := ⟨.core, 0x3200, 4, 0x10, 0, 32, .rw, 0, .hub, []⟩
def ATTN_KVSTABH_VA_HI : Fld := ⟨.core, 0x3204, 4, 0x10, 0, 16, .rw, 0, .hub, []⟩
def ATTN_KVGEOM_D : Fld := ⟨.core, 0x3208, 4, 0x10, 0, 8, .rw, 1, .hub, [(0, 0)]⟩
def ATTN_KVGEOM_A : Fld := ⟨.core, 0x3208, 4, 0x10, 8, 8, .rw, 0, .hub, []⟩
def ATTN_KVGEOM_PSTRIDE : Fld := ⟨.core, 0x3208, 4, 0x10, 16, 11, .rw, 1, .hub, [(0, 0), (1277, 2047)]⟩
def ATTN_CNT_UFL_COUNT : Fld := ⟨.core, 0x3240, 1, 0x4, 0, 32, .ro, 0, .housekeeping, []⟩
def ATTN_CNT_NF_COUNT : Fld := ⟨.core, 0x3244, 1, 0x4, 0, 32, .ro, 0, .housekeeping, []⟩
def ATTN_CNT_FRESH_COUNT : Fld := ⟨.core, 0x3248, 1, 0x4, 0, 32, .ro, 0, .housekeeping, []⟩
def ATTN_CNT_FMISS_COUNT : Fld := ⟨.core, 0x324c, 1, 0x4, 0, 32, .ro, 0, .housekeeping, []⟩
def ATTN_CNT_APPEND_COUNT : Fld := ⟨.core, 0x3250, 1, 0x4, 0, 32, .ro, 0, .housekeeping, []⟩
def CORE_MTIME_NS : Fld := ⟨.core, 0x3300, 4, 0x10, 0, 32, .rc, 0, .hub, []⟩
def CORE_MARR_OPS : Fld := ⟨.core, 0x3304, 4, 0x10, 0, 32, .rc, 0, .hub, []⟩
def CORE_MDRAM_LINES : Fld := ⟨.core, 0x3308, 4, 0x10, 0, 32, .rc, 0, .hub, []⟩
def CORE_MLINK_LINES : Fld := ⟨.core, 0x330c, 4, 0x10, 0, 32, .rc, 0, .hub, []⟩
def CORE_MHOLD_HOLD : Fld := ⟨.core, 0x3340, 1, 0x4, 0, 4, .rw, 0, .hub, []⟩
def CORE_SEDCTL_RESID_EN : Fld := ⟨.core, 0x3400, 1, 0x4, 0, 1, .rw, 1, .housekeeping, []⟩
def CORE_CNT_CHKFAIL_COUNT : Fld := ⟨.core, 0x3404, 1, 0x4, 0, 32, .ro, 0, .housekeeping, []⟩
def CORE_CNT_RESID_COUNT : Fld := ⟨.core, 0x3408, 1, 0x4, 0, 32, .ro, 0, .housekeeping, []⟩
def CORE_CNT_DRAINCHK_COUNT : Fld := ⟨.core, 0x340c, 1, 0x4, 0, 32, .ro, 0, .housekeeping, []⟩
def MESH_STAT_ROUT_OUT : Fld := ⟨.die, 0x1000000, 1, 0x4, 0, 7, .ro, 0, .housekeeping, []⟩
def MESH_STAT_DETOUR : Fld := ⟨.die, 0x1000000, 1, 0x4, 7, 1, .ro, 0, .housekeeping, []⟩
def MESH_STAT_SEAM_LOST : Fld := ⟨.die, 0x1000000, 1, 0x4, 8, 1, .ro, 0, .housekeeping, []⟩
def MESH_HCLK_CODE : Fld := ⟨.die, 0x1000004, 2, 0x4, 0, 6, .rw, 24, .housekeeping, [(33, 63)]⟩
def MESH_HCLK_ACT : Fld := ⟨.die, 0x1000004, 2, 0x4, 8, 6, .ro, 24, .housekeeping, []⟩
def MESH_HCLK_CHANGING : Fld := ⟨.die, 0x1000004, 2, 0x4, 14, 1, .ro, 0, .housekeeping, []⟩
def MESH_HCLK_CAUSE : Fld := ⟨.die, 0x1000004, 2, 0x4, 16, 2, .ro, 0, .housekeeping, []⟩
def MESH_SEAM_SLOWSIDE : Fld := ⟨.die, 0x100000c, 1, 0x4, 0, 1, .ro, 0, .housekeeping, []⟩
def MESH_SEAM_PEAK_W2E : Fld := ⟨.die, 0x100000c, 1, 0x4, 6, 6, .ro, 0, .housekeeping, []⟩
def MESH_SEAM_PEAK_E2W : Fld := ⟨.die, 0x100000c, 1, 0x4, 12, 6, .ro, 0, .housekeeping, []⟩
def MESH_SEAM_RDCLR : Fld := ⟨.die, 0x100000c, 1, 0x4, 31, 1, .wo, 0, .housekeeping, []⟩
def MESH_RIDX_ROUTER : Fld := ⟨.die, 0x1000010, 1, 0x4, 0, 7, .rw, 0, .housekeeping, [(72, 127)]⟩
def MESH_RSTAT_OUT : Fld := ⟨.die, 0x1000014, 1, 0x4, 0, 1, .ro, 0, .housekeeping, []⟩
def MESH_RSTAT_REASON : Fld := ⟨.die, 0x1000014, 1, 0x4, 1, 2, .ro, 0, .housekeeping, []⟩
def MESH_RSTAT_BADPORT : Fld := ⟨.die, 0x1000014, 1, 0x4, 3, 4, .ro, 0, .housekeeping, []⟩
def MESH_ROUTE_EPOCH : Fld := ⟨.die, 0x1000018, 1, 0x4, 0, 16, .ro, 0, .housekeeping, []⟩
def MESH_ROUTE_BUSY : Fld := ⟨.die, 0x1000018, 1, 0x4, 16, 1, .ro, 0, .housekeeping, []⟩
def MESH_BAR_OPEN : Fld := ⟨.die, 0x100001c, 1, 0x4, 0, 1, .ro, 0, .housekeeping, []⟩
def MESH_BAR_ARRIVED : Fld := ⟨.die, 0x100001c, 1, 0x4, 1, 7, .ro, 0, .housekeeping, []⟩
def MESH_CNT_REPLAY_COUNT : Fld := ⟨.die, 0x1000020, 1, 0x4, 0, 32, .ro, 0, .housekeeping, []⟩
def MESH_CNT_W2E_COUNT : Fld := ⟨.die, 0x1000024, 1, 0x4, 0, 32, .ro, 0, .housekeeping, []⟩
def MESH_CNT_E2W_COUNT : Fld := ⟨.die, 0x1000028, 1, 0x4, 0, 32, .ro, 0, .housekeeping, []⟩
def MESH_CNT_THR0_COUNT : Fld := ⟨.die, 0x100002c, 1, 0x4, 0, 32, .ro, 0, .housekeeping, []⟩
def MESH_CNT_THR1_COUNT : Fld := ⟨.die, 0x1000030, 1, 0x4, 0, 32, .ro, 0, .housekeeping, []⟩
def MESH_CNT_DETOUR_COUNT : Fld := ⟨.die, 0x1000034, 1, 0x4, 0, 32, .ro, 0, .housekeeping, []⟩
def MEMC_CTRL_STRENGTH_NEXT : Fld := ⟨.die, 0x1001000, 2, 0x400, 0, 2, .rw, 1, .housekeeping, [(3, 3)]⟩
def MEMC_CTRL_STRENGTH_ACT : Fld := ⟨.die, 0x1001000, 2, 0x400, 2, 2, .ro, 1, .housekeeping, []⟩
def MEMC_CTRL_SCRUB_EN : Fld := ⟨.die, 0x1001000, 2, 0x400, 4, 1, .rw, 1, .housekeeping, []⟩
def MEMC_STAT_TRAINED : Fld := ⟨.die, 0x1001004, 2, 0x400, 0, 1, .ro, 0, .housekeeping, []⟩
def MEMC_STAT_FILLING : Fld := ⟨.die, 0x1001004, 2, 0x400, 1, 1, .ro, 0, .housekeeping, []⟩
def MEMC_STAT_FILLED : Fld := ⟨.die, 0x1001004, 2, 0x400, 2, 1, .ro, 0, .housekeeping, []⟩
def MEMC_STAT_SCRUB_BEHIND : Fld := ⟨.die, 0x1001004, 2, 0x400, 3, 1, .ro, 0, .housekeeping, []⟩
def MEMC_STAT_RM_USED : Fld := ⟨.die, 0x1001004, 2, 0x400, 4, 5, .ro, 0, .housekeeping, []⟩
def MEMC_STAT_RM_FULL : Fld := ⟨.die, 0x1001004, 2, 0x400, 9, 1, .ro, 0, .housekeeping, []⟩
def MEMC_SCRUBINT_INTERVAL : Fld := ⟨.die, 0x1001008, 2, 0x400, 0, 27, .rw, 3433227, .housekeeping, [(0, 143050), (102996827, 134217727)]⟩
def MEMC_SCRUBPOS_FOLIO : Fld := ⟨.die, 0x100100c, 2, 0x400, 0, 25, .ro, 0, .housekeeping, []⟩
def MEMC_ERRFOLIO_FOLIO : Fld := ⟨.die, 0x1001010, 2, 0x400, 0, 25, .ro, 0, .housekeeping, []⟩
def MEMC_ERRFOLIO_UNCORR : Fld := ⟨.die, 0x1001010, 2, 0x400, 30, 1, .ro, 0, .housekeeping, []⟩
def MEMC_ERRFOLIO_VALID : Fld := ⟨.die, 0x1001010, 2, 0x400, 31, 1, .w1c, 0, .housekeeping, []⟩
def MEMC_ERRINFO_CODEWORD : Fld := ⟨.die, 0x1001014, 2, 0x400, 0, 4, .ro, 0, .housekeeping, []⟩
def MEMC_ERRINFO_SYMBOLS : Fld := ⟨.die, 0x1001014, 2, 0x400, 4, 3, .ro, 0, .housekeeping, []⟩
def MEMC_ERRINFO_SOURCE : Fld := ⟨.die, 0x1001014, 2, 0x400, 8, 2, .ro, 0, .housekeeping, []⟩
def MEMC_RMIDX_ENTRY : Fld := ⟨.die, 0x1001018, 2, 0x400, 0, 4, .rw, 0, .housekeeping, []⟩
def MEMC_RMDATA_FOLIO : Fld := ⟨.die, 0x100101c, 2, 0x400, 0, 25, .ro, 0, .housekeeping, []⟩
def MEMC_RMDATA_VALID : Fld := ⟨.die, 0x100101c, 2, 0x400, 31, 1, .ro, 0, .housekeeping, []⟩
def MEMC_CNT_CORR_COUNT : Fld := ⟨.die, 0x1001020, 2, 0x400, 0, 32, .ro, 0, .housekeeping, []⟩
def MEMC_CNT_REREAD_COUNT : Fld := ⟨.die, 0x1001024, 2, 0x400, 0, 32, .ro, 0, .housekeeping, []⟩
def MEMC_CNT_UNCORR_COUNT : Fld := ⟨.die, 0x1001028, 2, 0x400, 0, 32, .ro, 0, .housekeeping, []⟩
def MEMC_CNT_RMW_COUNT : Fld := ⟨.die, 0x100102c, 2, 0x400, 0, 32, .ro, 0, .housekeeping, []⟩
def MEMC_CNT_SCRUB_COUNT : Fld := ⟨.die, 0x1001030, 2, 0x400, 0, 32, .ro, 0, .housekeeping, []⟩
def MEMC_CNT_PROREMAP_COUNT : Fld := ⟨.die, 0x1001034, 2, 0x400, 0, 32, .ro, 0, .housekeeping, []⟩
def MEMC_CTXBASE_BASE : Fld := ⟨.die, 0x1001800, 1, 0x4, 0, 28, .rw, 0, .hub, []⟩
def MEMC_INVCMD_TCTX : Fld := ⟨.die, 0x1001804, 1, 0x4, 0, 16, .wo, 0, .hub, []⟩
def MEMC_INVCMD_WHOLE : Fld := ⟨.die, 0x1001804, 1, 0x4, 16, 1, .wo, 0, .hub, []⟩
def MEMC_INVCMD_GO : Fld := ⟨.die, 0x1001804, 1, 0x4, 17, 1, .wo, 0, .hub, []⟩
def MEMC_INVVA_PAGE : Fld := ⟨.die, 0x1001808, 1, 0x4, 0, 32, .rw, 0, .hub, []⟩
def MEMC_INVLEN_PAGES : Fld := ⟨.die, 0x100180c, 1, 0x4, 0, 32, .rw, 0, .hub, []⟩
def MEMC_INVSTAT_BUSY : Fld := ⟨.die, 0x1001810, 1, 0x4, 0, 1, .ro, 0, .hub, []⟩
def MEMC_INVSTAT_SEQ : Fld := ⟨.die, 0x1001810, 1, 0x4, 8, 8, .ro, 0, .hub, []⟩
def MEMC_XRESP_CORE : Fld := ⟨.die, 0x1001814, 1, 0x4, 0, 7, .wo, 0, .hub, []⟩
def MEMC_XRESP_UNIT : Fld := ⟨.die, 0x1001814, 1, 0x4, 7, 3, .wo, 0, .hub, [(5, 7)]⟩
def MEMC_XRESP_ACTION : Fld := ⟨.die, 0x1001814, 1, 0x4, 10, 2, .wo, 0, .hub, [(0, 0), (3, 3)]⟩
def MEMC_CNT_WALK_COUNT : Fld := ⟨.die, 0x1001818, 1, 0x4, 0, 32, .ro, 0, .housekeeping, []⟩
def MEMC_CNT_XFAULT_COUNT : Fld := ⟨.die, 0x100181c, 1, 0x4, 0, 32, .ro, 0, .housekeeping, []⟩
def LINK_CTRL_EN : Fld := ⟨.die, 0x1002000, 6, 0x80, 0, 1, .rw, 1, .housekeeping, []⟩
def LINK_CTRL_RETRAIN : Fld := ⟨.die, 0x1002000, 6, 0x80, 1, 1, .wo, 0, .housekeeping, []⟩
def LINK_CTRL_WIDTHPOL : Fld := ⟨.die, 0x1002000, 6, 0x80, 2, 2, .rw, 0, .housekeeping, [(2, 3)]⟩
def LINK_STAT_STATE : Fld := ⟨.die, 0x1002004, 6, 0x80, 0, 3, .ro, 0, .housekeeping, []⟩
def LINK_STAT_CLASS : Fld := ⟨.die, 0x1002004, 6, 0x80, 3, 3, .ro, 0, .housekeeping, []⟩
def LINK_STAT_INTERNAL : Fld := ⟨.die, 0x1002004, 6, 0x80, 6, 1, .ro, 0, .housekeeping, []⟩
def LINK_STAT_X2 : Fld := ⟨.die, 0x1002004, 6, 0x80, 7, 1, .ro, 0, .housekeeping, []⟩
def LINK_STAT_VERSION : Fld := ⟨.die, 0x1002004, 6, 0x80, 8, 8, .ro, 0, .housekeeping, []⟩
def LINK_STAT_MISREASON : Fld := ⟨.die, 0x1002004, 6, 0x80, 16, 4, .ro, 0, .housekeeping, []⟩
def LINK_PARTNER_DIE : Fld := ⟨.die, 0x1002008, 6, 0x80, 0, 14, .ro, 0, .housekeeping, []⟩
def LINK_PARTNER_PORT : Fld := ⟨.die, 0x1002008, 6, 0x80, 14, 3, .ro, 0, .housekeeping, []⟩
def LINK_PARTNER_VALID : Fld := ⟨.die, 0x1002008, 6, 0x80, 17, 1, .ro, 0, .housekeeping, []⟩
def LINK_CNT_FECCORR_COUNT : Fld := ⟨.die, 0x100200c, 6, 0x80, 0, 32, .ro, 0, .housekeeping, []⟩
def LINK_CNT_FECUNC_COUNT : Fld := ⟨.die, 0x1002010, 6, 0x80, 0, 32, .ro, 0, .housekeeping, []⟩
def LINK_CNT_REPLAY_COUNT : Fld := ⟨.die, 0x1002014, 6, 0x80, 0, 32, .ro, 0, .housekeeping, []⟩
def LINK_CNT_FRETRAIN_COUNT : Fld := ⟨.die, 0x1002018, 6, 0x80, 0, 32, .ro, 0, .housekeeping, []⟩
def LINK_CNT_TXFLIT_COUNT : Fld := ⟨.die, 0x100201c, 6, 0x80, 0, 32, .ro, 0, .housekeeping, []⟩
def LINK_CNT_RXFLIT_COUNT : Fld := ⟨.die, 0x1002020, 6, 0x80, 0, 32, .ro, 0, .housekeeping, []⟩
def LINK_CNT_DROP_COUNT : Fld := ⟨.die, 0x1002024, 6, 0x80, 0, 32, .ro, 0, .housekeeping, []⟩
def LINK_FAB_DIE : Fld := ⟨.die, 0x1002400, 1, 0x4, 0, 14, .rw, 0, .hub, []⟩
def LINK_FAB_PLANNED : Fld := ⟨.die, 0x1002400, 1, 0x4, 14, 1, .rw, 0, .hub, []⟩
def LINK_FAB_EPOCH : Fld := ⟨.die, 0x1002400, 1, 0x4, 15, 1, .rw, 0, .hub, []⟩
def LINK_FAB_BUSY : Fld := ⟨.die, 0x1002400, 1, 0x4, 16, 1, .rw, 0, .hub, []⟩
def LINK_RIDX_DEST : Fld := ⟨.die, 0x1002404, 1, 0x4, 0, 14, .rw, 0, .hub, []⟩
def LINK_RIDX_TBL : Fld := ⟨.die, 0x1002404, 1, 0x4, 14, 1, .rw, 0, .hub, []⟩
def LINK_RDATA_DOR_PORT : Fld := ⟨.die, 0x1002408, 1, 0x4, 0, 3, .rw, 7, .hub, []⟩
def LINK_RDATA_DOR_OK : Fld := ⟨.die, 0x1002408, 1, 0x4, 3, 1, .rw, 0, .hub, []⟩
def LINK_RDATA_ESC_PORT : Fld := ⟨.die, 0x1002408, 1, 0x4, 4, 3, .rw, 7, .hub, []⟩
def LINK_RDATA_REACH : Fld := ⟨.die, 0x1002408, 1, 0x4, 7, 1, .rw, 0, .hub, []⟩
def LINK_BAR_GROUP : Fld := ⟨.die, 0x100240c, 1, 0x4, 0, 4, .rw, 0, .hub, []⟩
def LINK_BAR_OPEN : Fld := ⟨.die, 0x100240c, 1, 0x4, 4, 1, .ro, 0, .hub, []⟩
def LINK_BAR_CORES : Fld := ⟨.die, 0x100240c, 1, 0x4, 5, 1, .rw, 0, .hub, []⟩
def LINK_BAR_KIND : Fld := ⟨.die, 0x100240c, 1, 0x4, 6, 2, .rw, 0, .hub, []⟩
def LINK_BAR_DEPTH : Fld := ⟨.die, 0x100240c, 1, 0x4, 8, 8, .rw, 0, .hub, []⟩
def LINK_BAR_SEQ : Fld := ⟨.die, 0x100240c, 1, 0x4, 16, 16, .rw, 0, .hub, []⟩
def LINK_CNT_ESC_COUNT : Fld := ⟨.die, 0x1002410, 1, 0x4, 0, 32, .ro, 0, .housekeeping, []⟩
def LINK_CNT_UNREACH_COUNT : Fld := ⟨.die, 0x1002414, 1, 0x4, 0, 32, .ro, 0, .housekeeping, []⟩
def FLT_STAT_COUNT : Fld := ⟨.die, 0x1003000, 1, 0x4, 0, 7, .ro, 0, .housekeeping, []⟩
def FLT_STAT_OPEN : Fld := ⟨.die, 0x1003000, 1, 0x4, 8, 3, .ro, 0, .housekeeping, []⟩
def FLT_STAT_UNACK : Fld := ⟨.die, 0x1003000, 1, 0x4, 16, 7, .ro, 0, .housekeeping, []⟩
def FLT_STAT_TEST : Fld := ⟨.die, 0x1003000, 1, 0x4, 24, 1, .ro, 0, .housekeeping, []⟩
def FLT_STAT_CAPTURE : Fld := ⟨.die, 0x1003000, 1, 0x4, 25, 1, .ro, 1, .housekeeping, []⟩
def FLT_LIDX_INDEX : Fld := ⟨.die, 0x1003004, 1, 0x4, 0, 6, .rw, 0, .housekeeping, []⟩
def FLT_LDATA_DATA : Fld := ⟨.die, 0x1003008, 8, 0x4, 0, 32, .ro, 0, .housekeeping, []⟩
def FLT_FORCE_CODE : Fld := ⟨.die, 0x1003028, 1, 0x4, 0, 16, .rw, 0, .housekeeping, []⟩
def FLT_FORCE_GO : Fld := ⟨.die, 0x1003028, 1, 0x4, 31, 1, .wo, 0, .housekeeping, []⟩
def FLT_FORCEI_INSTANCE : Fld := ⟨.die, 0x100302c, 1, 0x4, 0, 16, .rw, 0, .housekeeping, []⟩
def FLT_FENCE_CORES : Fld := ⟨.die, 0x1003030, 3, 0x4, 0, 32, .ro, 0, .housekeeping, []⟩
def FLT_COVER_HOST : Fld := ⟨.die, 0x1003040, 8, 0x4, 0, 7, .rw, 0, .hub, []⟩
def FLT_COVER_SOURCE : Fld := ⟨.die, 0x1003040, 8, 0x4, 7, 7, .rw, 0, .hub, []⟩
def FLT_COVER_SDIE : Fld := ⟨.die, 0x1003040, 8, 0x4, 14, 3, .rw, 0, .hub, []⟩
def FLT_COVER_VALID : Fld := ⟨.die, 0x1003040, 8, 0x4, 31, 1, .rw, 0, .hub, []⟩
def FLT_STICKY_BITS : Fld := ⟨.die, 0x1003060, 10, 0x4, 0, 32, .w1c, 0, .housekeeping, []⟩
def FLT_CNT_F_COUNT : Fld := ⟨.die, 0x1003088, 5, 0x4, 0, 32, .ro, 0, .housekeeping, []⟩
def THRM_STAT_TMAX : Fld := ⟨.die, 0x1004000, 1, 0x4, 0, 16, .ro, 0, .housekeeping, []⟩
def THRM_STAT_HOTCORE : Fld := ⟨.die, 0x1004000, 1, 0x4, 16, 7, .ro, 0, .housekeeping, []⟩
def THRM_STAT_VALIDS : Fld := ⟨.die, 0x1004000, 1, 0x4, 24, 5, .ro, 24, .housekeeping, []⟩
def THRM_STAT_STOPREQ : Fld := ⟨.die, 0x1004000, 1, 0x4, 29, 1, .ro, 0, .housekeeping, []⟩
def THRM_HALF_TCODE : Fld := ⟨.die, 0x1004004, 2, 0x4, 0, 6, .ro, 24, .housekeeping, []⟩
def THRM_HALF_CAPCODE : Fld := ⟨.die, 0x1004004, 2, 0x4, 6, 6, .ro, 24, .housekeeping, []⟩
def THRM_HALF_WINCODE : Fld := ⟨.die, 0x1004004, 2, 0x4, 12, 6, .ro, 24, .housekeeping, []⟩
def THRM_HALF_WINREQ : Fld := ⟨.die, 0x1004004, 2, 0x4, 18, 1, .ro, 0, .housekeeping, []⟩
def THRM_HALF_WINOPEN : Fld := ⟨.die, 0x1004004, 2, 0x4, 19, 1, .ro, 0, .housekeeping, []⟩
def THRM_HALF_RISELIM : Fld := ⟨.die, 0x1004004, 2, 0x4, 20, 1, .ro, 0, .housekeeping, []⟩
def THRM_SIDX_SENSOR : Fld := ⟨.die, 0x100400c, 1, 0x4, 0, 5, .rw, 0, .housekeeping, [(24, 31)]⟩
def THRM_SDATA_TEMP : Fld := ⟨.die, 0x1004010, 1, 0x4, 0, 16, .ro, 0, .housekeeping, []⟩
def THRM_SDATA_VALID : Fld := ⟨.die, 0x1004010, 1, 0x4, 16, 1, .ro, 1, .housekeeping, []⟩
def THRM_CIDX_CORE : Fld := ⟨.die, 0x1004014, 1, 0x4, 0, 7, .rw, 0, .housekeeping, [(72, 127)]⟩
def THRM_CDATA_TJ : Fld := ⟨.die, 0x1004018, 1, 0x4, 0, 16, .ro, 0, .housekeeping, []⟩
def THRM_CDATA_POWER : Fld := ⟨.die, 0x1004018, 1, 0x4, 16, 16, .ro, 0, .housekeeping, []⟩
def THRM_SET_SET : Fld := ⟨.die, 0x100401c, 1, 0x4, 0, 8, .rw, 190, .housekeeping, []⟩
def THRM_SET_GAIN : Fld := ⟨.die, 0x100401c, 1, 0x4, 8, 8, .rw, 50, .housekeeping, []⟩
def THRM_SET_RISE : Fld := ⟨.die, 0x100401c, 1, 0x4, 16, 8, .rw, 20, .housekeeping, []⟩
def THRM_CNT_DROP_COUNT : Fld := ⟨.die, 0x1004020, 1, 0x4, 0, 32, .ro, 0, .housekeeping, []⟩
def THRM_CNT_RISE_COUNT : Fld := ⟨.die, 0x1004024, 1, 0x4, 0, 32, .ro, 0, .housekeeping, []⟩
def THRM_CNT_WIN_COUNT : Fld := ⟨.die, 0x1004028, 1, 0x4, 0, 32, .ro, 0, .housekeeping, []⟩
def HUB_SIGSTAT_MEN_IN : Fld := ⟨.hub, 0x400, 1, 0x4, 0, 1, .ro, 1, .hub, []⟩
def HUB_SIGSTAT_STOP_IN : Fld := ⟨.hub, 0x400, 1, 0x4, 1, 1, .ro, 0, .hub, []⟩
def HUB_SIGSTAT_PERST_IN : Fld := ⟨.hub, 0x400, 1, 0x4, 2, 1, .ro, 0, .hub, []⟩
def HUB_SIGSTAT_FAULT_OUT : Fld := ⟨.hub, 0x400, 1, 0x4, 3, 1, .ro, 0, .hub, []⟩
def HUB_SIGSTAT_SAFE_OUT : Fld := ⟨.hub, 0x400, 1, 0x4, 4, 1, .ro, 1, .hub, []⟩
def HUB_SIGSTAT_PG_OUT : Fld := ⟨.hub, 0x400, 1, 0x4, 5, 1, .ro, 1, .hub, []⟩
def HUB_SIGSTAT_REFCLK_OK : Fld := ⟨.hub, 0x400, 1, 0x4, 6, 1, .ro, 0, .hub, []⟩
def HUB_SIGSTAT_REFSEL : Fld := ⟨.hub, 0x400, 1, 0x4, 7, 1, .ro, 0, .hub, []⟩
def HUB_SIGSTAT_REFCAL_OK : Fld := ⟨.hub, 0x400, 1, 0x4, 8, 1, .ro, 0, .hub, []⟩
def HUB_SIGSTAT_MOD_STATE : Fld := ⟨.hub, 0x400, 1, 0x4, 16, 8, .ro, 1, .hub, []⟩
def HUB_INSTAGE_VIN : Fld := ⟨.hub, 0x404, 1, 0x4, 0, 12, .ro, 0, .hub, []⟩
def HUB_INSTAGE_VLOW : Fld := ⟨.hub, 0x404, 1, 0x4, 12, 1, .ro, 0, .hub, []⟩
def HUB_INSTAGE_VHIGH : Fld := ⟨.hub, 0x404, 1, 0x4, 13, 1, .ro, 0, .hub, []⟩
def HUB_INSTAGE_HOLDUP : Fld := ⟨.hub, 0x404, 1, 0x4, 14, 1, .ro, 0, .hub, []⟩
def HUB_INSTAGE_PRECHG_DONE : Fld := ⟨.hub, 0x404, 1, 0x4, 15, 1, .ro, 0, .hub, []⟩
def HUB_INSTAGE_IIN : Fld := ⟨.hub, 0x404, 1, 0x4, 16, 8, .ro, 0, .hub, []⟩
def HUB_INSTAGE_LASTOFF : Fld := ⟨.hub, 0x404, 1, 0x4, 24, 4, .ro, 0, .hub, []⟩
def HUB_BOOTSTAT_PHASE : Fld := ⟨.hub, 0x408, 1, 0x4, 0, 8, .ro, 1, .hub, []⟩
def HUB_BOOTSTAT_STOPPHASE : Fld := ⟨.hub, 0x408, 1, 0x4, 8, 8, .ro, 0, .hub, []⟩
def HUB_BOOTSTAT_SLOT : Fld := ⟨.hub, 0x408, 1, 0x4, 16, 1, .ro, 0, .hub, []⟩
def HUB_BOOTSTAT_SLOTFALLBACK : Fld := ⟨.hub, 0x408, 1, 0x4, 17, 1, .ro, 0, .hub, []⟩
def HUB_BOOTSTAT_RECOVERY : Fld := ⟨.hub, 0x408, 1, 0x4, 18, 1, .ro, 0, .hub, []⟩
def HUB_BOOTSTAT_REUSE_OK : Fld := ⟨.hub, 0x408, 1, 0x4, 19, 1, .ro, 0, .hub, []⟩
def HUB_BOOTSTAT_DEGRADED : Fld := ⟨.hub, 0x408, 1, 0x4, 20, 1, .ro, 0, .hub, []⟩
def HUB_BOOTSTAT_RESETKIND : Fld := ⟨.hub, 0x408, 1, 0x4, 24, 4, .ro, 0, .hub, []⟩
def HUB_DISPSTAT_RUNQ : Fld := ⟨.hub, 0x500, 1, 0x4, 0, 19, .ro, 0, .hub, []⟩
def HUB_DISPSTAT_INFL : Fld := ⟨.hub, 0x500, 1, 0x4, 20, 5, .ro, 0, .hub, []⟩
def HUB_DISPSTAT_HELD : Fld := ⟨.hub, 0x500, 1, 0x4, 25, 1, .ro, 0, .hub, []⟩
def HUB_GATESTAT_COMMITS : Fld := ⟨.hub, 0x504, 1, 0x4, 0, 16, .ro, 0, .hub, []⟩
def HUB_GATESTAT_ABANDONS : Fld := ⟨.hub, 0x504, 1, 0x4, 16, 16, .ro, 0, .hub, []⟩
def HUB_AUDSTAT_ACTIVE : Fld := ⟨.hub, 0x508, 1, 0x4, 0, 4, .ro, 0, .hub, []⟩
def HUB_AUDSTAT_HELD : Fld := ⟨.hub, 0x508, 1, 0x4, 4, 4, .ro, 0, .hub, []⟩
def HUB_AUDSTAT_INFL : Fld := ⟨.hub, 0x508, 1, 0x4, 8, 8, .ro, 0, .hub, []⟩
def FLT_MSTAT_COUNT : Fld := ⟨.hub, 0x600, 1, 0x4, 0, 9, .ro, 0, .hub, []⟩
def FLT_MSTAT_OPEN : Fld := ⟨.hub, 0x600, 1, 0x4, 9, 3, .ro, 0, .hub, []⟩
def FLT_MSTAT_UNACK : Fld := ⟨.hub, 0x600, 1, 0x4, 12, 9, .ro, 0, .hub, []⟩
def FLT_MSTAT_TEST : Fld := ⟨.hub, 0x600, 1, 0x4, 21, 1, .ro, 0, .hub, []⟩
def FLT_MSTAT_CAPTURE : Fld := ⟨.hub, 0x600, 1, 0x4, 22, 1, .ro, 1, .hub, []⟩
def FLT_MSTAT_SAFE : Fld := ⟨.hub, 0x600, 1, 0x4, 23, 1, .ro, 0, .hub, []⟩
def FLT_MSTAT_GRAVE : Fld := ⟨.hub, 0x600, 1, 0x4, 24, 1, .ro, 0, .hub, []⟩
def FLT_MSTAT_DIEREACT : Fld := ⟨.hub, 0x600, 1, 0x4, 25, 2, .ro, 0, .hub, []⟩
def FLT_MSTAT_LINKREACT : Fld := ⟨.hub, 0x600, 1, 0x4, 27, 2, .ro, 0, .hub, []⟩
def FLT_MLIDX_INDEX : Fld := ⟨.hub, 0x604, 1, 0x4, 0, 8, .rw, 0, .hubOrHost, []⟩
def FLT_MLDATA_DATA : Fld := ⟨.hub, 0x608, 8, 0x4, 0, 32, .ro, 0, .hub, []⟩
def FLT_MSTICKYA_BITS : Fld := ⟨.hub, 0x628, 2, 0x4, 0, 32, .ro, 0, .hub, []⟩
def FLT_MLOST_LOST : Fld := ⟨.hub, 0x630, 1, 0x4, 0, 32, .ro, 0, .hub, []⟩
def FLT_MSTICKYB_BITS : Fld := ⟨.hub, 0x634, 3, 0x4, 0, 32, .ro, 0, .hub, []⟩
def HUB_PWRSTAT_PIN : Fld := ⟨.hub, 0x700, 1, 0x4, 0, 12, .ro, 0, .hub, []⟩
def HUB_PWRSTAT_CAPCODE : Fld := ⟨.hub, 0x700, 1, 0x4, 12, 6, .ro, 24, .hub, []⟩
def HUB_PWRSTAT_CAPACT : Fld := ⟨.hub, 0x700, 1, 0x4, 18, 1, .ro, 0, .hub, []⟩
def HUB_PWRSTAT_PEAKACT : Fld := ⟨.hub, 0x700, 1, 0x4, 19, 1, .ro, 0, .hub, []⟩
def HUB_PWRSTAT_AF : Fld := ⟨.hub, 0x700, 1, 0x4, 20, 1, .ro, 0, .hub, []⟩
def HUB_DIEPWR_POWER : Fld := ⟨.hub, 0x710, 8, 0x4, 0, 16, .ro, 0, .hub, []⟩
def HUB_MBCTRL_LEN : Fld := ⟨.hub, 0x800, 1, 0x4, 0, 12, .rw, 0, .hubOrHost, [(2049, 4095)]⟩
def HUB_MBCTRL_GO : Fld := ⟨.hub, 0x800, 1, 0x4, 16, 1, .wo, 0, .hubOrHost, []⟩
def HUB_MBCTRL_IRQEN : Fld := ⟨.hub, 0x800, 1, 0x4, 17, 1, .rw, 0, .hubOrHost, []⟩
def HUB_MBSTAT_RLEN : Fld := ⟨.hub, 0x804, 1, 0x4, 0, 12, .ro, 0, .hubOrHost, []⟩
def HUB_MBSTAT_BUSY : Fld := ⟨.hub, 0x804, 1, 0x4, 16, 1, .ro, 0, .hubOrHost, []⟩
def HUB_MBSTAT_DONE : Fld := ⟨.hub, 0x804, 1, 0x4, 17, 1, .w1c, 0, .hubOrHost, []⟩
def HUB_MBSTAT_AVAIL : Fld := ⟨.hub, 0x804, 1, 0x4, 18, 1, .ro, 0, .hubOrHost, []⟩
def HUB_HIFCTRL_EN : Fld := ⟨.hub, 0x2000, 1, 0x4, 0, 1, .rw, 0, .hubOrHost, []⟩
def HUB_HIFSTAT_RDY : Fld := ⟨.hub, 0x2004, 1, 0x4, 0, 1, .ro, 0, .hub, []⟩
def HUB_HIFSTAT_ACTIVE : Fld := ⟨.hub, 0x2004, 1, 0x4, 1, 1, .ro, 0, .hub, []⟩
def HUB_HIFSTAT_HALTED : Fld := ⟨.hub, 0x2004, 1, 0x4, 2, 1, .ro, 0, .hub, []⟩
def HUB_HIFSTAT_EPOCH : Fld := ⟨.hub, 0x2004, 1, 0x4, 8, 8, .ro, 0, .hub, []⟩
def HUB_HIFCAUSE_MBDONE : Fld := ⟨.hub, 0x2008, 1, 0x4, 0, 1, .w1c, 0, .hubOrHost, []⟩
def HUB_HIFCAUSE_CPER : Fld := ⟨.hub, 0x2008, 1, 0x4, 1, 1, .w1c, 0, .hubOrHost, []⟩
def HUB_HIFCAUSE_LEDGER : Fld := ⟨.hub, 0x2008, 1, 0x4, 2, 1, .w1c, 0, .hubOrHost, []⟩
def HUB_HIFCAUSE_STATE : Fld := ⟨.hub, 0x2008, 1, 0x4, 3, 1, .w1c, 0, .hubOrHost, []⟩
def HUB_HIFCAUSE_QERR : Fld := ⟨.hub, 0x2008, 1, 0x4, 4, 1, .w1c, 0, .hubOrHost, []⟩
def HUB_HIFCAUSEEN_EN : Fld := ⟨.hub, 0x200c, 1, 0x4, 0, 5, .rw, 0, .hubOrHost, []⟩
def HUB_HIFQERR_QUEUE : Fld := ⟨.hub, 0x2010, 1, 0x4, 0, 18, .ro, 0, .hubOrHost, []⟩
def HUB_HIFQERR_ADMIN : Fld := ⟨.hub, 0x2010, 1, 0x4, 18, 1, .ro, 0, .hubOrHost, []⟩
def HUB_HIFQERR_REASON : Fld := ⟨.hub, 0x2010, 1, 0x4, 19, 3, .ro, 0, .hubOrHost, []⟩
def HUB_HIFQERR_VALID : Fld := ⟨.hub, 0x2010, 1, 0x4, 31, 1, .w1c, 0, .hubOrHost, []⟩
def HUB_HIFCPER_COUNT : Fld := ⟨.hub, 0x2014, 1, 0x4, 0, 32, .ro, 0, .hub, []⟩

end F

/-- Register fields, part 0. -/
def regMap0 : List Fld :=
  [F.LOOM_CTRL_FRUGAL, F.LOOM_CTRL_SPCHK_EN, F.LOOM_STAT_LANE_FENCED, F.LOOM_STAT_FRUGAL_ACT,
   F.LOOM_BUDGET_BUDGET, F.LOOM_SPCHK_THRESH, F.LOOM_SPCHK_STRIKES, F.LOOM_SPCHK_WINDOW,
   F.LOOM_OPCNT_LO_COUNT, F.LOOM_OPCNT_HI_COUNT, F.LOOM_SKIPCNT_COUNT, F.LOOM_SPLITCNT_COUNT]

/-- Register fields, part 1. -/
def regMap1 : List Fld :=
  [F.LOOM_RTZCNT_COUNT, F.LOOM_CLIPCNT_COUNT, F.LOOM_SPUSE_USE, F.LOOM_IDX_ARRAY,
   F.LOOM_IDX_ENTRY, F.LOOM_IDX_TABLE, F.LOOM_IDATA_DATA, F.LOOM_PROBE_LANE,
   F.LOOM_PROBE_INTEG, F.LOOM_PROBE_EN, F.LOOM_PROBE_CODE, F.LOOM_PROBERES_CODE]

/-- Register fields, part 2. -/
def regMap2 : List Fld :=
  [F.LOOM_PROBERES_VALID, F.CORE_LADCTRL_POLICY, F.CORE_LADCTRL_FLOOR, F.CORE_LADCTRL_EN,
   F.CORE_LADLIM_SAT_MAX, F.CORE_LADLIM_RTZ_MAX, F.CORE_STORM_GRANT, F.CORE_STORM_USED,
   F.CORE_LADSTAT_PENDING, F.CORE_LADSTAT_STALLED, F.CORE_LADSTAT_SUMM_USED, F.CORE_LADCNT_TRB_COUNT]

/-- Register fields, part 3. -/
def regMap3 : List Fld :=
  [F.CORE_LADCNT_P8_COUNT, F.CORE_LADCNT_P16_COUNT, F.CORE_LADCNT_EXM_COUNT, F.CORE_LADCNT_DEG_COUNT,
   F.CORE_LADCNT_BEG_COUNT, F.CORE_TALCTRL_LOSS_RANGE, F.CORE_TALCTRL_EXPECT_EN, F.CORE_TALSTAT_BUF_USED,
   F.CORE_TALSTAT_LANE_HELD, F.CORE_TALSTAT_CMDQ, F.CORE_TALCNT_TILE_COUNT, F.CORE_TALCNT_MRG_COUNT]

/-- Register fields, part 4. -/
def regMap4 : List Fld :=
  [F.CORE_TALCNT_DRN_COUNT, F.CORE_TALCNT_SAT_COUNT, F.CORE_TALCNT_LOSS_COUNT, F.CORE_TALCNT_EXP_COUNT,
   F.CORE_TALCNT_NF_COUNT, F.MEND_CTRL_DRIFT_EN, F.MEND_STAT_PQ, F.MEND_STAT_RQ,
   F.MEND_STAT_REDO_ACT, F.MEND_STAT_HOLD, F.MEND_DIDX_ARRAY, F.MEND_DIDX_ENTRY]

/-- Register fields, part 5. -/
def regMap5 : List Fld :=
  [F.MEND_DDATA_GAIN, F.MEND_DDATA_OFFS, F.MEND_DSTAGE_PENDING, F.MEND_DSTAGE_FULL,
   F.MEND_CNT_CMD_COUNT, F.MEND_CNT_BF16_COUNT, F.MEND_CNT_FP8_COUNT, F.MEND_CNT_P16_COUNT,
   F.MEND_CNT_DISC_COUNT, F.MEND_CNT_NF_COUNT, F.MEND_CNT_UFL_COUNT, F.ASSY_WSTAT_SETTLING]

/-- Register fields, part 6. -/
def regMap6 : List Fld :=
  [F.ASSY_WSTAT_ANY_STALE, F.ASSY_WSTAT_ANY_TRIG, F.ASSY_WSTAT_WORST, F.ASSY_WIDX_ARRAY,
   F.ASSY_WDEV_DEV, F.ASSY_WDEV_BOUND, F.ASSY_WRHO_RHO, F.ASSY_WFLG_FLAGS,
   F.ASSY_WFLG_TRIGCNT, F.ASSY_ACT_PROG_ACT, F.ASSY_ACT_ADCCAL_ACT, F.ASSY_ACT_TRACE_ACT]

/-- Register fields, part 7. -/
def regMap7 : List Fld :=
  [F.ASSY_ACT_COLTAB_ACT, F.ASSY_ACT_WINDOW, F.ASSY_ACT_ADCCAL_LANE, F.ASSY_ACT_TRACE_LANE,
   F.ASSY_PROG_ARRAY, F.ASSY_PROG_ROW, F.ASSY_PROG_PAUSED, F.ASSY_PROGCNT_RESTARTS,
   F.ASSY_PROGCNT_FAILCOL, F.ASSY_ADCIDX_LANE, F.ASSY_ADCIDX_ADC, F.ASSY_ADCDATA_OFFS]

/-- Register fields, part 8. -/
def regMap8 : List Fld :=
  [F.ASSY_ADCDATA_GTRIM, F.ASSY_ADCDATA_STATE, F.ASSY_TRACE_KP, F.ASSY_TRACEOFS_ZP,
   F.ASSY_TRACEOFS_UNTRACED, F.ASSY_LTEST_DUE, F.ASSY_LTEST_PREEMPT, F.ASSY_LTEST_LAST_PASS,
   F.ASSY_CNT_PROG_COUNT, F.ASSY_CNT_ADCCAL_COUNT, F.ASSY_CNT_PAUSE_COUNT, F.ASSY_CNT_LTEST_COUNT]

/-- Register fields, part 9. -/
def regMap9 : List Fld :=
  [F.CORE_ID_CORE, F.CORE_ID_DIE, F.CORE_ID_ENABLED, F.CORE_ID_FENCED,
   F.CORE_ID_HALF, F.CORE_CLK_CLK_REQ, F.CORE_CLK_CLK_ACT, F.CORE_CLK_CHANGING,
   F.CORE_STAT_SLOT, F.CORE_STAT_RUNNING, F.CORE_STAT_BOUNDARY, F.CORE_STAT_STALL_Q]

/-- Register fields, part 10. -/
def regMap10 : List Fld :=
  [F.CORE_STAT_STALL_W, F.CORE_WDOG_STITCHMAX, F.CORE_SHWIN_SBASE, F.CORE_SHWIN_SLEN,
   F.CORE_TCTL_VALID, F.CORE_TCTL_PREEMPT, F.CORE_TCTL_SUSPENDED, F.CORE_TCTL_ENDED,
   F.CORE_TCTL_TENANT, F.CORE_TTAG_TASKTAG, F.CORE_TTAG_TCTX, F.CORE_TWIN_BASE]

/-- Register fields, part 11. -/
def regMap11 : List Fld :=
  [F.CORE_TWIN_LEN, F.CORE_TPAT_BASE, F.CORE_TPAT_LEN, F.CORE_TARR_ARR_LO,
   F.CORE_TARR_ARR_HI, F.CORE_TARR_ARR_EN, F.CORE_TPC_PC, F.SPAD_PERR_ADDR,
   F.SPAD_PERR_PERSIST, F.SPAD_PERR_PORT, F.SPAD_PERR_VALID, F.SPAD_CNT_REPLAY_COUNT]

/-- Register fields, part 12. -/
def regMap12 : List Fld :=
  [F.SPAD_CNT_PERSIST_COUNT, F.SPAD_CNT_BOUND_COUNT, F.SPAD_CNT_RDROP_COUNT, F.ATTN_STAT_QUEUED,
   F.ATTN_STAT_ACTIVE, F.ATTN_CNT_CMD_COUNT, F.ATTN_CNT_BYTES_COUNT, F.VEC_STAT_QUEUED,
   F.VEC_STAT_ACTIVE, F.VEC_CNT_CMD_COUNT, F.VEC_CNT_CHECK_COUNT, F.PORT_CH_QUEUED]

/-- Register fields, part 13. -/
def regMap13 : List Fld :=
  [F.PORT_CH_ACTIVE, F.PORT_CH_FAULT, F.PORT_APPEND_DESC, F.PORT_APPEND_LINES,
   F.PORT_CNT_DESC_COUNT, F.PORT_CNT_BYTES_COUNT, F.PORT_CNT_XLT_COUNT, F.CORE_PATCTL_FILLWAIT,
   F.CORE_PATCTL_POISON, F.CORE_DSIDX_TASK, F.CORE_DSIDX_DSLOT, F.CORE_DSDEF_BASE]

/-- Register fields, part 14. -/
def regMap14 : List Fld :=
  [F.CORE_DSDEF_DEFINED, F.CORE_DSLEN_LEN, F.CORE_DSSTAT_FILLS, F.CORE_DSSTAT_FULL,
   F.CORE_DSSTAT_HELD, F.CORE_DSSTAT_LANDED, F.CORE_GATEST_TASK, F.CORE_GATEST_DSLOT,
   F.CORE_GATEST_FILL, F.CORE_GATEST_WAITING, F.CORE_CNT_GWAIT_COUNT, F.CORE_CNT_FILLTO_COUNT]

/-- Register fields, part 15. -/
def regMap15 : List Fld :=
  [F.CORE_CNT_OVERWR_COUNT, F.CORE_CNT_UNFILL_COUNT, F.ATTN_KVSTAB_VA_LO, F.ATTN_KVSTABH_VA_HI,
   F.ATTN_KVGEOM_D, F.ATTN_KVGEOM_A, F.ATTN_KVGEOM_PSTRIDE, F.ATTN_CNT_UFL_COUNT,
   F.ATTN_CNT_NF_COUNT, F.ATTN_CNT_FRESH_COUNT, F.ATTN_CNT_FMISS_COUNT, F.ATTN_CNT_APPEND_COUNT]

/-- Register fields, part 16. -/
def regMap16 : List Fld :=
  [F.CORE_MTIME_NS, F.CORE_MARR_OPS, F.CORE_MDRAM_LINES, F.CORE_MLINK_LINES,
   F.CORE_MHOLD_HOLD, F.CORE_SEDCTL_RESID_EN, F.CORE_CNT_CHKFAIL_COUNT, F.CORE_CNT_RESID_COUNT,
   F.CORE_CNT_DRAINCHK_COUNT, F.MESH_STAT_ROUT_OUT, F.MESH_STAT_DETOUR, F.MESH_STAT_SEAM_LOST]

/-- Register fields, part 17. -/
def regMap17 : List Fld :=
  [F.MESH_HCLK_CODE, F.MESH_HCLK_ACT, F.MESH_HCLK_CHANGING, F.MESH_HCLK_CAUSE,
   F.MESH_SEAM_SLOWSIDE, F.MESH_SEAM_PEAK_W2E, F.MESH_SEAM_PEAK_E2W, F.MESH_SEAM_RDCLR,
   F.MESH_RIDX_ROUTER, F.MESH_RSTAT_OUT, F.MESH_RSTAT_REASON, F.MESH_RSTAT_BADPORT]

/-- Register fields, part 18. -/
def regMap18 : List Fld :=
  [F.MESH_ROUTE_EPOCH, F.MESH_ROUTE_BUSY, F.MESH_BAR_OPEN, F.MESH_BAR_ARRIVED,
   F.MESH_CNT_REPLAY_COUNT, F.MESH_CNT_W2E_COUNT, F.MESH_CNT_E2W_COUNT, F.MESH_CNT_THR0_COUNT,
   F.MESH_CNT_THR1_COUNT, F.MESH_CNT_DETOUR_COUNT, F.MEMC_CTRL_STRENGTH_NEXT, F.MEMC_CTRL_STRENGTH_ACT]

/-- Register fields, part 19. -/
def regMap19 : List Fld :=
  [F.MEMC_CTRL_SCRUB_EN, F.MEMC_STAT_TRAINED, F.MEMC_STAT_FILLING, F.MEMC_STAT_FILLED,
   F.MEMC_STAT_SCRUB_BEHIND, F.MEMC_STAT_RM_USED, F.MEMC_STAT_RM_FULL, F.MEMC_SCRUBINT_INTERVAL,
   F.MEMC_SCRUBPOS_FOLIO, F.MEMC_ERRFOLIO_FOLIO, F.MEMC_ERRFOLIO_UNCORR, F.MEMC_ERRFOLIO_VALID]

/-- Register fields, part 20. -/
def regMap20 : List Fld :=
  [F.MEMC_ERRINFO_CODEWORD, F.MEMC_ERRINFO_SYMBOLS, F.MEMC_ERRINFO_SOURCE, F.MEMC_RMIDX_ENTRY,
   F.MEMC_RMDATA_FOLIO, F.MEMC_RMDATA_VALID, F.MEMC_CNT_CORR_COUNT, F.MEMC_CNT_REREAD_COUNT,
   F.MEMC_CNT_UNCORR_COUNT, F.MEMC_CNT_RMW_COUNT, F.MEMC_CNT_SCRUB_COUNT, F.MEMC_CNT_PROREMAP_COUNT]

/-- Register fields, part 21. -/
def regMap21 : List Fld :=
  [F.MEMC_CTXBASE_BASE, F.MEMC_INVCMD_TCTX, F.MEMC_INVCMD_WHOLE, F.MEMC_INVCMD_GO,
   F.MEMC_INVVA_PAGE, F.MEMC_INVLEN_PAGES, F.MEMC_INVSTAT_BUSY, F.MEMC_INVSTAT_SEQ,
   F.MEMC_XRESP_CORE, F.MEMC_XRESP_UNIT, F.MEMC_XRESP_ACTION, F.MEMC_CNT_WALK_COUNT]

/-- Register fields, part 22. -/
def regMap22 : List Fld :=
  [F.MEMC_CNT_XFAULT_COUNT, F.LINK_CTRL_EN, F.LINK_CTRL_RETRAIN, F.LINK_CTRL_WIDTHPOL,
   F.LINK_STAT_STATE, F.LINK_STAT_CLASS, F.LINK_STAT_INTERNAL, F.LINK_STAT_X2,
   F.LINK_STAT_VERSION, F.LINK_STAT_MISREASON, F.LINK_PARTNER_DIE, F.LINK_PARTNER_PORT]

/-- Register fields, part 23. -/
def regMap23 : List Fld :=
  [F.LINK_PARTNER_VALID, F.LINK_CNT_FECCORR_COUNT, F.LINK_CNT_FECUNC_COUNT, F.LINK_CNT_REPLAY_COUNT,
   F.LINK_CNT_FRETRAIN_COUNT, F.LINK_CNT_TXFLIT_COUNT, F.LINK_CNT_RXFLIT_COUNT, F.LINK_CNT_DROP_COUNT,
   F.LINK_FAB_DIE, F.LINK_FAB_PLANNED, F.LINK_FAB_EPOCH, F.LINK_FAB_BUSY]

/-- Register fields, part 24. -/
def regMap24 : List Fld :=
  [F.LINK_RIDX_DEST, F.LINK_RIDX_TBL, F.LINK_RDATA_DOR_PORT, F.LINK_RDATA_DOR_OK,
   F.LINK_RDATA_ESC_PORT, F.LINK_RDATA_REACH, F.LINK_BAR_GROUP, F.LINK_BAR_OPEN,
   F.LINK_BAR_CORES, F.LINK_BAR_KIND, F.LINK_BAR_DEPTH, F.LINK_BAR_SEQ]

/-- Register fields, part 25. -/
def regMap25 : List Fld :=
  [F.LINK_CNT_ESC_COUNT, F.LINK_CNT_UNREACH_COUNT, F.FLT_STAT_COUNT, F.FLT_STAT_OPEN,
   F.FLT_STAT_UNACK, F.FLT_STAT_TEST, F.FLT_STAT_CAPTURE, F.FLT_LIDX_INDEX,
   F.FLT_LDATA_DATA, F.FLT_FORCE_CODE, F.FLT_FORCE_GO, F.FLT_FORCEI_INSTANCE]

/-- Register fields, part 26. -/
def regMap26 : List Fld :=
  [F.FLT_FENCE_CORES, F.FLT_COVER_HOST, F.FLT_COVER_SOURCE, F.FLT_COVER_SDIE,
   F.FLT_COVER_VALID, F.FLT_STICKY_BITS, F.FLT_CNT_F_COUNT, F.THRM_STAT_TMAX,
   F.THRM_STAT_HOTCORE, F.THRM_STAT_VALIDS, F.THRM_STAT_STOPREQ, F.THRM_HALF_TCODE]

/-- Register fields, part 27. -/
def regMap27 : List Fld :=
  [F.THRM_HALF_CAPCODE, F.THRM_HALF_WINCODE, F.THRM_HALF_WINREQ, F.THRM_HALF_WINOPEN,
   F.THRM_HALF_RISELIM, F.THRM_SIDX_SENSOR, F.THRM_SDATA_TEMP, F.THRM_SDATA_VALID,
   F.THRM_CIDX_CORE, F.THRM_CDATA_TJ, F.THRM_CDATA_POWER, F.THRM_SET_SET]

/-- Register fields, part 28. -/
def regMap28 : List Fld :=
  [F.THRM_SET_GAIN, F.THRM_SET_RISE, F.THRM_CNT_DROP_COUNT, F.THRM_CNT_RISE_COUNT,
   F.THRM_CNT_WIN_COUNT, F.HUB_SIGSTAT_MEN_IN, F.HUB_SIGSTAT_STOP_IN, F.HUB_SIGSTAT_PERST_IN,
   F.HUB_SIGSTAT_FAULT_OUT, F.HUB_SIGSTAT_SAFE_OUT, F.HUB_SIGSTAT_PG_OUT, F.HUB_SIGSTAT_REFCLK_OK]

/-- Register fields, part 29. -/
def regMap29 : List Fld :=
  [F.HUB_SIGSTAT_REFSEL, F.HUB_SIGSTAT_REFCAL_OK, F.HUB_SIGSTAT_MOD_STATE, F.HUB_INSTAGE_VIN,
   F.HUB_INSTAGE_VLOW, F.HUB_INSTAGE_VHIGH, F.HUB_INSTAGE_HOLDUP, F.HUB_INSTAGE_PRECHG_DONE,
   F.HUB_INSTAGE_IIN, F.HUB_INSTAGE_LASTOFF, F.HUB_BOOTSTAT_PHASE, F.HUB_BOOTSTAT_STOPPHASE]

/-- Register fields, part 30. -/
def regMap30 : List Fld :=
  [F.HUB_BOOTSTAT_SLOT, F.HUB_BOOTSTAT_SLOTFALLBACK, F.HUB_BOOTSTAT_RECOVERY, F.HUB_BOOTSTAT_REUSE_OK,
   F.HUB_BOOTSTAT_DEGRADED, F.HUB_BOOTSTAT_RESETKIND, F.HUB_DISPSTAT_RUNQ, F.HUB_DISPSTAT_INFL,
   F.HUB_DISPSTAT_HELD, F.HUB_GATESTAT_COMMITS, F.HUB_GATESTAT_ABANDONS, F.HUB_AUDSTAT_ACTIVE]

/-- Register fields, part 31. -/
def regMap31 : List Fld :=
  [F.HUB_AUDSTAT_HELD, F.HUB_AUDSTAT_INFL, F.FLT_MSTAT_COUNT, F.FLT_MSTAT_OPEN,
   F.FLT_MSTAT_UNACK, F.FLT_MSTAT_TEST, F.FLT_MSTAT_CAPTURE, F.FLT_MSTAT_SAFE,
   F.FLT_MSTAT_GRAVE, F.FLT_MSTAT_DIEREACT, F.FLT_MSTAT_LINKREACT, F.FLT_MLIDX_INDEX]

/-- Register fields, part 32. -/
def regMap32 : List Fld :=
  [F.FLT_MLDATA_DATA, F.FLT_MSTICKYA_BITS, F.FLT_MLOST_LOST, F.FLT_MSTICKYB_BITS,
   F.HUB_PWRSTAT_PIN, F.HUB_PWRSTAT_CAPCODE, F.HUB_PWRSTAT_CAPACT, F.HUB_PWRSTAT_PEAKACT,
   F.HUB_PWRSTAT_AF, F.HUB_DIEPWR_POWER, F.HUB_MBCTRL_LEN, F.HUB_MBCTRL_GO]

/-- Register fields, part 33. -/
def regMap33 : List Fld :=
  [F.HUB_MBCTRL_IRQEN, F.HUB_MBSTAT_RLEN, F.HUB_MBSTAT_BUSY, F.HUB_MBSTAT_DONE,
   F.HUB_MBSTAT_AVAIL, F.HUB_HIFCTRL_EN, F.HUB_HIFSTAT_RDY, F.HUB_HIFSTAT_ACTIVE,
   F.HUB_HIFSTAT_HALTED, F.HUB_HIFSTAT_EPOCH, F.HUB_HIFCAUSE_MBDONE, F.HUB_HIFCAUSE_CPER]

/-- Register fields, part 34. -/
def regMap34 : List Fld :=
  [F.HUB_HIFCAUSE_LEDGER, F.HUB_HIFCAUSE_STATE, F.HUB_HIFCAUSE_QERR, F.HUB_HIFCAUSEEN_EN,
   F.HUB_HIFQERR_QUEUE, F.HUB_HIFQERR_ADMIN, F.HUB_HIFQERR_REASON, F.HUB_HIFQERR_VALID,
   F.HUB_HIFCPER_COUNT]

/-- Every register field of the control space. -/
def regMap : List Fld :=
  regMap0 ++ regMap1 ++ regMap2 ++ regMap3 ++ regMap4 ++ regMap5 ++ regMap6 ++ regMap7 ++ regMap8 ++ regMap9 ++ regMap10 ++ regMap11 ++ regMap12 ++ regMap13 ++ regMap14 ++ regMap15 ++ regMap16 ++ regMap17 ++ regMap18 ++ regMap19 ++ regMap20 ++ regMap21 ++ regMap22 ++ regMap23 ++ regMap24 ++ regMap25 ++ regMap26 ++ regMap27 ++ regMap28 ++ regMap29 ++ regMap30 ++ regMap31 ++ regMap32 ++ regMap33 ++ regMap34

/-- The fields of a core's window whose reset value is not 0. -/
def resetCore : List Fld :=
  [F.LOOM_CTRL_SPCHK_EN, F.LOOM_BUDGET_BUDGET, F.LOOM_SPCHK_THRESH, F.LOOM_SPCHK_STRIKES, F.LOOM_SPCHK_WINDOW,
   F.CORE_LADCTRL_EN, F.CORE_LADLIM_RTZ_MAX, F.CORE_STORM_GRANT, F.CORE_TALCTRL_EXPECT_EN, F.MEND_CTRL_DRIFT_EN,
   F.ASSY_WSTAT_SETTLING, F.ASSY_WDEV_DEV, F.ASSY_WDEV_BOUND, F.ASSY_WRHO_RHO, F.ASSY_WFLG_FLAGS,
   F.ASSY_TRACE_KP, F.ASSY_LTEST_LAST_PASS, F.CORE_CLK_CLK_REQ, F.CORE_CLK_CLK_ACT, F.CORE_STAT_BOUNDARY,
   F.CORE_WDOG_STITCHMAX, F.CORE_PATCTL_FILLWAIT, F.ATTN_KVGEOM_D, F.ATTN_KVGEOM_PSTRIDE, F.CORE_SEDCTL_RESID_EN]

/-- The fields of a die's blocks whose reset value is not 0. -/
def resetDie : List Fld :=
  [F.MESH_HCLK_CODE, F.MESH_HCLK_ACT, F.MEMC_CTRL_STRENGTH_NEXT, F.MEMC_CTRL_STRENGTH_ACT, F.MEMC_CTRL_SCRUB_EN,
   F.MEMC_SCRUBINT_INTERVAL, F.LINK_CTRL_EN, F.LINK_RDATA_DOR_PORT, F.LINK_RDATA_ESC_PORT, F.FLT_STAT_CAPTURE,
   F.THRM_STAT_VALIDS, F.THRM_HALF_TCODE, F.THRM_HALF_CAPCODE, F.THRM_HALF_WINCODE, F.THRM_SDATA_VALID,
   F.THRM_SET_SET, F.THRM_SET_GAIN, F.THRM_SET_RISE]

/-- The fields of hub control space whose reset value is not 0. -/
def resetHub : List Fld :=
  [F.HUB_SIGSTAT_MEN_IN, F.HUB_SIGSTAT_SAFE_OUT, F.HUB_SIGSTAT_PG_OUT, F.HUB_SIGSTAT_MOD_STATE,
   F.HUB_BOOTSTAT_PHASE, F.FLT_MSTAT_CAPTURE, F.HUB_PWRSTAT_CAPCODE]

end Sys2Proof.Machine
end

