-- ==== Sys2Proof/Machine/State.lean ====
section
/-! DEFINITION. The state of the module, as plain data: every register, dictionary value, memory byte and piece of machinery
that spec/ gives it, the waiting commands, and the state at reset. -/

namespace Sys2Proof.Machine

/-! ## Faults (spec/19_faults.md) -/

/-- A ledger record (Table 19.3). -/
structure LedgerRec where
  cls : Nat
  startup : Bool
  testmode : Bool
  ack : Bool
  esc : Bool
  forced : Bool
  code : Nat
  inst : Nat
  die : Nat
  time : Nat
  count : Nat
  detail : Nat
  seq : Nat
  deriving DecidableEq, Repr

/-- A fault that is open (R473, R474, R480): its class, code, die (15 the hub), instance and detail (the array of 0x0302 and 0x0303);
`seq` names its record. -/
structure OpenFault where
  cls : Nat
  code : Nat
  die : Nat
  inst : Nat
  detail : Nat
  seq : Nat
  deriving DecidableEq, Repr

/-- What a collector keeps beside a sticky bit (R479). -/
structure StickyInfo where
  inst : Nat
  die : Nat
  time : Nat
  forced : Bool
  cls : Nat
  esc : Bool
  deriving DecidableEq, Repr

/-- A CPER record (R510): record identifier, the ledger record it exports, severity, whether it is of the previous
power cycle, the hub time at its forming, and the step number of a code 0x09xx. -/
structure CperRec where
  id : Nat
  severity : Nat
  prev : Bool
  record : LedgerRec
  formed : Nat
  step : Nat
  deriving DecidableEq, Repr

/-- The fault collectors' own state. -/
structure Faults where
  modLedger : List LedgerRec
  dieLedgers : Tab (List LedgerRec)
  nextSeq : Nat
  openFaults : List OpenFault
  sticky : Tab StickyInfo
  cper : List CperRec
  deriving DecidableEq, Repr

/-! ## Power, flash and fuses (spec/02_module_hardware.md, 03_start_up.md) -/

/-- The standby domain and the input stage (R48–R57): rails on; standby domain powered; input switch closed; the start condition met;
MEN recognised low with the rails off; a toggle of MEN due (R54); the internal fuse open (R595); trips that the standby domain notes
(R487); LASTOFF's cause; and the external ports (die × 8 + port) whose CBLPRS_N reads low (R44). -/
structure Power where
  rails : Bool
  standby : Bool
  switchClosed : Bool
  startOk : Bool
  menLowSeen : Bool
  needToggle : Bool
  fuseOpen : Bool
  tripRecs : List Nat
  cause : Nat
  cables : List Nat
  deriving DecidableEq, Repr

/-- A firmware image slot (R74, OD 0x1050): state 0 invalid, 1 valid, 2 being written; the image's release number, major
version and security version, whether its signature verifies, its bytes and its length. -/
structure ImgSlot where
  st : Nat
  release : Nat
  major : Nat
  secver : Nat
  sigOk : Bool
  bytes : List Byte
  deriving DecidableEq, Repr

/-- One array of the placement record (R88). -/
structure PlacedTile where
  array : Nat
  tile : Nat
  mode : Nat
  wfmt : Nat
  deriving DecidableEq, Repr

/-- A binding's placement record in flash (R88). -/
structure PlaceRec where
  digest : Nat
  gen : Nat
  binding : Nat
  tiles : List PlacedTile
  deriving DecidableEq, Repr

/-- An audit record (Table 18.4, without its chain bytes, which follow from the log). -/
structure AuditRec where
  kind : Nat
  role : Nat
  transport : Nat
  digested : Bool
  status : Nat
  seq : Nat
  time : Nat
  index : Nat
  sub : Nat
  keyidx : Nat
  session : Nat
  old : List Byte
  new : List Byte
  chain : BitVec 384
  deriving DecidableEq, Repr

/-- A seal of the audit log (R461). -/
structure Seal where
  seq : Nat
  time : Nat
  chain : BitVec 384
  sig : BitVec 768
  deriving DecidableEq, Repr

/-- What management flash and the fuses hold besides dictionary settings; `routerBad` and
`routerFences` are the routers that the fuse map and the field fence record put Out (R303; numbered like cores), `remaps` the folio remap tables (R339; key:
die × 2 + stack), sixteen entries each. -/
structure Flash where
  slotA : ImgSlot
  slotB : ImgSlot
  antiRollback : Nat
  af : Bool
  serial : List Byte
  mac : Nat
  fuseBad : List Nat
  routerBad : List Nat
  routerFences : List Nat
  fences : List Nat
  remaps : Tab (List (Option Nat))
  places : List PlaceRec
  ledgerCopy : List LedgerRec
  ledgerTaken : Bool
  lastOff : Nat
  auditLog : List AuditRec
  seals : List Seal
  auditErased : Nat
  mfg : Tab OdVal
  kik : List Byte
  deriving DecidableEq, Repr

/-- The hub as a whole: hub time in µs (R557, OD 0x100B), the hub time of the start moment, a module reset under way
(R86), the sides of the stop procedures that wait, how many flash writes will fail, and whether a segment of the upload has met one (R546). -/
structure Sys where
  hubTime : Nat
  t0 : Nat
  resetting : Bool
  configRead : Bool
  upload : Option (Nat × Nat × Nat × Nat)
  hoursBase : Nat
  epStop : Bool
  lsaDown : Bool
  accepted : Option Nat
  flashBad : Nat
  uploadBad : Bool
  deriving DecidableEq, Repr

/-! ## Roles, sessions, audit (spec/18_tenants_and_metering.md, 22_management_network.md) -/

/-- A session (R458, R540, R543, R545): role 1 operator, 2 installer, 3 maker; transport 1 CMP, 2 mailbox; the credential
entry; the bound address and port; the last accepted SEQ with the stored response message; a read snapshot (index, subindex, type code, encoding); a staged write (index,
subindex, total length, bytes so far). -/
structure Session where
  id : Nat
  role : Nat
  tr : Nat
  entry : Nat
  addr : Nat
  port : Nat
  lastSeq : Option Nat
  lastResp : List Byte
  snap : Option (Nat × Nat × Nat × List Byte)
  staged : Option (Nat × Nat × Nat × List Byte)
  deriving DecidableEq, Repr

/-- A live nonce (R457). -/
structure Nonce where
  tr : Nat
  addr : Nat
  port : Nat
  role : Nat
  entry : Nat
  value : Nat
  deriving DecidableEq, Repr

/-- A partner table entry (R542). -/
structure Partner where
  serial : List Byte
  payload : List Byte
  addr : Nat
  first : Nat
  last : Nat
  period : Nat
  deriving DecidableEq, Repr

/-- The response the hub sent last: status, and payload bytes. -/
structure Resp where
  status : Nat
  payload : List Byte
  deriving DecidableEq, Repr

/-- A frame that the module sent on the segment: 0 a CMP datagram, 1 a Neighbor Advertisement, 2 an ICMPv6 Echo Reply; destination
address and port; bytes. -/
structure Tx where
  kind : Nat
  addr : Nat
  port : Nat
  bytes : List Byte
  deriving DecidableEq, Repr

/-- Roles, sessions and the management network: sessions; live nonces; authentication failures in a row and holds of the two transports
(R457); the audit buffer, the next SEQ and chain value (R461, R462); the response sent last; partners (R542); solicitors that wait
for their ANNOUNCE, each with address, port and SEQ (R541); announcements sent; whether Duplicate Address Detection runs, and whether
it failed last (R536); whether beacons are received (R535); hub time of the last multicast ANNOUNCE; the frame sent last. -/
structure Mgmt where
  sessions : List Session
  nonces : List Nonce
  failsCmp : Nat
  failsMb : Nat
  holdCmp : Bool
  holdMb : Bool
  auditBuf : List AuditRec
  auditSeq : Nat
  chain : Option (BitVec 384)
  resp : Resp
  partners : List Partner
  solicitors : List (Nat × Nat × Nat)
  annCount : Nat
  dadRun : Bool
  dadFailed : Bool
  beacon : Bool
  annAt : Option Nat
  tx : Option Tx
  deriving DecidableEq, Repr

/-- A tenant (Table 18.1, R465): state, the four budgets in force and those that the next period takes, the three quotas (2^64 − 1 for
unlimited), the four balances, the periods with a dimension exhausted,
demotions running, and whether no step may allocate a frame for it (R421), and its use
since start-up in the four dimensions. -/
structure Tenant where
  st : Nat
  budget : List Nat
  next : List Nat
  qKv : Nat
  qPriv : Nat
  qCellar : Nat
  bal : List Int
  exhPeriods : Nat
  demoting : Nat
  noFrames : Bool
  used : List Nat
  deriving DecidableEq, Repr

/-! ## Host interface (spec/24_host_interface.md) -/

/-- A completion entry the module wrote and the host has not released (Table 24.5). -/
structure CqEntry where
  kind : Nat
  status : Nat
  phase : Bool
  cid : Nat
  sqhead : Nat
  result : Nat
  detail : Nat
  deriving DecidableEq, Repr

/-- A token record the module wrote and the host has not released (Table 24.8). -/
structure TokRec where
  phase : Bool
  deg : Bool
  classD : Bool
  fin : Nat
  draft : Bool
  cancelled : Bool
  ctx : Nat
  pos : Nat
  token : Nat
  tail : Nat
  stepnum : Nat
  deriving DecidableEq, Repr

/-- A ring (R572, R583): base, log₂ of its size, head, tail, the pass's phase, vector, ICOUNT, ITIME, entries not yet
signalled. -/
structure Ring where
  base : Nat
  log2 : Nat
  head : Nat
  tail : Nat
  phase : Bool
  vec : Nat
  icount : Nat
  itime : Nat
  unsig : Nat
  deriving DecidableEq, Repr

/-- An event the module sends to a queue (Table 24.7). -/
structure Event where
  code : Nat
  status : Nat
  ctx : Nat
  detail : Nat
  deriving DecidableEq, Repr

/-- The rings of a serving queue: submission (`sq.head` fetched, `sq.tail` the doorbell), completion with its unreleased
entries, completion slots reserved by fetched commands, output with its unreleased records and the records reserved by
steps, events held and dropped (R576), and the RINGCLR that waits: admin queue and command identifier. -/
structure Rings where
  sq : Ring
  cq : Ring
  cqEntries : List CqEntry
  cqReserved : Nat
  oq : Ring
  oqEntries : List TokRec
  oqReserved : Nat
  held : List Event
  dropped : Nat
  clearing : Option (Nat × Nat)
  deriving DecidableEq, Repr

/-- An admin queue (Table 24.9): its ENABLE, the role and credential entry bound to it, its rings, the completion slot reserved for its
command, whether it is to be disabled after it, and the record as last written (empty: all zero). -/
structure AdminQ where
  enable : Bool
  role : Nat
  keyidx : Nat
  sq : Ring
  cq : Ring
  cqEntries : List CqEntry
  cqReserved : Nat
  disabling : Bool
  record : List Byte
  deriving DecidableEq, Repr

/-- An MSI-X table entry (R568, R583). -/
structure MsixEnt where
  addr : Nat
  data : Nat
  masked : Bool
  pend : Bool
  sent : Nat
  deriving DecidableEq, Repr

/-- The host interface: D3hot, the rings of serving queues, admin queues, MSI-X entries, doorbell values kept while EN is 0, the mailbox buffers, and
the serving queue that the hub visits with the entries fetched in the visit (R575). -/
structure Hif where
  d3hot : Bool
  rings : Tab (Option Rings)
  admin : Tab AdminQ
  msix : Tab MsixEnt
  bells : Tab Nat
  mbReq : List Byte
  mbResp : List Byte
  visit : Nat × Nat
  deriving DecidableEq, Repr

/-! ## Serving (spec/15_serving.md, 16_attention_and_kv.md) -/

/-- A cellar block that a page of a paused context is sealed in (R388): serial, host address, page index and frame of the page, the sealed
bytes as they were written to host memory, and the tag that stays in the module. -/
structure Block where
  serial : Nat
  addr : Nat
  page : Nat
  frame : Nat
  data : List Byte
  tag : List Byte
  deriving DecidableEq, Repr

/-- A context: its record (Table 15.1), the tokens of its pending prompt, the token drawn last (the next step's input),
the order in which it became Runnable, the commands that wait for it (each with queue and command identifier), its KV
page groups, its cellar blocks, the image that SETPARAM gave while it was Stepping, which replaces the record's fields when
the step leaves it (Table 15.13), and whether its KV holds a Class A position (Table 1.3). -/
structure Ctx where
  st : Nat
  tenant : Nat
  queue : Nat
  generate : Bool
  greedy : Bool
  length : Nat
  maxlen : Nat
  pending : Nat
  maxnew : Nat
  seed : Nat
  temp : Nat
  topp : Nat
  topk : Nat
  kmax : Nat
  kcur : Nat
  rej : Nat
  probe : Nat
  retry : Nat
  adapt : List Nat
  appr : Nat
  ttl : Nat
  kvva : Nat
  stop : List Nat
  stepnum : Nat
  touched : Nat
  toks : List Nat
  nextTok : Nat
  order : Int
  cancelCid : List Nat
  pauseCid : List (Nat × Bool)
  resumeCid : List (Nat × Bool)
  destroyCid : List Nat
  resumeAfter : Bool
  pages : Tab Nat
  blocks : List Block
  demoted : Bool
  params : Option (List Byte)
  analog : Bool
  deriving DecidableEq, Repr

/-- A queue: its record (Table 15.3), its deficit (R376), its budgets in force, those that the next period takes, and its balances (R465,
R469). An unlimited budget is 2^64 − 1. -/
structure Queue where
  enable : Bool
  bulk : Bool
  tenant : Nat
  binding : Nat
  weight : Nat
  chunk : Nat
  ctxmax : Nat
  deficit : Nat
  budget : List Nat
  next : List Nat
  bal : List Int
  used : List Nat
  deriving DecidableEq, Repr

/-- Entries of a translation context that the hub has yet to clear on a die (R334, R420): the binding whose steps use them, the first 64 KiB
page number, the DRAM offsets that the pages from there on are mapped to, the context, the step number that the change waits for, and of KV
pages their group. -/
structure Unmap where
  die : Nat
  binding : Nat
  page : Nat
  offs : List Nat
  tctx : Nat
  waitStep : Nat
  group : Option Nat
  deriving DecidableEq, Repr

/-- A step in flight (R375–R382). Phase 0 preparing, 1 going, 2 decided COMMIT (waiting for DONE), 3 held for its audit.
`lead` says that this module's hub leads it; `ready` and `done` are the module indices heard from; `checks` are the stitch
check failures, `ladder` the counts B and X of each layer (R147), `use` the metered use of the base-model tasks and `tuse` that of each tenant's own tasks, `kv`
the KV bytes of each row (R403, R464), `auditOf` of an audit run the binding and number of the step that it audits (R502–R504), `analog`
and `deg` whether a tile of it was accepted as analogue or degraded (Table 1.3, R152), `adapt` the bytes read of each adapter (R192), `alts` the
cores that lacked a neighbour of their role at the step's boundary (R294), `partner` of a step audited by another placement that placement as
OD 0x8070 sub 0x03 gave it, `unaud` whether it was selected for an audit that could not be had (R501), `maps` what is to be unmapped at the end
of an audit run. -/
structure Step where
  num : Nat
  binding : Nat
  gen : Nat
  bucket : Nat
  spec : Bool
  drafts : Nat
  lead : Bool
  phase : Nat
  rows : List Row
  ready : List Nat
  done : List Nat
  failed : Bool
  firstFail : Nat
  ladder : Tab (Nat × Nat)
  results : Tab RowResult
  use : List Nat
  tuse : Tab (List Nat)
  kv : Tab Nat
  levels : List Nat
  floor : Nat
  audited : Bool
  confirm : Bool
  auditOf : Option (Nat × Nat)
  analog : Bool
  deg : Bool
  adapt : Tab Nat
  alts : List Nat
  prepared : Bool
  partner : Option Nat
  unaud : Bool
  maps : List Unmap
  deriving DecidableEq, Repr

/-- Per-layer promotion (R147, R148): level, hold, steps left of the hold, whether a trial step is due or runs, and its number once it has
been formed. -/
structure Promo where
  level : Nat
  hold : Nat
  left : Nat
  trial : Bool
  tstep : Option Nat
  deriving DecidableEq, Repr

/-- The dispatcher's own state of a binding: the last step number, the four cursors (pass × class), the promotion table,
whether the operator has asked for an audit of the next step, whether the binding is held (R506), whether the next step re-forms one
that a check failed or one whose audit timed out (R501, R507), the rows to confirm, audit timeouts in a row, whether this hub leads it, and its geometry: modules, weight class, layers NL, KV groups G, shards NS and
attention dies in order, as local die or 8 for a die of another module (R401), vocabulary size, and the last committed step number (R446);
`auditDue` are the audit runs that it forms at its next step formations (R502). -/
structure Binding where
  stepNum : Nat
  cursors : List Nat
  promo : Tab Promo
  auditDue : List Step
  auditNext : Bool
  auditHeld : Bool
  auditRetry : Bool
  auditSkip : Bool
  confirmRows : List Row
  expiries : Nat
  lead : Bool
  modules : Nat
  wcls : Nat
  nl : Nat
  groups : Nat
  ns : Nat
  attn : List Nat
  vocab : Nat
  committed : Nat
  deriving DecidableEq, Repr

/-- A group of KV frames: the frames that hold one page index of one context on one die, which are always shared as one
(R404, R418, R419): die, frames, reference count, allocating tenant, the step number that reclamation waits for (R420),
whether their invalidation has completed, and the DRAM offsets of the frames where the die is one of this module's. -/
structure PageGroup where
  die : Nat
  frames : Nat
  refs : Nat
  tenant : Nat
  binding : Nat
  waitStep : Nat
  freeing : Bool
  invalDone : Bool
  home : List Nat
  deriving DecidableEq, Repr

/-- A copy-on-write (R419): context, binding, step, page index, the group that it goes to, and whether the copy is done, the context's
entries are rewritten and their invalidation is awaited (R334). -/
structure Cow where
  ctx : Nat
  binding : Nat
  step : Nat
  page : Nat
  dst : Nat
  done : Bool
  deriving DecidableEq, Repr

/-- A reserved KV range (R402): binding, base, length; when freed, the step number its return waits for (R420). -/
structure KvRange where
  binding : Nat
  base : Nat
  len : Nat
  freeing : Bool
  waitStep : Nat
  invalDone : Bool
  deriving DecidableEq, Repr

/-- Serving and the KV cache. `outbox` holds the hub messages (R448) that have not left yet: fabric position, body. -/
structure Serve where
  ctxs : Tab Ctx
  queues : Tab Queue
  steps : List Step
  binds : Tab Binding
  order : Int
  head : Int
  tokUsed : Nat
  groups : Tab PageGroup
  nextGroup : Nat
  cows : List Cow
  unmaps : List Unmap
  outbox : List (Nat × List Byte)
  ranges : List KvRange
  cellarKey : Nat
  auditKey : Nat
  blockSerial : Nat
  blocksUsed : List Nat
  stormCur : Nat
  stormOff : Bool
  stormPol : Nat
  opsMark : Nat
  deriving DecidableEq, Repr
/-! ## Dies, cores and arrays -/

/-- An APPEND held in a core's append buffer for the commit gate (R269): binding and step, its issue number, the core's die, tenant and task
tag of its task, the writes it will make, each to a global address, and of a KV-form append the row and position of each write (R393). -/
structure Append where
  binding : Nat
  step : Nat
  no : Nat
  die : Nat
  tenant : Nat
  tag : Nat
  writes : List (Nat × List Byte)
  elems : List (Nat × Nat)
  deriving DecidableEq, Repr

/-- The task of a slot: binding (4 none) and step it belongs to, its stream's length and counts of gate and patch entries
(Table 11.2), whether a clear of VALID waits for its stitch boundary (R253), the layer of each stitch, the stitches done, its idle
declarations: FROM, TO and LANES (R292), and whether its position has passed the end of a pattern window of 1 MiB, which the 20 bits of CORE_TPC
cannot show (R259). -/
structure Task where
  binding : Nat
  step : Nat
  streamLen : Nat
  ngate : Nat
  npatch : Nat
  leaving : Bool
  layers : List Nat
  stitch : Nat
  idles : List (Nat × Nat × Nat)
  past : Bool
  deriving DecidableEq, Repr

/-- A data slot (R285, R286): base, length, whether it is in use, fills (mod 256), FULL, bytes landed. -/
structure DSlot where
  base : Nat
  len : Nat
  defined : Bool
  fills : Nat
  full : Bool
  landed : Nat
  deriving DecidableEq, Repr

/-- A command that the sequencer issued: its number in issue order, task slot, entry offset, patched body, gates (data slot and
fill), releases (data slots) (R259, R287), and for a TERM the number plus one of the loom command that it names (R191). -/
structure Issued where
  no : Nat
  slot : Nat
  entry : Nat
  body : List Byte
  gates : List (Nat × Nat)
  rels : List Nat
  ref : Nat
  deriving DecidableEq, Repr

/-- A quantisation summary (Table 5.5), with the rows of the outlier list that the QUANT named (R186) and the bytes of the source
vector as it read them: what a redo finds changed is undefined (R297). -/
structure Summ where
  dual : Bool
  bf16 : Bool
  e2m1 : Bool
  clamp : Nat
  nonfin : Nat
  flush : Nat
  recAddr : Nat
  src : Nat
  pre : Int
  k : Nat
  rows : List Nat
  bytes : List Byte
  deriving DecidableEq, Repr

/-- One tile operation, from its issue to the stitch boundary (R123, R141, R142): the loom command's issue number, slot, entry
and fields; its first level (0 P4, 1 P8, 2 P16) and whether the floor exempts a P16 start (R151); the last analogue level it ran;
its state (0 queued, 1 on the lane, 2 codes kept by the lane under R160, 3 awaiting its verdict, 4 waiting for a grant, 5 P16
redo, 6 awaiting its addition, 7 settled, 8 awaiting its lane for a redo); its outcome (0 none, 1 analogue, 2 SKIPPED, 3 P16, 4 abandoned or discarded), whether
it is degraded, exempt, cover, cover that no tenant is charged for (R238), and counted in X; the joined summary; the status word's fields (R124); the tile values in units of
2^−4 (R158); the pulse weights of its high-slice windows in units of 2^−7 with their shifts (R188); its P16 result. -/
structure TileOp where
  no : Nat
  slot : Nat
  entry : Nat
  lane : Nat
  arr : Nat
  op : Nat
  inAddr : Nat
  outAddr : Nat
  gainH : Nat
  gainL : Nat
  e2m1 : Bool
  accum : Bool
  tile : Nat
  layer : Nat
  gates : List (Nat × Nat)
  rels : List Nat
  lean : Bool
  first : Nat
  floorExempt : Bool
  level : Nat
  st : Nat
  outcome : Nat
  deg : Bool
  exempt : Bool
  cover : Bool
  care : Bool
  counted : Bool
  joined : Bool
  summ : Option Summ
  rtz : Nat
  clip : Nat
  split : Bool
  skipped : Bool
  notFired : Nat
  eTile : Nat
  vals : List Int
  wins : List (Nat × Int)
  p16 : List Nat
  deriving DecidableEq, Repr

/-- A mender result that waits for its addition (R168, R191): issue number, slot and entry; each target with its FP32 terms; and
for a TERM the loom command that governs it, the rows of the list of its outlier term. -/
structure PendAdd where
  no : Nat
  slot : Nat
  entry : Nat
  parts : List (Nat × List Nat)
  term : Option Nat
  rows : Option (List Nat)
  deriving DecidableEq, Repr

/-- A read held by a gate (R287): the engine queue it heads, task slot, data slot, fill. -/
structure Held where
  key : Nat
  slot : Nat
  dslot : Nat
  fill : Nat
  deriving DecidableEq, Repr

/-- What a unit that is running waits for (R333, R335, R446): nothing, a page walk, the hub's answer to a translation fault, the
response to a read of another die, the end of a snapshot. A walk and a fault name the virtual address and whether it is a write. -/
inductive Wait where
  | go
  | walk (va : Nat) (wr : Bool)
  | fault (kind level va : Nat) (wr : Bool)
  | resp (va reqid : Nat)
  | held
  | folio
  deriving DecidableEq, Repr

/-- A porter channel (units 0–3) or the attention engine (unit 4) at work (R270, R335): its command, PROGRESS, what it waits for,
the pages it has had translated (64 KiB page number, whether the leaf is of 2 MiB, page-table entry), the bytes that other
dies have sent it (virtual address, bytes), the addresses of its list, and the writes that an APPEND has gathered. -/
structure Run where
  q : Issued
  prog : Nat
  wait : Wait
  pages : List (Nat × Bool × Nat)
  got : List (Nat × List Byte)
  list : List Nat
  acc : List (Nat × List Byte)
  deriving DecidableEq, Repr

/-- An entry of a core's translation cache (R333): context, 64 KiB page number, whether the leaf is of 2 MiB, page-table entry. -/
structure TlbEnt where
  tctx : Nat
  page : Nat
  big : Bool
  pte : Nat
  deriving DecidableEq, Repr

/-- An entry of a die's page-walk cache (R333): context, level of the table entry (1–3), the virtual address bits that index it,
the entry. -/
structure PwcEnt where
  tctx : Nat
  level : Nat
  vbits : Nat
  pte : Nat
  deriving DecidableEq, Repr

/-- An invalidation under way (R334). -/
structure Inval where
  tctx : Nat
  whole : Bool
  page : Nat
  pages : Nat
  deriving DecidableEq, Repr

/-- One core beside its registers: the tasks of its slots, their data slots (key: slot × 32 + number), the engine queues (keys
0–15 lanes, 17 mender, 18 tally, 19 vector, 20 attention, 21–24 porter channels), commands issued and not completed per engine
(by WAIT bit), whether the stitch's last entry has issued, whether the core stands stopped, the slots whose stitch check has
failed, lines that have had a persistent parity error and lines that are poisoned (R251), words whose stored parity disagrees, each with the
re-reads of it that fail (R250, R251), REPLAYS in force (R276), words with a debug tag (R296), ranges of words, from and to,
whose contents are open (R297), reads held by gates, releases due (R288), the append buffer; the next issue number, the tile operations of the stitch, those awaiting a
verdict in order, P8 redos awaiting their lane, the P16 redo that streams with those queued behind it in the mender's redo queue of eight, those that the ladder holds while it is full (R193, R198), requests waiting for a grant in order (R152), mender results
awaiting addition, the open additions in issue order with their targets (R168), the summary table (R137), the counts B and X of
each layer (R147), staged drift records (R189), whether some request found no grant in the
period, the hub time of the stitch's first issue, the units at work, the translation cache, newest first, the step tables that
the row buffer holds, by task slot (R405), the dictionary values that the housekeeping controller last wrote into the core's settings
(R129), whether drift terms are formed in the present stitch (R198), the high half of LOOM_OPCNT kept by a read of its low half (R127), the
status word of the last housekeeping probe (R124), the declared idle slots open to a probe: lane, task slot and TO (R292), whether the
sequencer has taken its current slot for its next stitch (R260), and the PROGRESS that each porter channel last wrote back (R270). -/
structure CoreSt where
  tasks : Tab Task
  ds : Tab DSlot
  queues : Tab (List Issued)
  out : Tab Nat
  ending : Bool
  stopped : Bool
  failed : List Nat
  badLines : List Nat
  poisoned : List Nat
  upsets : List (Nat × Nat)
  glitches : List (Nat × Bool)
  replays : Nat
  tags : List Nat
  unfilled : List (Nat × Nat)
  held : List Held
  relDue : List (Nat × Nat)
  appends : List Append
  nextNo : Nat
  ops : List TileOp
  verdicts : List Nat
  redoQ : List Nat
  p16Q : List Nat
  p16Held : List Nat
  grantQ : List Nat
  adds : List PendAdd
  order : List (Nat × List Nat)
  summs : List Summ
  counts : Tab (Nat × Nat)
  staged : List (Nat × List (Int × Int))
  starved : Bool
  since : Nat
  runs : Tab (Option Run)
  tlb : List TlbEnt
  rowBuf : Tab (List Byte)
  applied : List Nat
  driftOn : Bool
  opHi : Option Nat
  probeStat : Nat
  idleLanes : List (Nat × Nat × Nat)
  taken : Bool
  progress : Tab Nat
  deriving DecidableEq, Repr

/-- A write on its way to a core's scratchpad (R258): source (a number that names its path), destination, tenant, task tag,
relative address, bytes, the porter channel whose command it is of, one more than its core's number × 4 + channel (0: none; R259), and of a
mesh packet its route: each router with the virtual channel of the link to it (R308, R309). -/
structure Remote where
  src : Nat
  die : Nat
  core : Nat
  tenant : Nat
  tag : Nat
  rel : Nat
  bytes : List Byte
  unit : Nat
  route : List (Nat × Nat)
  deriving DecidableEq, Repr

/-- One die beside its registers: the stacks that have trained, the fill done, the reference check passed, the core map where
it differs from the identity (R242), the rehomings in progress (fenced core, target), the routers that are Out (R303), and
whether it waits for its golden slots after a die reset (R359),
whether its housekeeping firmware runs, why each router is Out with its bad ports (Table 12.7), how often in a row a flit has
been resent at a link (R307; key: router × 4 + port), the cores that have arrived at the die barrier (R318), whether it has
released and no operation has been told, the page-walk cache, the invalidation under way, the cover hosts for which the F1 of
code 0x0301 has been recorded (R483), the cores whose self-test has ended since the die was last released, and whether the reference
check of the start-up has ended (R72, R78), the cores that failed before the enabled set was fixed, each with the spare enabled in
its place (R76), the map switches whose earlier steps still run on cover: fenced core, target, and those steps as binding and
number (R242), and the DRAM frames that the hub has given to page tables, the newest first, with the bytes of that one in use (R331). -/
structure DieSt where
  trained : List Nat
  filled : Bool
  refOk : Bool
  coreMap : Tab Nat
  rehome : List (Nat × Nat)
  outRouters : List Nat
  goldenWait : Bool
  fwUp : Bool
  rWhy : Tab (Nat × Nat)
  resent : Tab Nat
  barrier : List Nat
  barDone : Bool
  pwc : List PwcEnt
  inval : Option Inval
  coverNoted : List Nat
  tested : List Nat
  refDone : Bool
  replaced : List (Nat × Nat)
  switching : List (Nat × Nat × List (Nat × Nat))
  tabs : List Nat
  tabUsed : Nat
  deriving DecidableEq, Repr

/-! ## The looms: cells and arrays (spec/04_loom.md, 08, 09) -/

/-- What is kept of an array in flash (R234, R245, R90): its remap table as pairs of spare column and data column, program
cycles, retirement reason, hub time of the last programming, spares that have failed (R233), whether a programming of it has
begun and not ended, so that its cells are not whole (R88), and the remap entries that hold a data column with VALID 0 (R128). -/
structure ArrPerm where
  remap : List (Nat × Nat)
  cyc : Nat
  reason : Nat
  lastProg : Nat
  bad : List Nat
  part : Bool
  invalid : List (Nat × Nat)
  deriving DecidableEq, Repr

/-- An array's descriptor (R128): state (Table 4.16), mode, weight coding, generation, and a state write that waits for an
operation to end. -/
structure Arr where
  st : Nat
  mode : Nat
  wfmt : Nat
  gen : Nat
  later : Option Nat
  deriving DecidableEq, Repr

/-- The calibration record of one ADC (R222–R224, Table 9.9): offset correction in units of 2^−4 LSB, gain trim in units of
2^−12, state (0 converting, 1 free spare, 2 standing in, 3 calibrating, 4 suspect, 5 retired), for a spare one more than the
working ADC it stands in for, its plausibility checks and the numbers of those that disagreed (R119), whether it has
calibrated itself since its die was last released or its core's full assay was asked for (R72, R227), and of a suspect ADC that has passed its
calibration one more than the rounds of its shadow period (R224). -/
structure Adc where
  offs : Int
  gtrim : Int
  st : Nat
  stands : Nat
  checks : Nat
  strikes : List Nat
  cal : Bool
  shade : Nat
  deriving DecidableEq, Repr

/-- One lane (R118, R220, R223): conversion rounds made, the tile operation on it, its probe DAC's KP (units of 2^−16) and ZP
(units of 2^−4), whether its trace is untraced, the next ADC of the periodic round, whether a round was incomplete, and whether it has a
trace record of the present power cycle (R78, R227). -/
structure LaneSt where
  rounds : Nat
  run : Option Nat
  kp : Nat
  zp : Int
  untraced : Bool
  nextAdc : Nat
  incomplete : Bool
  ran : Bool
  deriving DecidableEq, Repr

/-- What flash keeps of a lane (R228): retired ADCs, and the last traced trace: KP, ZP, bandgap ratio (units of 2^−24), REF_CAL
value (FP32 bits) and hub time. -/
structure LanePerm where
  retired : List Nat
  kp : Nat
  zp : Int
  ratio : Nat
  refcal : Nat
  time : Nat
  deriving DecidableEq, Repr

/-- What the controller keeps of an array's accuracy (R207–R214) and its column table (R225): γ₀, ω₀, T₀ (units of 2^−6 °C), ρ,
Δω, δ squared (as a fraction), T and hub time of the last evaluation, whether it is evaluated, age in hours, consecutive
evaluations over RT_TRIG and over HARDLIM, flags, the temperature of the in-force drift entries, column gain and offset of each
output, outputs marked for remap, BOUND, whether the F1 of Table 4.8 has been recorded in this care episode, and whether the
entries lag the temperature (R210), when TRIG was set, the temperature of the staged entries, and TSTEP and α as the last evaluation
found them (R216). -/
structure Acc where
  gam0 : Rat
  om0 : Rat
  t0 : Int
  rho : Rat
  dom : Rat
  dev2 : Rat
  tev : Int
  at_ : Nat
  evaluated : Bool
  age : Rat
  trigCnt : Nat
  hardCnt : Nat
  stale : Bool
  untraced : Bool
  trig : Bool
  gclamp : Bool
  oclamp : Bool
  offdev : Bool
  ts : Int
  col : List (Rat × Rat)
  marks : List Nat
  bound : Nat
  noted : Bool
  lag : Bool
  trigAt : Nat
  tnext : Int
  cfg : Option (Rat × Rat)
  deriving DecidableEq, Repr

/-- The looms of the module: cell levels (key: array × 2^19 + row × 2^10 + column), descriptors, what flash keeps of arrays and
lanes, drift stores (gain and offset per output, R188), accuracy records, ADCs (key: lane key × 256 + ADC), lanes (key: core key
× 16 + lane), the maker's line factors λ_j of each array (1 where none is listed), each die's reference offset (units of µV)
with whether its last reference check passed, the maker's trace capacitor of each die (pF, R218), and by die the limitings of OFFS entries
(R209) and the outputs marked for remap (R225), which no register shows. -/
structure Loom where
  cells : Tab Nat
  arrs : Tab Arr
  perm : Tab ArrPerm
  lanePerm : Tab LanePerm
  drift : Tab (List (Int × Int))
  accs : Tab Acc
  adcs : Tab Adc
  lanes : Tab LaneSt
  lines : Tab (List Rat)
  refs : Tab (Int × Bool)
  caps : Tab Rat
  oclamps : Tab Nat
  marked : Tab Nat
  deriving DecidableEq, Repr

/-! ## Memory controllers (spec/13_memory_and_translation.md) -/

/-- An access held during a remap copy (R339): a read (DRAM offset, length) or a write. -/
inductive MemReq where
  | rd (off len : Nat)
  | wr (off : Nat) (data : List Byte)
  deriving DecidableEq, Repr

/-- For whom a folio is read (R337): nobody waits (the scrubber, the hub); a unit of a core (0–3 porter channels, 4 attention engine);
the mender's redo; a read request of another die; a read-modify-write, with the bytes it writes by offset; a DRAM_READ. -/
inductive MemUser where
  | none
  | unit (d c u : Nat)
  | redo (d c : Nat)
  | answer (x : Packet)
  | merge (new : List (Nat × List Byte))
  | read (off len : Nat)
  deriving DecidableEq, Repr

/-- Errors in a stack folio φ (R326): the bytes in error, 0–2,047 of the data and 2,048–2,111 of the check slot, with what they differ
by, and how many reads of the folio meet them. -/
structure FolioErr where
  phi : Nat
  sym : List (Nat × Nat)
  left : Nat
  deriving DecidableEq, Repr

/-- A memory controller beside its registers: the folio buffer (stack folio, and of each write its offset and the bytes it
overwrote), oldest first (R329); the folios whose re-read is due, with source and user, in order (R337); the remap copy under way, as
stack folio and entry (R339); the folios corrected in the previous scrub pass and in this one; accesses held; the last answer:
bytes, and whether it was poisoned; the errors in folios (R326); and the scrub reads owed (R340). -/
structure Memc where
  buf : List (Nat × List (Nat × List Byte))
  reread : List (Nat × Nat × MemUser)
  copying : Option (Nat × Nat)
  prevPass : List Nat
  thisPass : List Nat
  waiting : List MemReq
  resp : List Byte
  respPoison : Bool
  bad : List FolioErr
  owed : Nat
  deriving DecidableEq, Repr

/-! ## Izmer links and the fabric (spec/17_fabric.md) -/

/-- A route table entry (LINK_RDATA). -/
structure Route where
  dor : Nat
  dorOk : Bool
  esc : Nat
  reach : Bool
  deriving DecidableEq, Repr

/-- A link port beside its registers: hub time at which training or discovery began, whether the notice of a run of training
failures has been recorded, hub times of replays and of fast retrains, whether a fast retrain runs, the next SEQ expected, the
next to send, those sent and not acknowledged, whether a replay has been asked for and not begun, and the IDENT received last. -/
structure PortSt where
  since : Nat
  noted : Bool
  replays : List Nat
  fretr : List Nat
  retraining : Bool
  expSeq : Nat
  txSeq : Nat
  unacked : List Nat
  asked : Bool
  ident : Option Ident
  deriving DecidableEq, Repr

/-- One local die in a group's operation: whether it has arrived itself, what its children have sent (die, injected, delivered),
and whether it has sent its ARRIVE. -/
structure DieOp where
  own : Bool
  kids : List (Nat × Nat × Nat)
  sent : Bool
  deriving DecidableEq, Repr

/-- A group's operation (R443–R446): whether it is open, KIND of LINK_BAR, sequence, the local dies in it, a list digest met that
differs from this module's, and the payload of a broadcast. -/
structure GOp where
  isOpen : Bool
  kind : Nat
  seq : Nat
  dies : Tab DieOp
  bad : Option Nat
  payload : List Byte
  deriving DecidableEq, Repr

/-- The fabric as this module's dies and hub see it: route tables (key: (die × 2 + epoch) × 2^14 + destination), ports (key:
die × 8 + port), link-state records (key: die number × 8 + port), the sequence of the module's own records, the hub time of the
last change among records, whether tables have been written and wait for their epoch switch, packets on the internal links (key:
sending die × 8 + port), packets sent on external ports, oldest first, data packets injected and delivered by each die, groups'
operations, the last request number, and the region owner table (R433; key: die × 2^17 + 2 MiB region; 0 for what the hub has given
to no tenant), and the data packets that a die holds back until its snapshot ends (R446). -/
structure Fabric where
  routes : Tab Route
  ports : Tab PortSt
  lsas : Tab Lsa
  lsaSeq : Nat
  lsaAt : Nat
  written : Bool
  wire : Tab (List Packet)
  sent : List (Nat × Packet)
  inj : Tab Nat
  del : Tab Nat
  gops : Tab GOp
  reqid : Nat
  owner : Tab Nat
  heldTx : List (Nat × Packet)
  deriving DecidableEq, Repr

/-! ## Models (spec/14_weights_and_models.md, 11_patterns.md) -/

/-- An object that OPEN created (R348): KIND of its image, tenant, binding, layers and groups of an apprentice (R402), whether it
is being closed (R361), its head (bytes 0 to HEADLEN − 1), EARLY, the bytes of sections that are landing (by section), and of a
private image the sections verified. -/
structure Obj where
  kind : Nat
  tenant : Nat
  binding : Nat
  layers : Nat
  groups : Nat
  closing : Bool
  head : List Byte
  early : Bool
  landing : Tab (List Byte)
  done : List Nat
  deriving DecidableEq, Repr

/-- A pattern image loaded for a generation of a binding (R280): the digital model it is for (0: the base model), its MAXPOS (R377) and
its bytes; where it has been replaced, the steps in flight that still run from it (R281). -/
structure PatImage where
  binding : Nat
  gen : Nat
  obj : Nat
  maxpos : Nat
  bytes : List Byte
  old : Bool
  steps : List Nat
  deriving DecidableEq, Repr

/-- A tile of a generation on this module (R354): its array, section and row tile, the section's digest, whether its codes are
resident, whether it is shared with the generation before or bound by REUSE, and whether it is unplaced (Table 14.12). -/
structure GTile where
  arr : Nat
  sec : Nat
  rt : Nat
  dig : Nat
  landed : Bool
  shared : Bool
  unplaced : Bool
  deriving DecidableEq, Repr

/-- A generation of a binding (R360): state 1 Loading, 2 Ready, 3 Current, 4 Draining (Table 14.10); its object, the image
digest, mode (0 nested, 1 lean) and weight coding; the placement's modules and this module's index; the attention dies in the
placement's order, as local die or 8 for a die of another module (R401); NL, the KV groups and the vocabulary size; this module's tiles; whole
sections placed on its dies (section, die); sections that await PUT; whether SWITCH has been accepted; and its cores in the order of the
roles that they run, a rehomed core's place taken by its spare (R242, R293). -/
structure Gen where
  binding : Nat
  gen : Nat
  st : Nat
  obj : Nat
  digest : Nat
  mode : Nat
  wfmt : Nat
  modules : Nat
  index : Nat
  attn : List Nat
  nl : Nat
  groups : Nat
  vocab : Nat
  tiles : List GTile
  whole : List (Nat × Nat)
  missing : List Nat
  switched : Bool
  cores : List Nat
  deriving DecidableEq, Repr

/-- A part of an image in a die's binding region or a tenant region (R358, R363): the generation's number (0 for a private object),
the object, section, die, DRAM offset, bytes, virtual address, the DRAM offset of its copy on the partner die (0 without
mirrors), and whether it is mapped (R358, R363). -/
structure Part where
  gen : Nat
  obj : Nat
  sec : Nat
  die : Nat
  addr : Nat
  len : Nat
  va : Nat
  twin : Nat
  mapped : Bool
  deriving DecidableEq, Repr

/-- A key slot (R350): its tenant, whether it holds a data key, and the plaintext. -/
structure KeySlot where
  tenant : Nat
  dataKey : Bool
  key : List Byte
  deriving DecidableEq, Repr

/-- A key that a step in flight keeps after its slot changed (R350): slot, the step's binding and number, and the key. -/
structure KeptKey where
  slot : Nat
  binding : Nat
  step : Nat
  key : KeySlot
  deriving DecidableEq, Repr

/-- Models, patterns and generations; image parts in DRAM; the key store, the keys that steps keep, and the last COUNTER accepted under
each slot plus one (R351); and whether golden copies are mirrored (GOLDMIRROR as the last start-up found it, R359). -/
structure Models where
  objs : Tab (Option Obj)
  pats : List PatImage
  gens : List Gen
  parts : List Part
  keys : Tab (Option KeySlot)
  kept : List KeptKey
  counters : Tab Nat
  mirror : Bool
  deriving DecidableEq, Repr

/-! ## Cell care and thermal control (spec/09_assay_and_cell_care.md, 21_thermal_and_power.md) -/

/-- A programming on a core (R230–R235): the array; why (0 a load, 1 re-tempering, 2 rehoming); the next row; whether it is paused
(R232); cell restarts; columns found failing in the present row; failing columns in all; how often each cell of the row has
overshot (column and count); the group of the row at work (13 when all are accepted), its iterations so far, and its columns accepted and
its columns that restart from reset (R230). -/
structure Prog where
  arr : Nat
  why : Nat
  row : Nat
  paused : Bool
  restarts : Nat
  failing : List Nat
  failed : Nat
  overs : Tab Nat
  group : Nat
  iter : Nat
  accepted : List Nat
  restart : List Nat
  deriving DecidableEq, Repr

/-- Cell care of a core: arrays whose tiles wait for the engine, ascending; the programming under way; the logic test (0 none, 1 due, 2 past its deadline)
and the full core assay (likewise); arrays whose assay was requested; arrays whose drift entries wait to be staged; whether the last
logic test passed; whether the full core assay was requested under R241, and the fenced lanes whose trace has passed in it and those
that have failed in it (R489); the array whose probes were begun last (R205); the arrays whose column tables are to be built, the first of
them at work (R225); and the arrays that the full core assay has swept and tabulated (R227). -/
structure CareCore where
  queue : List Nat
  prog : Option Prog
  test : Nat
  assay : Nat
  arrReq : List Nat
  stageQ : List Nat
  passed : Bool
  asked : Bool
  lanesOk : List Nat
  lanesBad : List Nat
  turn : Nat
  tabQ : List Nat
  swept : List Nat
  tabbed : List Nat
  deriving DecidableEq, Repr

/-- The write window of a half-die (R236, R525): 0 closed, 1 waiting in the queue, 2 requested of the die, 3 open; whether WINMAX
has passed; whether WINGAP still runs; whether a load or a rehoming asked for it; whether the operator did; and whether a withdrawn
request waits to be queued again. -/
structure Win where
  st : Nat
  closing : Bool
  gap : Bool
  forced : Bool
  asked : Bool
  again : Bool
  deriving DecidableEq, Repr

/-- Cell care: cores (by core key), windows (by half-die 2 × die + half), half-dies whose requests wait, in order of arrival; by die,
the lanes (core × 16 + lane) still to be traced in the retrace under way, whether the notice of an invalid REF_CAL was recorded in
it; the lanes (lane keys) traced in the present retrace cycle or start-up; the dies whose retrace waits for a passing reference check; and the
dies that have begun the present cycle (R229). -/
structure Care where
  cores : Tab CareCore
  wins : Tab Win
  winQ : List Nat
  retrace : Tab (List Nat)
  refNoted : List Nat
  tracedNow : List Nat
  refWait : List Nat
  cycle : List Nat
  deriving DecidableEq, Repr

/-- Thermal control of a die (R515–R525): each core's reported junction and its past, newest first (hub time, junction), in
units of 2^−6 °C; each core's power in mW; each sensor's last reading; the half offsets; how many updates in a row each sensor has
disagreed; dropped sensors; the rise code of each half; and the cores whose prediction stands at STOPT. -/
structure Therm where
  tj : Tab Int
  past : Tab (List (Nat × Int))
  power : Tab Nat
  sens : Tab Int
  eps : List Rat
  odd : Tab Nat
  dropped : List Nat
  rise : List Nat
  stops : List Nat
  deriving DecidableEq, Repr

/-- Power as the hub sees it (R527, R528): the plate node; hub time of the last rise of the cap code; whether 0x0A05 has been
recorded in this episode; the mean input power of the last 100 µs and of the last 10 ms (mW); the input energy since start-up, in units of
0.1 µJ; the intervals of 100 µs with the cap active; whether the input voltage, and current and power, have been measured (R558); and
whether the inlet sensor reads invalid (Table 21.6). -/
structure Cap where
  plate : Int
  raised : Nat
  noted : Bool
  a01 : Nat
  a10 : Nat
  energy : Nat
  active : Nat
  vSeen : Bool
  seen : Bool
  inletBad : Bool
  deriving DecidableEq, Repr
/-! ## The state -/

/-- The state of the module and the queue of waiting commands. -/
structure State where
  pending : List Instr
  regs : Tab Word
  od : Tab OdVal
  mem : List Host.Cell
  fresh : Nat
  sys : Sys
  faults : Faults
  power : Power
  flash : Flash
  mgmt : Mgmt
  tenants : Tab (Option Tenant)
  hif : Hif
  serve : Serve
  dies : Tab DieSt
  cores : Tab CoreSt
  loom : Loom
  probes : Tab (List (List Int))
  models : Models
  care : Care
  therm : Tab Therm
  cap : Cap
  wire : List Remote
  memc : Tab Memc
  fab : Fabric
  deriving DecidableEq, Repr

/-- Faults in which the model stops. No command raises one: every command answers a next state. -/
inductive Fault where
  /-- Never raised. Safe. -/
  | none
  deriving DecidableEq, Repr

/-- Refusals. -/
inductive Refusal where
  /-- Raised by `exec` for a command that has no meaning yet. Safe: nothing is claimed of it. -/
  | notModelled (mnemonic : String)
  deriving DecidableEq, Repr

/-! ## Defaults of the tables -/

/-- The core of control-space key `k` (die number + 1 in the bits from 32), if it lies in a core window. -/
def keyCore (k : Nat) : Nat := k % 2 ^ 32 / 65536

/-- Whether port `p` of die `n` faces its partner inside the package (R17, R435). -/
def internalPort (n p : Nat) : Bool := (p / 2 < 3) && ((n / 2 ^ (p / 2)) % 2 != p % 2)

/-- The reset word of a control-space key (R6, R275): each field at its reset value; CORE_ID holds the core's own number,
die and half; LINK_FAB the die's number, and LINK_STAT whether its port is internal. -/
def regReset (k : Nat) : Word :=
  let off := k % 2 ^ 32
  let isHub := k < 2 ^ 32
  let isCore := !isHub && off < 72 * 65536
  let o := if isCore then off % 65536 else off
  let l := if isHub then resetHub else if isCore then resetCore else resetDie
  let base := l.foldl (fun a f =>
    if decide (f.off ≤ o) && decide ((o - f.off) % f.stride = 0) && decide ((o - f.off) / f.stride < f.copies)
    then a + f.rst * 2 ^ f.lo else a) 0
  let ident := if isCore && o = 0 then
    off / 65536 + 128 * (k / 2 ^ 32 - 1) + 4096 * (if off / 65536 % 12 < 6 then 0 else 1)
    else if isHub || isCore then 0
    else if off = 0x1002400 then k / 2 ^ 32 - 1
    else if 0x1002000 ≤ off ∧ off < 0x1002300 ∧ off % 0x80 = 4 then 64 * (if internalPort (k / 2 ^ 32 - 1) ((off - 0x1002000) / 0x80) then 1 else 0)
    else 0
  BitVec.ofNat 32 (base + ident)

/-- The entry line that holds an index and subindex. -/
def odFind (idx sub : Nat) : Option OdEnt :=
  odMap.find? fun e => decide (e.idx ≤ idx) && decide (idx < e.idx + e.run) && decide (e.sub ≤ sub) && decide (sub < e.sub + e.subs)

/-- The value of a dictionary entry at start-up: its default; a measured entry with no valid measurement reads as R558
says. -/
def odReset (k : Nat) : OdVal :=
  match odFind (k / 256) (k % 256) with
  | none => .num 0
  | some e =>
    match e.ty with
    | .blob | .str => .bytes []
    | .f32 => .num (if e.kind = .measured then 0x7FC00000 else e.dflt)
    | .u8 => .num (if e.kind = .measured then 0xFF else e.dflt)
    | .u16 => .num (if e.kind = .measured then 0xFFFF else e.dflt)
    | .u32 => .num (if e.kind = .measured then 0xFFFFFFFF else e.dflt)
    | .u64 => .num (if e.kind = .measured then 0xFFFFFFFFFFFFFFFF else e.dflt)
    | .bool => .num e.dflt

/-- A core with no task. -/
def CoreSt.idle : CoreSt where
  tasks := []
  ds := []
  queues := []
  out := []
  ending := false
  stopped := false
  failed := []
  badLines := []
  poisoned := []
  upsets := []
  glitches := []
  replays := 2
  tags := []
  unfilled := []
  held := []
  relDue := []
  appends := []
  nextNo := 0
  ops := []
  verdicts := []
  redoQ := []
  p16Q := []
  p16Held := []
  grantQ := []
  adds := []
  order := []
  summs := []
  counts := []
  staged := []
  starved := false
  since := 0
  runs := []
  tlb := []
  rowBuf := []
  applied := []
  driftOn := true
  opHi := none
  probeStat := 0
  idleLanes := []
  taken := false
  progress := []

/-- No task in a slot. -/
def Task.none : Task := ⟨4, 0, 0, 0, 0, false, [], 0, [], false⟩

/-- A data slot not in use. -/
def DSlot.off : DSlot := ⟨0, 0, false, 0, false, 0⟩

/-- A die at the start of start-up. -/
def DieSt.cold : DieSt := ⟨[], false, false, [], [], [], false, false, [], [], [], false, [], none, [], [], false, [], [], [], 0⟩

/-- A memory controller with nothing to do. -/
def Memc.idle : Memc := ⟨[], [], none, [], [], [], [], false, [], 0⟩

/-- A remap table with no entry. -/
def noRemaps : List (Option Nat) := List.replicate 16 none

/-- No route (LINK_RDATA at reset). -/
def Route.none : Route := ⟨7, false, 7, false⟩

/-- A port before training. -/
def PortSt.off : PortSt := ⟨0, false, [], [], false, 0, 0, [], false, none⟩

/-- A die that takes no part in an operation. -/
def DieOp.none : DieOp := ⟨false, [], false⟩

/-- A group with no operation. -/
def GOp.idle : GOp := ⟨false, 0, 0, [], none, []⟩

/-- The fabric before any port has trained. -/
def Fabric.off : Fabric := ⟨[], [], [], 0, 0, false, [], [], [], [], [], 0, [], []⟩

/-- The looms as manufactured. -/
def Loom.blank : Loom := ⟨[], [], [], [], [], [], [], [], [], [], [], [], []⟩


/-- An ADC at reset: 0–127 convert, 128–135 are free spares. -/
def Adc.at (n : Nat) : Adc := ⟨0, 0, if n < 128 then 0 else 1, 0, 0, [], false, 0⟩

/-- A lane at reset (Table 9.9). -/
def LaneSt.idle : LaneSt := ⟨0, none, 0x100000, 0, false, 0, false, false⟩

/-- A lane of which flash keeps nothing. -/
def LanePerm.none : LanePerm := ⟨[], 0x100000, 0, 2 ^ 24, 0x7FC00000, 0⟩

/-- An array that has not been evaluated (Table 8.7 reset values). -/
def Acc.none : Acc :=
  ⟨1, 0, 0, 1, 0, 0, 0, 0, false, 0, 0, 0, false, false, false, false, false, false, 0, [], [], 0xFFFF, false, false, 0, 0, .none⟩

/-- What the looms keep through a power cycle or a module reset: the cells, what flash holds of each array and lane, the maker's
constants, and the age of each array, which only a programming sets to zero (R211, R228). (DESIGN CHOICE: notes/assumptions/73.md.) -/
def Loom.kept (l : Loom) : Loom := { Loom.blank with
  cells := l.cells, perm := l.perm, lanePerm := l.lanePerm, lines := l.lines, caps := l.caps
  accs := (l.accs.filter fun p => p.2.age != 0).map fun p => (p.1, { Acc.none with age := p.2.age }) }

/-- An array that flash knows nothing of. -/
def ArrPerm.none : ArrPerm := ⟨[], 0, 0, 0, [], false, []⟩

/-- An unprogrammed array. -/
def Arr.blank : Arr := ⟨0, 0, 0, 0, none⟩
/-- A ring that is not set (R572). -/
def Ring.none : Ring := ⟨0, 0, 0, 0, true, 0, 0, 0, 0⟩

/-- An empty image slot. -/
def ImgSlot.empty : ImgSlot := ⟨0, 0, 0, 0, false, []⟩

/-- The number of an unlimited budget or quota (R453). -/
def unlimited : Nat := 2 ^ 64 - 1

/-- A disabled queue record. -/
def Queue.off : Queue := ⟨false, false, 0, 0, 1, 0, 1, 0, List.replicate 4 unlimited, List.replicate 4 unlimited, [0, 0, 0, 0], [0, 0, 0, 0]⟩

/-- A Free context. -/
def Ctx.free : Ctx :=
  ⟨0, 0, 0, false, false, 0, 1, 0, 0, 0, 0, 0, 0, 0, 0, 0, 0, 0, [], 0, 0, 0, [], 0, 0, [], 0, 0, [], [], [], [],
    false, [], [], false, none, false⟩

/-- A disabled admin queue. -/
def AdminQ.off : AdminQ := ⟨false, 0, 0xFF, .none, .none, [], 0, false, []⟩

/-- An MSI-X entry after an endpoint reset: masked. -/
def MsixEnt.off : MsixEnt := ⟨0, 0, true, false, 0⟩

/-- A free page group. -/
def PageGroup.free : PageGroup := ⟨0, 0, 0, 0, 0, 0, false, false, []⟩

/-- A core of which care wants nothing. -/
def CareCore.idle : CareCore := ⟨[], none, 0, 0, [], [], true, false, [], [], 511, [], [], []⟩

/-- A closed window. -/
def Win.closed : Win := ⟨0, false, false, false, false, false⟩

/-- Thermal control at die release (R521): rise codes at the default base code. -/
def Therm.start : Therm := ⟨[], [], [], [], [0, 0], [], [], [24, 24], []⟩

/-- No promotion. -/
def Promo.none : Promo := ⟨0, 0, 0, false, .none⟩

/-- A row that drew nothing. -/
def RowResult.none : RowResult := ⟨[], 0⟩

/-- A binding with nothing formed. -/
def Binding.fresh : Binding := ⟨0, [0, 0, 0, 0], [], [], false, false, false, false, [], 0, false, 1, 0, 1, 1, 1, List.range 8, 96000, 0⟩

/-- The faults of a start-up that has met none. -/
def Faults.none : Faults := ⟨[], [], 1, [], [], []⟩

/-- Serving with no queue, no context and no step. -/
def Serve.empty : Serve := ⟨[], [], [], [], 0, -1, 0, [], 0, [], [], [], [], 0, 0, 0, [], 0, false, 0, 0⟩

/-- The host interface after an endpoint reset. -/
def Hif.off : Hif := ⟨false, [], [], [], [], [], [], (0, 0)⟩

/-- Roles and the management network at start-up. -/
def Mgmt.start : Mgmt :=
  ⟨[], [], 0, 0, false, false, [], 1, none, ⟨0, []⟩, [], [], 0, true, false, false, none, none⟩

/-- Flash and fuses as the model holds them at reset (DESIGN CHOICE: the spec states no image, serial number or credential):
two empty slots, no record of any kind. -/
def Flash.blank : Flash :=
  ⟨.empty, .empty, 0, false, [], 0, [], [], [], [], [], [], [], false, 0, [], [], 0, [], []⟩

/-- The standby domain and input stage at t0 of a power-cycle start-up: the start conditions hold (R71). -/
def Power.atStart : Power := ⟨true, true, true, true, false, false, false, [], 0, []⟩

/-- The machine right after reset: t0 of a start-up that a power cycle began, in phase 0x01 (R72, R93). The values that the spec does not
give are the model's (DESIGN CHOICE: notes/assumptions/4.md). -/
def State.reset : State where
  pending := []
  regs := []
  od := []
  mem := []
  fresh := 0
  sys := ⟨0, 0, false, false, none, 0, false, false, none, 0, false⟩
  faults := .none
  power := .atStart
  flash := .blank
  mgmt := .start
  tenants := []
  hif := .off
  serve := .empty
  dies := []
  cores := []
  loom := .blank
  probes := []
  models := ⟨[], [], [], [], [], [], [], true⟩
  care := ⟨[], [], [], [], [], [], [], []⟩
  therm := []
  cap := ⟨0, 0, false, 0, 0, 0, 0, false, false, false⟩
  wire := []
  memc := []
  fab := .off

end Sys2Proof.Machine
end

