-- ==== Sys2Proof/Machine/Ops.lean ====
section
/-! DEFINITION. The named operations over registers, dictionary values, memory and free values. Every command reaches this
state through them. -/

namespace Sys2Proof.Machine

/-! ### Control space (R5, R6) -/

/-- Key base of the hub's control space. -/
def hubB : Nat := 0

/-- Key base of die `n`'s control space. -/
def dieB (n : Nat) : Nat := (n + 1) * 2 ^ 32

/-- Key base of the control window of core `c` of die `d` (R5). -/
def coreB (d c : Nat) : Nat := (d + 1) * 2 ^ 32 + c * 65536

/-- Key of a core in the core table. -/
def coreKey (d c : Nat) : Nat := d * 72 + c

/-- Key of an array. -/
def arrKey (d c a : Nat) : Nat := coreKey d c * 512 + a

/-- The half of the die that a core lies in: 0 west, 1 east (R5). -/
def halfOf (c : Nat) : Nat := if c % 12 < 6 then 0 else 1

/-- A stored register word. -/
def rget (s : State) (k : Nat) : Word := tget regReset s.regs k

/-- A register word stored. -/
def rset (s : State) (k : Nat) (w : Word) : State := { s with regs := tset regReset s.regs k w }

/-- The key of copy `i` of a field's register. -/
def fkey (b : Nat) (f : Fld) (i : Nat) : Nat := b + f.off + i * f.stride

/-- A number with bits `lo + w - 1` to `lo` at a value. -/
def setBits (x lo w v : Nat) : Nat := x - natBits x lo w * 2 ^ lo + v % 2 ^ w * 2 ^ lo

/-- A register field. -/
def fget (s : State) (b : Nat) (f : Fld) (i : Nat := 0) : Nat := natBits (rget s (fkey b f i)).toNat f.lo f.width

/-- A register field set. -/
def fset (s : State) (b : Nat) (f : Fld) (v : Nat) (i : Nat := 0) : State :=
  rset s (fkey b f i) (BitVec.ofNat 32 (setBits (rget s (fkey b f i)).toNat f.lo f.width v))

/-- A register counter raised by `n`, wrapping (the counters of the register blocks wrap). (DEDUCED: notes/assumptions/69.md.) -/
def finc (s : State) (b : Nat) (f : Fld) (n : Nat := 1) (i : Nat := 0) : State := fset s b f (fget s b f i + n) i

/-- A register counter raised by `n`, stopping at all ones. (DEDUCED: notes/assumptions/69.md.) -/
def fincSat (s : State) (b : Nat) (f : Fld) (n : Nat := 1) (i : Nat := 0) : State :=
  fset s b f (satAdd f.width n (fget s b f i)) i

/-- The register words of one core's window dropped to their reset values. -/
def regsDropRange (t : Tab Word) (lo hi : Nat) : Tab Word := t.filter fun p => decide (p.1 < lo) || decide (hi ≤ p.1)

/-! ### The object dictionary -/

/-- The key of an entry and subindex. -/
def odKey (idx sub : Nat) : Nat := idx * 256 + sub

/-- The stored value of an entry. -/
def odGet (s : State) (idx sub : Nat) : OdVal := tget odReset s.od (odKey idx sub)

/-- An entry's value stored. (DESIGN CHOICE: notes/assumptions/31.md.) -/
def odPut (s : State) (idx sub : Nat) (v : OdVal) : State := { s with od := tset odReset s.od (odKey idx sub) v }

/-- The number of a value. -/
def OdVal.nat : OdVal → Nat
  | .num n => n
  | .bytes b => leNat b

/-- The bytes of a value. -/
def OdVal.bytesOf : OdVal → List Byte
  | .num _ => []
  | .bytes b => b

/-- An entry's number. -/
def odNum (s : State) (idx : Nat) (sub : Nat := 0) : Nat := (odGet s idx sub).nat

/-- An entry's number stored. -/
def odSet (s : State) (idx sub n : Nat) : State := odPut s idx sub (.num n)

/-- The width of a type in bits; blobs have none. -/
def OdTy.bits : OdTy → Nat
  | .u8 | .bool => 8 | .u16 => 16 | .u32 | .f32 => 32 | .u64 => 64 | .str | .blob => 0

/-- The width of an entry. -/
def odBits (idx sub : Nat) : Nat := match odFind idx sub with | some e => e.ty.bits | none => 0

/-- A dictionary counter raised by `n`, stopping at all ones (R557). (DEDUCED: notes/assumptions/69.md.) -/
def odInc (s : State) (idx sub : Nat) (n : Nat := 1) : State :=
  odSet s idx sub (satAdd (odBits idx sub) n (odNum s idx sub))

/-! ### Memory: DRAM and scratchpads under one address (R17, R324) -/

/-- A byte of memory; an address nothing has written reads as zero (R77, Table 3.6). (DESIGN CHOICE: notes/assumptions/4.md.) -/
def mget (s : State) (a : Nat) : Byte := tget (fun _ => 0#8) s.mem a

/-- A byte written. -/
def mput (s : State) (a : Nat) (b : Byte) : State := { s with mem := tset (fun _ => 0#8) s.mem a b }

/-- The address of DRAM offset `a` of die `d`. -/
def dramAddr (d a : Nat) : Nat := d * 2 ^ 50 + a

/-- The address of physical scratchpad offset `a` of core `c` of die `d` (space 0b01). -/
def spadAddr (d c a : Nat) : Nat := d * 2 ^ 50 + 2 ^ 48 + c * 2 ^ 21 + a

/-- `n` bytes from an address. -/
def mread (s : State) (a n : Nat) : List Byte := (List.range n).map fun i => mget s (a + i)

/-- Bytes written from an address, lowest first. -/
def mwrite (s : State) (a : Nat) (l : List Byte) : State :=
  (l.zipIdx).foldl (fun t p => mput t (a + p.2) p.1) s

/-- A little-endian number read from memory. -/
def mnat (s : State) (a n : Nat) : Nat := leNat (mread s a n)

/-- The bytes of an address range set to zero. -/
def mzero (s : State) (lo hi : Nat) : State :=
  { s with mem := s.mem.filter fun p => decide (p.1 < lo) || decide (hi ≤ p.1) }

/-- The canonical form of memory: addresses strictly rising, and no byte equal to what an unlisted address reads as. -/
def Memory.wf (m : List Host.Cell) : Bool := twf (fun _ => 0#8) m

/-! ### Free values -/

/-- A fresh free natural number and the state with the counter advanced. (DESIGN CHOICE: notes/assumptions/5.md.) -/
def takeNat (s : State) : Nat × State := (Config.freeNat s.fresh, { s with fresh := s.fresh + 1 })

/-- A fresh free 32-bit pattern. (DESIGN CHOICE: notes/assumptions/5.md.) -/
def takeWord (s : State) : Word × State := (Config.freeWord s.fresh, { s with fresh := s.fresh + 1 })

/-- A fresh free signed number. (DESIGN CHOICE: notes/assumptions/5.md.) -/
def takeInt (s : State) : Int × State := (Config.freeInt s.fresh, { s with fresh := s.fresh + 1 })

/-- A fresh number of the hub's random source. (DESIGN CHOICE: notes/assumptions/8.md.) -/
def takeRandom (s : State) : Nat × State := (Config.random s.fresh, { s with fresh := s.fresh + 1 })

/-- Free 32-bit values, `n` of them. -/
def takeWords : Nat → State → List Nat × State
  | 0, s => ([], s)
  | n + 1, s =>
    let (w, s) := takeNat s
    let (l, s) := takeWords n s
    (w % 2 ^ 32 :: l, s)

/-- Free bytes, `n` of them. -/
def takeBytes : Nat → State → List Byte × State
  | 0, s => ([], s)
  | n + 1, s =>
    let (w, s) := takeNat s
    let (l, s) := takeBytes n s
    (BitVec.ofNat 8 w :: l, s)

/-! ### The state of the parts -/

/-- A core. -/
def coreOf (s : State) (d c : Nat) : CoreSt := tget (fun _ => CoreSt.idle) s.cores (coreKey d c)

/-- A core changed. -/
def modCore (s : State) (d c : Nat) (f : CoreSt → CoreSt) : State :=
  { s with cores := tmod (fun _ => CoreSt.idle) s.cores (coreKey d c) f }

/-- A die. -/
def dieOf (s : State) (d : Nat) : DieSt := tget (fun _ => DieSt.cold) s.dies d

/-- A die changed. -/
def modDie (s : State) (d : Nat) (f : DieSt → DieSt) : State :=
  { s with dies := tmod (fun _ => DieSt.cold) s.dies d f }

/-- An array. -/
def arrOf (s : State) (key : Nat) : Arr := tget (fun _ => Arr.blank) s.loom.arrs key

/-- An array changed. -/
def modArr (key : Nat) (f : Arr → Arr) (s : State) : State :=
  { s with loom := { s.loom with arrs := tmod (fun _ => Arr.blank) s.loom.arrs key f } }

/-- An array's accuracy record. -/
def accOf (s : State) (key : Nat) : Acc := tget (fun _ => Acc.none) s.loom.accs key

/-- An array's accuracy record changed. -/
def modAcc (key : Nat) (f : Acc → Acc) (s : State) : State :=
  { s with loom := { s.loom with accs := tmod (fun _ => Acc.none) s.loom.accs key f } }

/-- Key of a lane. -/
def laneKey (d c lane : Nat) : Nat := coreKey d c * 16 + lane

/-- A lane. -/
def laneOf (s : State) (d c lane : Nat) : LaneSt := tget (fun _ => LaneSt.idle) s.loom.lanes (laneKey d c lane)

/-- A lane changed. -/
def modLane (d c lane : Nat) (f : LaneSt → LaneSt) (s : State) : State :=
  { s with loom := { s.loom with lanes := tmod (fun _ => LaneSt.idle) s.loom.lanes (laneKey d c lane) f } }

/-- Whether a lane is fenced. -/
def laneFenced (s : State) (d c lane : Nat) : Bool := natBit (fget s (coreB d c) F.LOOM_STAT_LANE_FENCED) lane

/-- An ADC of a lane: 0–127 working, 128–135 spares. -/
def adcOf (s : State) (d c lane n : Nat) : Adc := tget (fun k => Adc.at (k % 256)) s.loom.adcs (laneKey d c lane * 256 + n)

/-- An ADC changed. -/
def modAdc (d c lane n : Nat) (f : Adc → Adc) (s : State) : State :=
  { s with loom := { s.loom with adcs := tmod (fun k => Adc.at (k % 256)) s.loom.adcs (laneKey d c lane * 256 + n) f } }

/-- What flash keeps of a lane. -/
def lanePermOf (s : State) (d c lane : Nat) : LanePerm := tget (fun _ => LanePerm.none) s.loom.lanePerm (laneKey d c lane)

/-- What flash keeps of a lane changed. -/
def modLanePerm (d c lane : Nat) (f : LanePerm → LanePerm) (s : State) : State :=
  { s with loom := { s.loom with lanePerm := tmod (fun _ => LanePerm.none) s.loom.lanePerm (laneKey d c lane) f } }

/-- LOOM_SPUSE of a lane from its spares (R127). -/
def setSpuse (d c lane : Nat) (s : State) : State :=
  let v := (List.range 8).foldl (fun a i => if (adcOf s d c lane (128 + i)).st = 2 then a + 2 ^ i else a) 0
  let b := coreB d c
  fset s b F.LOOM_SPUSE_USE (setBits (fget s b F.LOOM_SPUSE_USE (lane / 4)) (8 * (lane % 4)) 8 v) (lane / 4)

/-- The lowest free spare of a lane; where none is free, one whose calibration is abandoned for it (Table 9.7). -/
def freeSpare (s : State) (d c lane : Nat) (abandon : Bool) : Option Nat :=
  match (List.range 8).find? fun i => (adcOf s d c lane (128 + i)).st == 1 with
  | some i => some i
  | none => if abandon then (List.range 8).find? fun i => (adcOf s d c lane (128 + i)).st == 3 else none

/-- A spare put in the place of a working ADC. -/
def standIn (d c lane i n : Nat) (s : State) : State :=
  setSpuse d c lane (modAdc d c lane (128 + i) (fun a => { a with st := 2, stands := n + 1 }) s)

/-- The spare that stands in for a working ADC freed. -/
def freeStand (d c lane n : Nat) (s : State) : State :=
  setSpuse d c lane ((List.range 8).foldl (fun s i =>
    if (adcOf s d c lane (128 + i)).stands = n + 1 then modAdc d c lane (128 + i) (fun a => { a with st := 1, stands := 0 }) s else s) s)

/-- The spare that stands in for a working ADC. -/
def standFor (s : State) (d c lane n : Nat) : Option Nat := (List.range 8).find? fun i => (adcOf s d c lane (128 + i)).stands == n + 1

/-- An array's state put in force. One that leaves Serving and Staging abandons the evaluation under way on it (Table 8.9). -/
def putState (key v : Nat) (s : State) : State :=
  let s := modArr key (fun a => { a with st := v, later := none }) s
  if v = 2 ∨ v = 3 then s else { s with probes := tset (fun _ => []) s.probes key [] }

/-- A descriptor's deferred STATE write put in force (Table 4.10). -/
def applyLater (key : Nat) (s : State) : State :=
  match (arrOf s key).later with
  | some v => putState key v s
  | none => s

/-- The deferred writes of some arrays put in force: the operations they waited for have ended. -/
def applyLaters (p : Nat → Bool) (s : State) : State :=
  (s.loom.arrs.filter fun a => p a.1 && a.2.later.isSome).foldl (fun s a => applyLater a.1 s) s

/-- Thermal control of a die. -/
def thermOf (s : State) (d : Nat) : Therm := tget (fun _ => Therm.start) s.therm d

/-- Thermal control of a die changed. -/
def modTherm (d : Nat) (f : Therm → Therm) (s : State) : State :=
  { s with therm := tmod (fun _ => Therm.start) s.therm d f }

/-- The reported junction of a core, in units of 2^−6 °C (R516). -/
def junction (s : State) (d c : Nat) : Int := tget (fun _ => 0) (thermOf s d).tj c

/-- The state of a die as OD 0x3000 + n .01 codes it (Table 23.5): 1 Starting, 2 Released, 3 Resetting, 4 Fenced, 5 Held. -/
def dieState (s : State) (d : Nat) : Nat := odNum s (0x3000 + d) 1

/-- MOD_STATE (Table 2.12). -/
def modState (s : State) : Nat := fget s hubB F.HUB_SIGSTAT_MOD_STATE

/-- HUB_BOOTSTAT.PHASE. -/
def bootPhase (s : State) : Nat := fget s hubB F.HUB_BOOTSTAT_PHASE

/-- Whether a core is enabled (CORE_ID.ENABLED). -/
def coreEnabled (s : State) (d c : Nat) : Bool := fget s (coreB d c) F.CORE_ID_ENABLED == 1

/-- Whether no task holds a slot of a core. -/
def coreFree (s : State) (d c : Nat) : Bool := (List.range 4).all fun t => fget s (coreB d c) F.CORE_TCTL_VALID t == 0

/-- Whether a core is fenced (CORE_ID.FENCED). -/
def coreFenced (s : State) (d c : Nat) : Bool := fget s (coreB d c) F.CORE_ID_FENCED == 1

/-- Whether a valid cover entry names a core as host (R483). -/
def coreHosts (s : State) (d c : Nat) : Bool :=
  (List.range 8).any fun k => fget s (dieB d) F.FLT_COVER_VALID k == 1 && fget s (dieB d) F.FLT_COVER_HOST k == c

/-- Whether a core runs patterns: it is of the enabled set, or a cover host (R76, R483). -/
def coreRuns (s : State) (d c : Nat) : Bool := coreEnabled s d c || coreHosts s d c

/-- Whether a core is usable: neither ruled out by the fuse map nor in the field fence record, and its router not Out (R76,
R303). -/
def coreUsable (s : State) (d c : Nat) : Bool :=
  !(s.flash.fuseBad ++ s.flash.fences ++ s.flash.routerBad ++ s.flash.routerFences).contains (coreKey d c)

/-- The core whose tiles a core serves: the source of the valid cover entry that names it, else itself (R483). -/
def coverSource (s : State) (d c : Nat) : Nat × Nat :=
  match (List.range 8).find? fun k => fget s (dieB d) F.FLT_COVER_VALID k == 1 && fget s (dieB d) F.FLT_COVER_HOST k == c with
  | some k => (fget s (dieB d) F.FLT_COVER_SDIE k, fget s (dieB d) F.FLT_COVER_SOURCE k)
  | none => (d, c)

/-- Whether the tile that a core serves at an array index is lean. -/
def tileLean (s : State) (d c a : Nat) : Bool :=
  let k := coverSource s d c
  (arrOf s (arrKey k.1 k.2 a)).mode == 1

/-- The physical cores of a die. -/
def coreList : List Nat := List.range 72

/-- The dies of the module. -/
def dieList : List Nat := List.range 8

/-- Every core of the module, as die and core. -/
def allCores : List (Nat × Nat) := dieList.flatMap fun d => coreList.map fun c => (d, c)

/-- Whether the module is fault-halted: safe state or grave state. -/
def halted (s : State) : Bool := modState s == 5 || modState s == 6

/-- Hub time in µs (OD 0x100B). -/
def hubTime (s : State) : Nat := s.sys.hubTime

end Sys2Proof.Machine
end

