-- ==== Sys2Proof/Machine/Grid.lean ====
section
/-! DEFINITION. The fabric plan, die numbers, and routes over the links that are Routed (spec/17_fabric.md R434–R443). -/

namespace Sys2Proof.Machine

/-! ### The plan (R434) -/

/-- The fabric as a grid of dies: its size on each axis, and whether the axis wraps (R435). -/
structure Grid where
  x : Nat
  y : Nat
  z : Nat
  wx : Bool
  wy : Bool
  wz : Bool
  deriving DecidableEq, Repr

/-- The plan's bytes; empty without a plan. -/
def planBytes (s : State) : List Byte := (odGet s 0x6000 0).bytesOf

/-- Whether a plan is in force. -/
def planned (s : State) : Bool := !(planBytes s).isEmpty

/-- The grid of a plan's bytes; 2 × 2 × 2, all open, without one. -/
def gridIn (b : List Byte) : Grid :=
  if b.isEmpty then ⟨2, 2, 2, false, false, false⟩
  else
    let f := leAt b 1 1
    ⟨2 * leAt b 2 1, 2 * leAt b 3 1, 2 * leAt b 4 1, natBit f 0, natBit f 1, natBit f 2⟩

/-- The grid in force. -/
def gridOf (s : State) : Grid := gridIn (planBytes s)

/-- The module positions of a grid. -/
def Grid.positions (g : Grid) : Nat := g.x / 2 * (g.y / 2) * (g.z / 2)

/-- The serial number at a position of a plan. -/
def serialAt (b : List Byte) (m : Nat) : List Byte := sliceBytes b (64 + 32 * m) 16

/-- Whether a serial number is that of a vacant position. -/
def isVacant (l : List Byte) : Bool := l.all fun x => x == 0#8

/-- Size of an axis. -/
def Grid.size (g : Grid) (a : Nat) : Nat := match a with | 0 => g.x | 1 => g.y | _ => g.z

/-- Whether an axis is a ring. -/
def Grid.wraps (g : Grid) (a : Nat) : Bool := match a with | 0 => g.wx | 1 => g.wy | _ => g.wz

/-- The coordinate of a die number on an axis (R435). -/
def Grid.coord (g : Grid) (n a : Nat) : Nat :=
  match a with | 0 => n % g.x | 1 => n / g.x % g.y | _ => n / g.x / g.y

/-- The die number with one coordinate changed. -/
def Grid.withCoord (g : Grid) (n a c : Nat) : Nat :=
  let x := if a = 0 then c else g.coord n 0
  let y := if a = 1 then c else g.coord n 1
  let z := if a = 2 then c else g.coord n 2
  x + g.x * (y + g.y * z)

/-- The die that a port faces: port 2a towards −, 2a + 1 towards + on axis a (R439). -/
def Grid.facing (g : Grid) (n p : Nat) : Option Nat :=
  let a := p / 2
  let c := g.coord n a
  let len := g.size a
  if p % 2 = 1 then
    if c + 1 < len then some (g.withCoord n a (c + 1)) else if g.wraps a then some (g.withCoord n a 0) else none
  else if c > 0 then some (g.withCoord n a (c - 1))
  else if g.wraps a then some (g.withCoord n a (len - 1)) else none

/-- The module position of a die number. -/
def Grid.posOf (g : Grid) (n : Nat) : Nat := g.coord n 0 / 2 + g.x / 2 * (g.coord n 1 / 2 + g.y / 2 * (g.coord n 2 / 2))

/-- The die number of die `i` of the module at a position (R435). -/
def Grid.dieAt (g : Grid) (m i : Nat) : Nat :=
  let mx := g.x / 2
  let my := g.y / 2
  let x := 2 * (m % mx) + i % 2
  let y := 2 * (m / mx % my) + i / 2 % 2
  let z := 2 * (m / mx / my) + i / 4 % 2
  x + g.x * (y + g.y * z)

/-- The dies of the positions that hold a module. -/
def plannedDies (s : State) : List Nat :=
  let g := gridOf s
  let b := planBytes s
  if b.isEmpty then List.range 8
  else ((List.range g.positions).filter fun m => !isVacant (serialAt b m)).flatMap fun m => (List.range 8).map fun i => g.dieAt m i

/-- The die number of a local die. (DEDUCED: notes/assumptions/58.md.) -/
def dieNum (s : State) (d : Nat) : Nat := fget s (dieB d) F.LINK_FAB_DIE

/-- The local die with a die number. (DEDUCED: notes/assumptions/58.md.) -/
def localDie (s : State) (n : Nat) : Option Nat := dieList.find? fun d => dieNum s d == n

/-- Whether the plan expects a link at a port (R436); internal ports are always expected. -/
def expected (s : State) (d p : Nat) : Bool :=
  internalPort d p ||
    (planned s && (match (gridOf s).facing (dieNum s d) p with
      | some m => !isVacant (serialAt (planBytes s) ((gridOf s).posOf m))
      | none => false))

/-! ### Routed links (R439) -/

/-- The link-state record of a port of a die number. -/
def lsaOf (s : State) (n p : Nat) : Lsa := tget (fun k => ⟨k / 8, k % 8, 0, false, 0⟩) s.fab.lsas (n * 8 + p)

/-- The die at the other end of a Routed link: both ends report it Routed. -/
def routedTo (s : State) (n p : Nat) : Option Nat :=
  match (gridOf s).facing n p with
  | some m => if (lsaOf s n p).cls = 1 ∧ (lsaOf s m (p + 1 - 2 * (p % 2))).cls = 1 then some m else none
  | none => none

/-- The dies next to a die over Routed links, by port. -/
def routedNext (s : State) (n : Nat) : List Nat := (List.range 6).filterMap fun p => routedTo s n p

/-- Breadth-first distances: what has been seen with its distance, the front, its distance; `k` bounds the rounds. -/
def bfs (next : Nat → List Nat) : Nat → List (Nat × Nat) → List Nat → Nat → List (Nat × Nat)
  | 0, seen, _, _ => seen
  | k + 1, seen, front, dist =>
    let new := ((front.flatMap next).eraseDups).filter fun n => !seen.any fun p => p.1 == n
    if new.isEmpty then seen else bfs next k (seen ++ new.map fun n => (n, dist + 1)) new (dist + 1)

/-- Distances from a node. -/
def distFrom (next : Nat → List Nat) (n : Nat) : List (Nat × Nat) := bfs next 32768 [(n, 0)] [n] 0

/-- A distance found. -/
def distOf (l : List (Nat × Nat)) (n : Nat) : Option Nat := (l.find? fun p => p.1 == n).map fun p => p.2

/-- The dies that a die reaches over Routed links, with their distances. -/
def reachOf (s : State) (n : Nat) : List (Nat × Nat) := distFrom (routedNext s) n

/-- The depths in the breadth-first tree rooted at the lowest present die number (R439), as a die sees the fabric. -/
def treeDepths (s : State) (n : Nat) : List (Nat × Nat) :=
  let l := (reachOf s n).map fun p => p.1
  reachOf s (l.foldl min n)

/-- Whether a die is lower than another in (depth, die number): the link to it is up. -/
def isLower (t : List (Nat × Nat)) (a b : Nat) : Bool :=
  match distOf t a, distOf t b with
  | some i, some j => decide (i < j) || (i == j && decide (a < b))
  | _, _ => false

/-- The moves of a legal path taken backwards from its end: a node is `2 n` while only down links have been met, `2 n + 1` once an
up link has. -/
def legalBack (s : State) (t : List (Nat × Nat)) (k : Nat) : List Nat :=
  let n := k / 2
  (routedNext s n).flatMap fun m =>
    if k % 2 = 0 then (if isLower t m n then [2 * m] else [2 * m + 1]) else if isLower t m n then [] else [2 * m + 1]

/-- The escape port of a die towards a destination (R439): the first port of a shortest legal path, the lowest of equal ones. -/
def escapePort (s : State) (t : List (Nat × Nat)) (n dst : Nat) : Option Nat :=
  if n = dst then some 6
  else
    let l := distFrom (legalBack s t) (2 * dst)
    let best (a b : Option Nat) : Option Nat := match a, b with | some i, some j => some (min i j) | some i, none => some i | none, x => x
    let legal (m : Nat) : Option Nat := best (distOf l (2 * m)) (distOf l (2 * m + 1))
    match legal n with
    | none => none
    | some k => (List.range 6).find? fun p =>
      match routedTo s n p with
      | some m => if isLower t m n then legal m == some (k - 1) else distOf l (2 * m) == some (k - 1)
      | none => false

/-- The port of the dimension-order route from a die (R439): X, then Y, then Z; on a ring the shorter way, + where equal. -/
def dorPort (g : Grid) (n dst : Nat) : Nat :=
  match [0, 1, 2].find? fun a => g.coord n a != g.coord dst a with
  | none => 6
  | some a =>
    let c := g.coord n a
    let e := g.coord dst a
    let len := g.size a
    if g.wraps a then (if 2 * ((e + len - c) % len) ≤ len then 2 * a + 1 else 2 * a)
    else if c < e then 2 * a + 1 else 2 * a

/-- Whether every link of the dimension-order route is Routed; `k` bounds the hops. -/
def dorRouted (s : State) (g : Grid) (dst : Nat) : Nat → Nat → Bool
  | 0, _ => false
  | k + 1, n =>
    if n = dst then true
    else
      match routedTo s n (dorPort g n dst) with
      | some m => dorRouted s g dst k m
      | none => false

/-- The route table entry of a die for a destination (R439, LINK_RDATA). -/
def routeFor (s : State) (t : List (Nat × Nat)) (n dst : Nat) : Route :=
  let g := gridOf s
  match escapePort s t n dst with
  | some p => ⟨dorPort g n dst, dorRouted s g dst (g.x + g.y + g.z) n, p, true⟩
  | none => ⟨dorPort g n dst, dorRouted s g dst (g.x + g.y + g.z) n, 7, false⟩

/-! ### The state of the fabric (R438, Table 17.11) -/

/-- The class of a port (LINK_STAT.CLASS). -/
def portClass (s : State) (d p : Nat) : Nat := fget s (dieB d) F.LINK_STAT_CLASS p

/-- The planned dies that cannot be reached. -/
def unreachedDies (s : State) : List Nat :=
  let l := reachOf s (dieNum s 0)
  (plannedDies s).filter fun n => (distOf l n).isNone

/-- The fabric state, OD 0x6010. -/
def fabricState (s : State) : Nat :=
  let ports := dieList.flatMap fun d => (List.range 6).map fun p => (d, p)
  if !planned s then 0
  else if ports.any fun q => expected s q.1 q.2 && portClass s q.1 q.2 == 0 then 1
  else if !(unreachedDies s).isEmpty then 4
  else
    let all := (plannedDies s).all fun n => (List.range 6).all fun p =>
      match (gridOf s).facing n p with
      | some m => isVacant (serialAt (planBytes s) ((gridOf s).posOf m)) || (routedTo s n p).isSome
      | none => true
    if all then 2 else 3

/-- External ports of a class. -/
def classCount (s : State) (c : Nat) : Nat :=
  ((dieList.flatMap fun d => (List.range 6).map fun p => (d, p)).filter fun q => !internalPort q.1 q.2 && portClass s q.1 q.2 == c).length

end Sys2Proof.Machine
end

