-- ==== Sys2Proof/Machine/Ledger.lean ====
section
/-! DEFINITION. Fault sources, the ledgers, sticky bits and CPER records (spec/19_faults.md, spec/20_silent_errors.md R510). -/

namespace Sys2Proof.Machine

/-! ### Sources (Tables 19.2, 20.9, 21.5) -/

/-- The scope of a source: unit, die, link, module. -/
inductive Scope where
  | unit | die | link | module
  deriving DecidableEq, Repr

/-- A fault source: code, class, scope, and whether only the maker may force it. -/
structure Source where
  code : Nat
  cls : Nat
  scope : Scope
  makerOnly : Bool
  deriving DecidableEq, Repr

/-- The sources of kinds 0x01 to 0x05. -/
def sources1 : List Source :=
  [⟨0x0100, 0, .unit, false⟩, ⟨0x0101, 2, .unit, false⟩, ⟨0x0102, 2, .unit, false⟩, ⟨0x0103, 2, .unit, false⟩,
   ⟨0x0200, 0, .unit, false⟩, ⟨0x0201, 1, .unit, false⟩, ⟨0x0202, 1, .unit, false⟩, ⟨0x0203, 2, .unit, false⟩,
   ⟨0x0204, 2, .unit, false⟩, ⟨0x0205, 1, .unit, false⟩, ⟨0x0300, 0, .unit, false⟩, ⟨0x0301, 1, .unit, false⟩,
   ⟨0x0302, 1, .unit, false⟩, ⟨0x0303, 1, .unit, false⟩, ⟨0x0400, 0, .unit, false⟩, ⟨0x0401, 1, .unit, false⟩,
   ⟨0x0402, 1, .unit, false⟩, ⟨0x0403, 2, .unit, false⟩, ⟨0x0500, 0, .unit, false⟩, ⟨0x0501, 1, .unit, false⟩,
   ⟨0x0502, 2, .unit, false⟩, ⟨0x0503, 2, .die, true⟩]

/-- The sources of kinds 0x06 to 0x08. -/
def sources2 : List Source :=
  [⟨0x0600, 0, .unit, false⟩, ⟨0x0601, 1, .unit, false⟩, ⟨0x0602, 1, .unit, false⟩, ⟨0x0603, 1, .unit, false⟩,
   ⟨0x0604, 2, .die, true⟩, ⟨0x0605, 2, .die, true⟩, ⟨0x0606, 2, .die, true⟩, ⟨0x0607, 2, .die, true⟩,
   ⟨0x0700, 0, .unit, false⟩, ⟨0x0701, 1, .unit, false⟩, ⟨0x0800, 0, .unit, false⟩, ⟨0x0801, 1, .unit, false⟩,
   ⟨0x0802, 1, .unit, false⟩, ⟨0x0803, 2, .link, true⟩, ⟨0x0804, 2, .link, true⟩]

/-- The sources of kinds 0x09 to 0x0D. -/
def sources3 : List Source :=
  [⟨0x0900, 0, .module, false⟩, ⟨0x0901, 1, .unit, false⟩, ⟨0x0902, 2, .unit, false⟩, ⟨0x0903, 0, .module, false⟩,
   ⟨0x0904, 1, .module, false⟩, ⟨0x0905, 2, .module, true⟩, ⟨0x0906, 0, .module, false⟩, ⟨0x0907, 0, .module, false⟩,
   ⟨0x0A00, 0, .unit, false⟩, ⟨0x0A01, 1, .unit, false⟩, ⟨0x0A02, 2, .die, true⟩, ⟨0x0A03, 3, .module, true⟩,
   ⟨0x0A04, 4, .module, true⟩, ⟨0x0A05, 0, .module, false⟩, ⟨0x0A06, 0, .unit, false⟩, ⟨0x0A07, 0, .module, false⟩,
   ⟨0x0B00, 0, .module, false⟩, ⟨0x0B01, 0, .module, false⟩, ⟨0x0B02, 3, .module, true⟩, ⟨0x0B03, 3, .module, true⟩,
   ⟨0x0B04, 3, .module, true⟩, ⟨0x0B05, 4, .module, true⟩, ⟨0x0B06, 4, .module, true⟩, ⟨0x0D00, 0, .module, false⟩]

/-- Every fault source. -/
def sources : List Source := sources1 ++ sources2 ++ sources3

/-- The source of a code. -/
def sourceOf (code : Nat) : Option Source := sources.find? fun x => x.code == code

/-- The hub as DIE of a record. -/
def hubDie : Nat := 15

/-! ### Records (Table 19.3) -/

/-- A record as its 32 bytes (R476). -/
def LedgerRec.bytes (r : LedgerRec) : List Byte :=
  leBytes 1 0x10 ++
  leBytes 1 (r.cls + 8 * b2n r.startup + 16 * b2n r.testmode + 32 * b2n r.ack + 64 * b2n r.esc + 128 * b2n r.forced) ++
  leBytes 2 r.code ++ leBytes 2 r.inst ++ leBytes 1 (r.die % 16) ++ leBytes 1 0 ++ leBytes 8 r.time ++ leBytes 4 r.count ++
  leBytes 8 r.detail ++ leBytes 4 r.seq

/-- A list without its oldest element (the last) that meets a condition; `none` where none does. -/
def dropOldest {α : Type} (p : α → Bool) : List α → Option (List α)
  | [] => none
  | x :: l =>
    match dropOldest p l with
    | some l' => some (x :: l')
    | none => if p x then some l else none

/-- A record put in front of a ledger of `cap` records (R477, Replacement); `none` where nothing may be replaced.
(DESIGN CHOICE: notes/assumptions/24.md.) -/
def ledgerPush (cap : Nat) (r : LedgerRec) (l : List LedgerRec) : Option (List LedgerRec) :=
  if l.length < cap then some (r :: l)
  else
    match dropOldest (fun x => x.ack) l with
    | some l' => some (r :: l')
    | none =>
      match dropOldest (fun x => x.cls == 0) l with
      | some l' => some (r :: l')
      | none =>
        match dropOldest (fun x => x.cls == 1) l with
        | some l' => some (r :: l')
        | none => none

/-- Whether a collector keeps sticky bits in place of records: from t0 until the start-up completes, and in test mode, for all; a die
reset for that die (R479, R81). A start-up that ends in safe state or Recovery has not completed. -/
def capturing (s : State) (die : Nat) : Bool :=
  bootPhase s != 8 || odNum s 0x8021 == 1 || (die < 8 && dieState s die == 3)

/-- The key of a sticky bit: a code held by a die's collector (0–7) or by the hub (15). -/
def stickyKey (die code : Nat) : Nat := die * 65536 + code

/-- Nothing held for a sticky bit. -/
def StickyInfo.none : StickyInfo := ⟨0, 0, 0, false, 0, false⟩

/-- A sticky bit of a die (FLT_STICKY0–9) or of the hub (FLT_MSTICKY0–4), set or cleared (R479). Code 0x0B00 with the DIE of a die has the hub's
bit: no die register holds kind 0x0B. -/
def stickyBit (s : State) (die code : Nat) (v : Bool) : State :=
  let k := code / 256
  let i := code % 256
  let put (b : Nat) (f : Fld) (n : Nat) : State :=
    let w := fget s b f n
    fset s b f (if v then (if natBit w i then w else w + 2 ^ i) else (if natBit w i then w - 2 ^ i else w)) n
  if die < 8 ∧ k ≤ 10 then put (dieB die) F.FLT_STICKY_BITS (k - 1)
  else
    match k with
    | 0x0B => put hubB F.FLT_MSTICKYA_BITS 0
    | 0x0D => put hubB F.FLT_MSTICKYA_BITS 1
    | 0x09 => put hubB F.FLT_MSTICKYB_BITS 0
    | 0x0A => put hubB F.FLT_MSTICKYB_BITS 1
    | 0x08 => put hubB F.FLT_MSTICKYB_BITS 2
    | _ => s

/-- Whether a sticky bit is set. -/
def stickySet (s : State) (die code : Nat) : Bool :=
  let i := code % 256
  if die < 8 ∧ code / 256 ≤ 10 then natBit (fget s (dieB die) F.FLT_STICKY_BITS (code / 256 - 1)) i
  else
    match code / 256 with
    | 0x0B => natBit (fget s hubB F.FLT_MSTICKYA_BITS 0) i
    | 0x0D => natBit (fget s hubB F.FLT_MSTICKYA_BITS 1) i
    | 0x09 => natBit (fget s hubB F.FLT_MSTICKYB_BITS 0) i
    | 0x0A => natBit (fget s hubB F.FLT_MSTICKYB_BITS 1) i
    | 0x08 => natBit (fget s hubB F.FLT_MSTICKYB_BITS 2) i
    | _ => false

/-! ### Interrupts (R583) -/

/-- The MSI-X message of a vector: a masked vector sets its pending bit; in safe and grave state nothing is sent (R486).
(DEDUCED: notes/assumptions/42.md.) -/
def sendVec (v : Nat) (s : State) : State :=
  if halted s || s.hif.d3hot then s
  else
    { s with hif := { s.hif with msix := tmod (fun _ => MsixEnt.off) s.hif.msix v fun e =>
        if e.masked then { e with pend := true } else { e with sent := e.sent + 1 } } }

/-- A cause of HUB_HIFCAUSE (Table 24.12), signalled on vector 0 where HUB_HIFCAUSEEN enables it. -/
def hifCause (f : Fld) (s : State) : State :=
  let s := fset s hubB f 1
  if natBit (fget s hubB F.HUB_HIFCAUSEEN_EN) f.lo then sendVec 0 s else s

/-- A CPER record formed for a ledger record of F2 or above, the oldest of 64 replaced (R510), with its count
(OD 0x8061, HUB_HIFCPER) and cause (HUB_HIFCAUSE.CPER). `step` is the step number of a code 0x09xx. -/
def formCper (prev : Bool) (step : Nat) (r : LedgerRec) (s : State) : State :=
  if r.cls < 2 then s
  else
    let c : CperRec := ⟨r.seq + 2 ^ 32 * odNum s 0x2044, if r.cls = 2 then 0 else 1, prev, r, hubTime s, step⟩
    let s := { s with faults := { s.faults with cper := (c :: s.faults.cper).take 64 } }
    let s := odInc s 0x8061 0
    let s := fset s hubB F.HUB_HIFCPER_COUNT (odNum s 0x8061)
    hifCause F.HUB_HIFCAUSE_CPER s

/-- A new record written into the die ledger of its die and into the module ledger (R477); a record lost in the module
ledger is counted. `mk` is the record without its SEQ; of a code 0x09xx its DETAIL is the step number, which the records of 0x0904 and 0x0905
alone keep (Table 19.3, R506). -/
def addRecord (mk : LedgerRec) (s : State) : State :=
  let step := if mk.code / 256 = 9 then mk.detail else 0
  let r := { mk with seq := s.faults.nextSeq, detail := if mk.code / 256 = 9 ∧ mk.code ≠ 0x0904 ∧ mk.code ≠ 0x0905 then 0 else mk.detail }
  let f := { s.faults with nextSeq := s.faults.nextSeq + 1 }
  let f := if r.die < 8 then
      match ledgerPush 64 r (tget (fun _ => []) f.dieLedgers r.die) with
      | some l => { f with dieLedgers := tset (fun _ => []) f.dieLedgers r.die l }
      | none => f
    else f
  match ledgerPush 256 r f.modLedger with
  | some l =>
    let s := { s with faults := { f with modLedger := l } }
    let s := if r.cls ≥ 2 then hifCause F.HUB_HIFCAUSE_LEDGER s else s
    formCper false step r s
  | none =>
    let s := finc { s with faults := f } hubB F.FLT_MLOST_LOST
    odInc s 0x8000 4

/-- COUNT of a record raised by 1, stopping at 0xFFFF_FFFE (R476); an unknown count stays unknown. -/
def LedgerRec.again (r : LedgerRec) : LedgerRec := if r.count = 0xFFFFFFFF then r else { r with count := min (r.count + 1) 0xFFFFFFFE }

/-- The first record that matches, changed. -/
def modFirst (p : LedgerRec → Bool) (f : LedgerRec → LedgerRec) : List LedgerRec → List LedgerRec
  | [] => []
  | x :: l => if p x then f x :: l else x :: modFirst p f l

/-- Whether an occurrence coalesces with the newest record of its code, die, instance and class (R477). -/
def coalesces (l : List LedgerRec) (cls code die inst : Nat) : Bool :=
  match l.find? fun r => r.code == code && r.die == die && r.inst == inst && r.cls == cls with
  | some r => !r.ack
  | none => false

/-- An occurrence recorded: a sticky bit in capture mode, else a coalesced count or a new record (R477, R479). `cls` is the
class finally reached. (DESIGN CHOICE: notes/assumptions/70.md.) -/
def recordFault (cls code die inst detail : Nat) (esc forced : Bool) (s : State) : State :=
  if capturing s die then
    if stickySet s die code then s
    else
      let s := stickyBit s die code true
      let i : StickyInfo := ⟨inst, die, hubTime s, forced, cls, esc⟩
      { s with faults := { s.faults with sticky := tins (stickyKey die code) i s.faults.sticky } }
  else
    let m (r : LedgerRec) : Bool := r.code == code && r.die == die && r.inst == inst && r.cls == cls
    if cls ≤ 1 && !esc && coalesces s.faults.modLedger cls code die inst then
      let f := { s.faults with modLedger := modFirst m LedgerRec.again s.faults.modLedger }
      let f := if die < 8 then { f with dieLedgers := tmod (fun _ => []) f.dieLedgers die (modFirst m LedgerRec.again) } else f
      { s with faults := f }
    else addRecord ⟨cls, false, false, false, esc, forced, code, inst, die, hubTime s, 1, detail, 0⟩ s

/-- The counters of an occurrence of a class: the die's FLT_CNT and OD 0x8000.05–.09 (R493, R495). -/
def countFault (cls die : Nat) (s : State) : State :=
  let s := if die < 8 then finc s (dieB die) F.FLT_CNT_F_COUNT 1 cls else s
  odInc s 0x8000 (5 + cls)

/-- An F0 notice (R473, R475): a record and nothing else. -/
def notice (code die inst detail : Nat) (s : State) : State :=
  recordFault 0 code die inst detail false false (countFault 0 die s)

/-- A notice of the hub (0x0B00). (DEDUCED: notes/assumptions/22.md.) -/
def hubNotice (detail : Nat) (s : State) : State := notice 0x0B00 hubDie 0 detail s

/-- A notice of a core's blocks (0x0100). -/
def coreNotice (d c detail : Nat) (s : State) : State := notice 0x0100 d c detail s

/-- Whether a fault is open in a class. -/
def anyOpen (s : State) (p : OpenFault → Bool) : Bool := s.faults.openFaults.any p

/-- A fault opened. -/
def openFault (cls code die inst detail seq : Nat) (s : State) : State :=
  { s with faults := { s.faults with openFaults := s.faults.openFaults ++ [⟨cls, code, die, inst, detail, seq⟩] } }

/-- The open faults that meet a condition closed. -/
def closeFaults (p : OpenFault → Bool) (s : State) : State :=
  { s with faults := { s.faults with openFaults := s.faults.openFaults.filter fun x => !p x } }

/-- An F1's recovery ends (R474). -/
def closeF1 (code die inst : Nat) (s : State) : State :=
  closeFaults (fun o => o.cls == 1 && o.code == code && o.die == die && o.inst == inst) s

/-- The records of sticky bits whose capture has ended, one for each bit that is still set, in ascending key order (R81, R479). `which` says
whose bits. -/
def flushSticky (which : Nat → Bool) (startup testmode : Bool) (s : State) : State :=
  s.faults.sticky.foldl (fun s p =>
    let die := p.1 / 65536
    let code := p.1 % 65536
    if which die && !stickySet s die code then { s with faults := { s.faults with sticky := s.faults.sticky.filter fun x => x.1 != p.1 } }
    else if which die then
      let i := p.2
      let q := s.faults.nextSeq
      let s := addRecord ⟨i.cls, startup, testmode, false, i.esc, i.forced, code, i.inst, i.die, i.time, 0xFFFFFFFF, 0, 0⟩ s
      let s := stickyBit s die code false
      { s with faults := { s.faults with
          sticky := s.faults.sticky.filter (fun x => x.1 != p.1)
          openFaults := s.faults.openFaults.map fun o =>
            if o.seq == 0 && o.cls ≥ 2 && o.code == code && o.die == die then { o with seq := q } else o } }
    else s) s

/-- Unacknowledged records of F2 and above. -/
def unackCount (l : List LedgerRec) : Nat := (l.filter fun r => !r.ack && decide (r.cls ≥ 2)).length

/-- MOD_STATE changed, with HUB_HIFCAUSE.STATE (Table 24.12). (DESIGN CHOICE: notes/assumptions/70.md.) -/
def setModState (v : Nat) (s : State) : State :=
  if modState s = v then s
  else hifCause F.HUB_HIFCAUSE_STATE (fset s hubB F.HUB_SIGSTAT_MOD_STATE v)

/-- The highest class with an open fault; 0 for none or F0 (FLT_STAT.OPEN, FLT_MSTAT.OPEN). -/
def openClass (l : List OpenFault) : Nat := l.foldl (fun a o => max a o.cls) 0

/-- FAULT_N (R59, R488): asserted while a record of an F2 or above is unacknowledged or, in capture mode, such a fault is open, throughout F3 and F4, and in Recovery (R75); released with
the standby domain unpowered. -/
def faultN (s : State) : Bool :=
  s.power.standby && (halted s || decide (unackCount s.faults.modLedger > 0) || anyOpen s (fun o => decide (o.cls ≥ 2) && o.seq == 0) ||
    fget s hubB F.HUB_BOOTSTAT_RECOVERY == 1)

/-- SAFE_N (R60): released only in Service. -/
def safeN (s : State) : Bool := modState s != 2

end Sys2Proof.Machine
end

