-- ==== Sys2Proof/Machine/Rings.lean ====
section
/-! DEFINITION. Host rings: completions, events and token records (spec/24_host_interface.md, R572–R583). -/

namespace Sys2Proof.Machine

/-- The entries of a ring. -/
def Ring.size (r : Ring) : Nat := 2 ^ r.log2

/-- The tail advanced by one entry, PHASE inverted at the wrap (R574). -/
def Ring.advance (r : Ring) : Ring :=
  let t := (r.tail + 1) % r.size
  { r with tail := t, phase := if t = 0 then !r.phase else r.phase }

/-- A ring as RINGSET or an admin record sets it: indices zero, first pass PHASE 1 (R572, R574). -/
def Ring.fresh (base log2 vec icount itime : Nat) : Ring := ⟨base, log2, 0, 0, true, vec, icount, itime, 0⟩

/-- Whether hub firmware serves rings: from phase 0x03, not in Recovery (Table 24.12, RDY). -/
def hifReady (s : State) : Bool := decide (bootPhase s ≥ 3) && bootPhase s != 9

/-- Whether the module writes rings: EN in force, hub firmware up, not in safe or grave state, not in D3hot (R584, R486). -/
def ringsLive (s : State) : Bool :=
  fget s hubB F.HUB_HIFCTRL_EN == 1 && hifReady s && !halted s && !s.hif.d3hot

/-- The rings of a serving queue. -/
def ringsOf (s : State) (q : Nat) : Option Rings := tget (fun _ => none) s.hif.rings q

/-- The rings of a serving queue stored. -/
def setRings (s : State) (q : Nat) (r : Option Rings) : State :=
  { s with hif := { s.hif with rings := tset (fun _ => none) s.hif.rings q r } }

/-- An admin queue. -/
def adminOf (s : State) (a : Nat) : AdminQ := tget (fun _ => AdminQ.off) s.hif.admin a

/-- An admin queue stored. -/
def setAdmin (s : State) (a : Nat) (x : AdminQ) : State :=
  { s with hif := { s.hif with admin := tset (fun _ => AdminQ.off) s.hif.admin a x } }

/-- One entry counted towards a ring's interrupt: signalled at once where `now`, else after ICOUNT entries (R583).
(DEDUCED: notes/assumptions/42.md.) -/
def ringSignals (now : Bool) (r : Ring) : Bool := now || decide (r.unsig + 1 ≥ max 1 r.icount)

/-- The ring after an entry was counted. -/
def Ring.counted (now : Bool) (r : Ring) : Ring := { r with unsig := if ringSignals now r then 0 else r.unsig + 1 }

/-- Free entries of a completion ring that no command has reserved. (DEDUCED: notes/assumptions/40.md.) -/
def freeCq (cq : Ring) (entries : List CqEntry) (reserved : Nat) : Nat := cq.size - entries.length - reserved

/-- A completion entry written on a serving queue. `fromReserve`: into the slot reserved at fetch (R575). Nothing is written
while the module writes no rings. -/
def cqWrite (q kind status cid result detail : Nat) (fromReserve now : Bool) (s : State) : State :=
  match ringsOf s q with
  | none => s
  | some r =>
    let res := if fromReserve then r.cqReserved - 1 else r.cqReserved
    if ringsLive s then
      let e : CqEntry := ⟨kind, status, r.cq.phase, cid, r.sq.head, result, detail⟩
      let s := if ringSignals now r.cq then sendVec r.cq.vec s else s
      setRings s q (some { r with cq := (r.cq.counted now).advance, cqEntries := r.cqEntries ++ [e], cqReserved := res })
    else setRings s q (some { r with cqReserved := res })

/-- A completion of a serving command (KIND 0x01). -/
def completeServing (q status cid result : Nat) (s : State) : State := cqWrite q 1 status cid result 0 true false s

/-- An admin queue that was to be disabled after its command is disabled (R581). -/
def adminSettle (a : Nat) (s : State) : State :=
  let x := adminOf s a
  if x.disabling && x.cqReserved == 0 then setAdmin s a { AdminQ.off with record := x.record } else s

/-- The completion of an admin command: KIND, status, result. -/
def completeAdmin (a kind status cid result : Nat) (s : State) : State :=
  adminSettle a <|
  let x := adminOf s a
  if ringsLive s then
    let e : CqEntry := ⟨kind, status, x.cq.phase, cid, x.sq.head, result, 0⟩
    let s := if ringSignals false x.cq then sendVec x.cq.vec s else s
    setAdmin s a { x with cq := (x.cq.counted false).advance, cqEntries := x.cqEntries ++ [e], cqReserved := x.cqReserved - 1 }
  else setAdmin s a { x with cqReserved := x.cqReserved - 1 }

/-- An event written to a queue's completion ring, held where no slot is free, dropped where the holding area of 64 is full
(R576). -/
def postEvent (q : Nat) (e : Event) (s : State) : State :=
  match ringsOf s q with
  | none => s
  | some r =>
    if ringsLive s && decide (freeCq r.cq r.cqEntries r.cqReserved > 0) && r.held.isEmpty then
      cqWrite q 3 e.status e.code e.ctx e.detail false true s
    else if r.held.length < 64 then setRings s q (some { r with held := r.held ++ [e] })
    else odInc (setRings s q (some { r with dropped := r.dropped + 1 })) 0x1061 10

/-- Held events written while slots are free, then one OVERFLOW event for those dropped (R576). `n` bounds the events. -/
def flushHeld : Nat → Nat → State → State
  | 0, _, s => s
  | n + 1, q, s =>
    match ringsOf s q with
    | none => s
    | some r =>
      if ringsLive s && decide (freeCq r.cq r.cqEntries r.cqReserved > 0) then
        match r.held with
        | e :: rest =>
          flushHeld n q (cqWrite q 3 e.status e.code e.ctx e.detail false true (setRings s q (some { r with held := rest })))
        | [] =>
          if r.dropped > 0 then
            cqWrite q 3 0 7 0 r.dropped false true (setRings s q (some { r with dropped := 0 }))
          else s
      else s

/-- A token record written to a queue's output ring, into a record reserved at formation (R375, R577, R580). -/
def oqWrite (q : Nat) (t : TokRec) (s : State) : State :=
  match ringsOf s q with
  | none => s
  | some r =>
    if ringsLive s then
      let t := { t with phase := r.oq.phase }
      let now := decide (t.fin ≠ 0)
      let s := if ringSignals now r.oq then sendVec r.oq.vec s else s
      setRings s q (some { r with oq := (r.oq.counted now).advance, oqEntries := r.oqEntries ++ [t] })
    else s

/-- Output records free for a step to reserve. (DEDUCED: notes/assumptions/40.md.) -/
def freeOq (r : Rings) : Nat := r.oq.size - r.oqEntries.length - r.oqReserved

/-- Output records reserved (R375). -/
def reserveOq (q n : Nat) (s : State) : State :=
  match ringsOf s q with
  | none => s
  | some r => setRings s q (some { r with oqReserved := r.oqReserved + n })

/-- Reserved output records given back. -/
def unreserveOq (q n : Nat) (s : State) : State :=
  match ringsOf s q with
  | none => s
  | some r => setRings s q (some { r with oqReserved := r.oqReserved - n })

end Sys2Proof.Machine
end

