-- ==== Sys2Proof/Machine/Announce.lean ====
section
/-! DEFINITION. The segment: the module's own address, sending, ANNOUNCE (spec/22_management_network.md R535, R536, R541). -/

namespace Sys2Proof.Machine

/-! ### Addresses (R536) -/

/-- The top half of a link-local address. (DESIGN CHOICE: notes/assumptions/47.md.) -/
def linkLocalTop : Nat := 0xFE80000000000000

/-- Whether an address is link-local. -/
def isLinkLocal (a : Nat) : Bool := a / 2 ^ 64 == linkLocalTop

/-- The module's link-local address: fe80::/64 with the modified EUI-64 identifier of its MAC address (RFC 4291).
(DESIGN CHOICE: notes/assumptions/47.md.) -/
def ownAddr (s : State) : Nat :=
  let m := s.flash.mac % 2 ^ 48
  linkLocalTop * 2 ^ 64 + (m / 2 ^ 24 ^^^ 0x020000) * 2 ^ 40 + 0xFFFE * 2 ^ 24 + m % 2 ^ 24

/-- The all-nodes group. -/
def allNodes : Nat := 0xFF02 * 2 ^ 112 + 1

/-- The port of CMP. -/
def cmpPort : Nat := 32580

/-- The bytes of an address, in network order. (DESIGN CHOICE: notes/assumptions/47.md.) -/
def addrBytes (a : Nat) : List Byte := (leBytes 16 a).reverse

/-! ### Sending -/

/-- Whether CMP runs: once phase 0x03 has brought it up, in Recovery too (R541, R548). -/
def cmpUp (s : State) : Bool := s.power.rails && decide (bootPhase s ≥ 4)

/-- A CMP datagram sent, and counted; none is sent after a failed Duplicate Address Detection (R536). -/
def sendCmp (addr port : Nat) (m : List Byte) (s : State) : State :=
  if s.mgmt.dadFailed then s else odInc { s with mgmt := { s.mgmt with tx := some ⟨0, addr, port, m⟩ } } 0x1040 2

/-- A CMP message the module sends (Table 22.1). -/
def cmpMessage (typ status session seq : Nat) (payload : List Byte) : List Byte :=
  leBytes 1 0x10 ++ leBytes 1 typ ++ leBytes 1 0 ++ leBytes 1 status ++ leBytes 4 session ++ leBytes 4 seq ++ leBytes 2 payload.length ++
    leBytes 2 0 ++ payload

/-! ### What is announced -/

/-- Whether the boot ROM serves in Recovery. -/
def inRecovery (s : State) : Bool := bootPhase s == 9

/-- The serial number as 16 bytes. -/
def serial16 (s : State) : List Byte := sliceBytes s.flash.serial 0 16

/-- The ordering code (OD 0x1009). -/
def orderCode (s : State) : List Byte :=
  ([0x50, 0x51, 0x38, 0x2D, 0x4D, 0x37, 0x36, 0x38, 0x2D] ++ (if s.flash.af then [0x41, 0x46] else [0x4C, 0x57])).map fun n => BitVec.ofNat 8 n

/-- The image that runs: the slot that the boot ROM accepted. -/
def runningImage (s : State) : ImgSlot := if fget s hubB F.HUB_BOOTSTAT_SLOT = 0 then s.flash.slotA else s.flash.slotB

/-- The release number of the running image; 0 in Recovery. -/
def runningRelease (s : State) : Nat := if inRecovery s then 0 else (runningImage s).release

/-- The ANNOUNCE payload (Table 22.4). -/
def announcePayload (s : State) : List Byte :=
  serial16 s ++ sliceBytes (orderCode s) 0 16 ++ leBytes 1 (odNum s 0x1008) ++
    leBytes 1 (if inRecovery s then 8 else modState s) ++ leBytes 1 (if inRecovery s then 3 else openClass s.faults.openFaults) ++
    leBytes 1 (fabricState s) ++ leBytes 2 (odNum s 0x6002) ++
    leBytes 1 (if odNum s 0x1022 = 1 then odNum s 0x1023 else 255) ++ leBytes 1 0 ++ leBytes 4 (runningRelease s) ++
    leBytes 4 (odNum s 0x102B) ++ leBytes 8 (hubTime s) ++ leBytes 4 s.mgmt.annCount ++ leBytes 4 0

/-- ANNCNT raised for the announcement that is about to be sent. -/
def countAnnounce (s : State) : State := { s with mgmt := { s.mgmt with annCount := (s.mgmt.annCount + 1) % 2 ^ 32 } }

/-- Whether a multicast ANNOUNCE may be sent: 100 ms after the last (R541). -/
def mayAnnounce (s : State) : Bool :=
  cmpUp s && !s.mgmt.dadFailed && odNum s 0x102A == 1 && (match s.mgmt.annAt with | some t => decide (t + 100000 ≤ hubTime s) | none => true)

/-- A multicast ANNOUNCE to the all-nodes group (R541). -/
def announce (s : State) : State :=
  if mayAnnounce s then
    let s := countAnnounce { s with mgmt := { s.mgmt with annAt := some (hubTime s) } }
    sendCmp allNodes cmpPort (cmpMessage 2 0 0 0 (announcePayload s)) s
  else s

/-- Whether OD 0x1028 reads true: PLCA enabled with a node ID, and beacons received or the module itself the coordinator (R535). -/
def plcaStatus (s : State) : Bool := odNum s 0x1022 == 1 && odNum s 0x1023 != 255 && (odNum s 0x1023 == 0 || s.mgmt.beacon)

end Sys2Proof.Machine
end

