-- ==== Sys2Proof/Machine/Dict.lean ====
section
/-! DEFINITION. Writing a dictionary entry (R554, R556, R559, R561, R566) and the audit log (R459–R462). -/

namespace Sys2Proof.Machine

/-! ### Values -/

/-- The bytes of a value as it stands in an audit record: a number in its type's size, little-endian; bytes as they are. -/
def valBytes (idx sub : Nat) : OdVal → List Byte
  | .num n => leBytes (odBits idx sub / 8) n
  | .bytes b => b

/-- The factory entries (Table 23.8). -/
def factoryIdx (idx : Nat) : Bool := decide (0xF000 ≤ idx) && decide (idx ≤ 0xF003)

/-- A field of 16 bytes of an audit record: zero-padded, or the first 16 bytes of the SHA-384 digest of a longer value or of a factory
entry's (R566). (DESIGN CHOICE: notes/assumptions/82.md.) -/
def auditField (factory : Bool) (b : List Byte) : List Byte :=
  if b.length ≤ 16 ∧ !factory then sliceBytes b 0 16 else (leBytes 48 (Config.sha384 b).toNat).take 16

/-! ### The audit log -/

/-- Bytes 0–71 of an audit record (Table 18.4). -/
def AuditRec.bytes72 (r : AuditRec) : List Byte :=
  leBytes 1 0x10 ++ leBytes 1 r.kind ++ leBytes 1 (r.role % 4 + 4 * (if r.transport = 1 then 0 else 1) + 8 * b2n r.digested) ++
  leBytes 1 r.status ++ leBytes 8 r.seq ++ leBytes 8 r.time ++ leBytes 2 r.index ++ leBytes 1 r.sub ++ leBytes 1 r.keyidx ++
  leBytes 4 r.session ++ sliceBytes r.old 0 16 ++ sliceBytes r.new 0 16 ++ leBytes 12 0

/-- The chain value so far: C_0 is the digest of the serial number (R461). -/
def chainOf (s : State) : BitVec 384 :=
  match s.mgmt.chain with
  | none => Config.sha384 s.flash.serial
  | some c => c

/-- The seal of the log as it stands (R461). -/
def makeSeal (s : State) : Seal :=
  let q := s.mgmt.auditSeq - 1
  let c := chainOf s
  let b := leBytes 1 0x10 ++ leBytes 7 0 ++ leBytes 8 q ++ leBytes 8 (hubTime s) ++ leBytes 48 c.toNat
  ⟨q, hubTime s, c, Config.auditSign (Config.sha384 b)⟩

/-- Records of a segment of the audit log in flash, and of the whole log (R462). -/
def auditSegment : Nat := 65536

/-- A record added to the chain and the buffer (without sealing or flushing). -/
def auditPut (r : AuditRec) (s : State) : State :=
  let r := { r with seq := s.mgmt.auditSeq, time := hubTime s }
  let c := Config.sha384 (leBytes 48 (chainOf s).toNat ++ r.bytes72)
  let r := { r with chain := c }
  let s := { s with mgmt := { s.mgmt with
    auditBuf := s.mgmt.auditBuf ++ [r], auditSeq := s.mgmt.auditSeq + 1, chain := some c } }
  if r.seq % 256 = 0 then { s with flash := { s.flash with seals := s.flash.seals ++ [makeSeal s] } } else s

/-- The buffer written to flash with a seal; a full log loses its oldest segment, a KIND 0x08 record is appended and
OD 0xA204 rises by 65,536 (R462). -/
def auditFlush (s : State) : State :=
  let log := s.flash.auditLog ++ s.mgmt.auditBuf
  let s := { s with flash := { s.flash with auditLog := log, seals := s.flash.seals ++ [makeSeal s] },
                    mgmt := { s.mgmt with auditBuf := [] } }
  if log.length ≥ 16 * auditSegment then
    let s := { s with flash := { s.flash with auditLog := log.drop auditSegment, auditErased := s.flash.auditErased + auditSegment } }
    let s := odSet s 0xA204 0 s.flash.auditErased
    auditPut ⟨8, 0, 1, false, 0, 0, 0, 0, 0, 0xFF, 0, [], [], 0⟩ s
  else s

/-- A record appended; a full buffer of 4,096 is flushed (R462). -/
def auditAdd (r : AuditRec) (s : State) : State :=
  let s := auditPut r s
  if s.mgmt.auditBuf.length ≥ 4096 then auditFlush s else s

/-- The record of a dictionary write, accepted or rejected (R459, R460). A write to OD 0xA110 records both values as zero.
(DESIGN CHOICE: notes/assumptions/82.md.) -/
def auditWrite (w : Writer) (idx sub status : Nat) (old new : OdVal) (s : State) : State :=
  let o := if idx = 0xA110 then [] else valBytes idx sub old
  let n := if idx = 0xA110 then [] else valBytes idx sub new
  auditAdd ⟨if status = 0 then 1 else 2, w.role, w.tr, factoryIdx idx || decide (o.length > 16 ∨ n.length > 16), status, 0, 0, idx, sub, w.entry,
    w.session, auditField (factoryIdx idx) o, auditField (factoryIdx idx) n, 0⟩ s

/-! ### Writing an entry -/

/-- The access of a role (R544). -/
def OdEnt.access (e : OdEnt) (role : Nat) : OdAcc :=
  match role with
  | 1 => e.oper | 2 => e.inst | 3 => e.maker | _ => .none

/-- Whether an access code lets a role write. -/
def OdAcc.writes : OdAcc → Bool
  | .rw | .wo => true
  | _ => false

/-- Whether an entry exists in the present state: in Recovery the boot ROM holds a subset (R561). -/
def odPresent (s : State) (idx : Nat) : Bool :=
  bootPhase s != 9 || (decide (0x1000 ≤ idx) && decide (idx ≤ 0x100C)) || [0x1020, 0x1029, 0x1050, 0x2040].contains idx

/-- Check 5 of R554 on a value: its type's size, a BOOL's coding, a blob's fixed size and whole number of elements.
(DEDUCED: notes/assumptions/45.md.) -/
def odCoded (e : OdEnt) : OdVal → Bool
  | .num n =>
    match e.ty with
    | .str | .blob => false
    | .bool => decide (n ≤ 1)
    | t => decide (n < 2 ^ t.bits)
  | .bytes b =>
    match e.ty with
    | .str | .blob =>
      let (lo, hi, k) := e.blob
      (lo != hi || b.length == lo) && b.length % (max k 1) == 0
    | _ => false

/-- Check 6 of R554 on a value: the entry's range; an F32 compared as a number, and never a NaN. -/
def odInRange (e : OdEnt) : OdVal → Bool
  | .num n =>
    if e.ty = .f32 then
      match e.ranges with
      | [] => true
      | r => r.any fun p => (f32Lt p.1 n || f32Eq p.1 n) && (f32Lt n p.2 || f32Eq n p.2)
    else
      match e.ranges with
      | [] => true
      | r => r.any fun p => decide (p.1 ≤ n) && decide (n ≤ p.2)
  | .bytes b => decide (e.blob.1 ≤ b.length) && decide (b.length ≤ e.blob.2.1)

/-- The response the hub sends. -/
def respond (status : Nat) (payload : List Byte) (s : State) : State :=
  { s with mgmt := { s.mgmt with resp := ⟨status, payload⟩ } }

/-- The first eight bytes of the WRITE request that carried a value: VER, TYPE, flags, STATUS, SESSION (Table 22.1). -/
def writeHead (w : Writer) : Nat := 0x10 + 2 ^ 8 * 7 + (if w.tr = 1 then 2 ^ 16 else 0) + 2 ^ 32 * (w.session % 2 ^ 32)

/-- The class of an entry (R556): 0 read-only, 1 runtime, 2 configuration, 3 trigger. -/
def OdEnt.cls (e : OdEnt) : Nat :=
  if e.oper = .rw then 1
  else if e.inst = .rw ∨ e.maker = .rw then 2
  else if e.oper = .wo ∨ e.inst = .wo ∨ e.maker = .wo then 3
  else 0

/-- Whether an index is a record or an array: it has a subindex 0x00, read-only for every role (R553). -/
def odRecord (idx : Nat) : Bool := odMap.any fun e => decide (e.idx ≤ idx) && decide (idx < e.idx + e.run) && decide (1 ≤ e.sub)

/-- Checks 1 to 4 of R554 as far as the entry and the module's state decide them: 0 where all hold. (DEDUCED: notes/assumptions/45.md.) -/
def odGate (w : Writer) (idx sub : Nat) (s : State) : Nat :=
  match odFind idx sub with
  | none => if sub = 0 && odRecord idx && odPresent s idx then 0x04 else 0x05
  | some e =>
    if !odPresent s idx then 0x05
    else if e.mailbox && w.tr != 2 then 0x0A
    else if !(e.access w.role).writes then 0x04
    else if factoryIdx idx && odNum s 0x8021 != 1 then 0x0C
    else 0

/-- Checks 1 to 6 of R554 that need only the entry: 0 where all hold. `permit` is check 4 of the entry's own chapter.
(DEDUCED: notes/assumptions/45.md.) -/
def odCheck (w : Writer) (idx sub : Nat) (v : OdVal) (permit : Bool) (s : State) : Nat :=
  match odFind idx sub with
  | none => odGate w idx sub s
  | some e =>
    if odGate w idx sub s ≠ 0 then odGate w idx sub s
    else if !permit then 0x0C
    else if !odCoded e v then 0x02
    else if !odInRange e v then 0x06
    else 0

/-- Whether the flash write that a configuration entry's new value needs fails (R556). (DESIGN CHOICE: notes/assumptions/31.md.) -/
def flashFails (s : State) (idx sub : Nat) : Bool :=
  s.sys.flashBad != 0 && (match odFind idx sub with | some e => e.cls == 2 | none => false)

/-- One failing write of management flash met. (DESIGN CHOICE: notes/assumptions/31.md.) -/
def spendFlash (s : State) : State := { s with sys := { s.sys with flashBad := s.sys.flashBad - 1 } }

/-- A write rejected: it changes nothing but the audit log (R459), the response and the hub's notice (R475). -/
def odReject (w : Writer) (idx sub st : Nat) (old v : OdVal) (s : State) : State :=
  respond st [] (auditWrite w idx sub st old v (hubNotice (writeHead w) s))

/-- A dictionary write (R554) over an old value: the checks in order, then `act`, which answers a status (0x00 done) and the state. A
configuration entry whose flash write fails keeps its value, and the write completes with 0x06 (R556). -/
def odWriteOver (old : OdVal) (w : Writer) (idx sub : Nat) (v : OdVal) (permit : Bool) (act : State → Nat × State) (s : State) : State :=
  let st := odCheck w idx sub v permit s
  if st = 0 then
    let r := act s
    if r.1 = 0 then
      (if flashFails s idx sub then odReject w idx sub 0x06 old v (spendFlash s) else respond 0 [] (auditWrite w idx sub 0 old v r.2))
    else odReject w idx sub r.1 old v s
  else odReject w idx sub st old v s

/-- A dictionary write over the value that the dictionary holds. -/
def odWrite (w : Writer) (idx sub : Nat) (v : OdVal) (permit : Bool) (act : State → Nat × State) (s : State) : State :=
  odWriteOver (odGet s idx sub) w idx sub v permit act s

/-- An accepted action. (DEDUCED: notes/assumptions/22.md.) -/
def accept (s : State) : Nat × State := (0, s)

end Sys2Proof.Machine
end

