-- ==== Sys2Proof/Machine/Gens.lean ====
section
/-! DEFINITION. Generations at step boundaries: becoming Current, draining, being freed; placement records; rehoming's map
switch; objects and keys that leave when their last step does (R88, R242, R350, R360, R361). -/

namespace Sys2Proof.Machine

/-- A binding. -/
def bindOf (s : State) (b : Nat) : Binding := tget (fun _ => Binding.fresh) s.serve.binds b

/-- A binding changed. -/
def modBind (s : State) (b : Nat) (f : Binding → Binding) : State :=
  { s with serve := { s.serve with binds := tmod (fun _ => Binding.fresh) s.serve.binds b f } }

/-! ### Placement records (R88) -/

/-- The generation of a number of a binding. -/
def genOf (s : State) (b g : Nat) : Option Gen := s.models.gens.find? fun x => x.binding == b && x.gen == g

/-- A generation changed. -/
def modGen (b g : Nat) (f : Gen → Gen) (s : State) : State :=
  { s with models := { s.models with gens := s.models.gens.map fun x => if x.binding == b && x.gen == g then f x else x } }

/-- Whether a generation names an array. -/
def Gen.names (g : Gen) (key : Nat) : Bool := g.tiles.any fun t => t.arr == key && !t.unplaced

/-- Whether a non-Free generation names an array. -/
def arrayNamed (s : State) (key : Nat) : Bool := s.models.gens.any fun g => g.names key

/-- The Staging arrays of a record that no generation names, returned to Unprogrammed (R90). -/
def unstage (r : PlaceRec) (s : State) : State :=
  r.tiles.foldl (fun s t =>
    if (arrOf s t.array).st = 3 && !arrayNamed s t.array then modArr t.array (fun _ => Arr.blank) s else s) s

/-- The records that name an array invalidated, before any cell of it is programmed (R88). -/
def invalidateRecords (key : Nat) (s : State) : State :=
  let hit (r : PlaceRec) : Bool := r.tiles.any fun t => t.array == key
  let gone := s.flash.places.filter hit
  let s := { s with flash := { s.flash with places := s.flash.places.filter fun r => !hit r } }
  gone.foldl (fun s r => unstage r s) s

/-- The placement record of a binding's Current generation written, unless an array it names is in Programming, or the programming of one
was interrupted (R88, R235). -/
def writeRecord (b : Nat) (s : State) : State :=
  match s.models.gens.find? fun g => g.binding == b && g.st == 3 with
  | none => s
  | some g =>
    let ts := g.tiles.filter fun t => !t.unplaced
    if ts.any fun t => (arrOf s t.arr).st == 1 || (tget (fun _ => ArrPerm.none) s.loom.perm t.arr).part then s
    else
      let r : PlaceRec := ⟨g.digest, g.gen, b, ts.map fun t => ⟨t.arr, 256 * t.sec + t.rt, g.mode, g.wfmt⟩⟩
      { s with flash := { s.flash with places := (s.flash.places.filter fun x => x.binding != b) ++ [r] } }

/-! ### Generations (R360) -/

/-- Whether a step in flight is bound to a generation. -/
def genInFlight (s : State) (b g : Nat) : Bool := s.serve.steps.any fun t => t.binding == b && t.gen == g

/-- Whether a step of a binding is in flight. -/
def bindInFlight (s : State) (b : Nat) : Bool := s.serve.steps.any fun t => t.binding == b

/-- The page offsets of a part. -/
def Part.offs (p : Part) : List Nat := (List.range ((p.len + 65535) / 65536)).map fun i => p.addr + 65536 * i

/-- The translation contexts that map a part of a binding, with the tenant that owns each: the binding's own, numbered as it is, and for a
part of a private object one of its tenant (R363, R403). (DESIGN CHOICE: notes/assumptions/21.md.) -/
def partCtxs (s : State) (b : Nat) (p : Part) : List (Nat × Nat) :=
  (b, 0) :: match (if p.gen = 0 then tget (fun _ => none) s.models.objs p.obj else none) with
    | some o => if o.tenant = 0 then [] else [(4 + (o.tenant - 1) % 65532, o.tenant)]
    | none => []

/-- The 2 MiB regions of a part, as keys of the region owner table. -/
def Part.regions (p : Part) : List Nat := (List.range ((p.len + 2 ^ 21 - 1) / 2 ^ 21)).map fun i => p.die * 2 ^ 17 + p.addr / 2 ^ 21 + i

/-- The regions of parts given to a tenant in the region owner table (R433). -/
def giveRegions (t : Nat) (l : List Part) (s : State) : State :=
  { s with fab := { s.fab with owner := (l.flatMap Part.regions).foldl (fun o k => tset (fun _ => 0) o k t) s.fab.owner } }

/-- The parts that meet a condition released; the entries of those that are mapped are to be cleared (R334). -/
def dropParts (b : Nat) (f : Part → Bool) (s : State) : State :=
  let l := s.models.parts.filter fun p => f p && p.mapped
  let s := giveRegions 0 (s.models.parts.filter fun p => f p && p.gen == 0) s
  let s := { s with models := { s.models with parts := s.models.parts.filter fun p => !f p } }
  { s with serve := { s.serve with
    unmaps := s.serve.unmaps ++ l.flatMap fun p => (partCtxs s b p).map fun t => ⟨p.die, b, p.va / 65536, p.offs, t.1, (bindOf s b).stepNum, .none⟩ } }

/-- A generation becomes Free: arrays that only it named are Unprogrammed, its parts and pattern images are released. An array in
Programming returns when its assay ends. -/
def freeGen (b n : Nat) (s : State) : State :=
  match genOf s b n with
  | none => s
  | some g =>
    let s := { s with models := { s.models with
      gens := s.models.gens.filter fun x => !(x.binding == b && x.gen == n)
      pats := s.models.pats.filter fun p => !(p.binding == b && p.gen == n) } }
    let s := dropParts b (fun p => p.gen == n) s
    g.tiles.foldl (fun s t =>
      if t.unplaced || arrayNamed s t.arr then s
      else
        let k := t.arr / 512
        let q := tget (fun _ => CareCore.idle) s.care.cores k
        let q' : CareCore := { q with queue := q.queue.filter fun a => a != t.arr % 512 }
        let s := { s with care := { s.care with cores := tset (fun _ => CareCore.idle) s.care.cores k q' } }
        if [0, 1, 5].contains (arrOf s t.arr).st then s else modArr t.arr (fun _ => Arr.blank) s) s

/-- What the dispatcher takes from a binding's generation: lead, modules, weight class, NL, KV groups, NS, attention dies, vocabulary. -/
def takeGeometry (g : Gen) (s : State) : State :=
  modBind s g.binding fun x => { x with
    lead := g.index == 0, modules := g.modules, wcls := if g.mode = 1 then 0 else 1, nl := g.nl, groups := g.groups, ns := (g.groups + 3) / 4, attn := g.attn, vocab := g.vocab }

/-- A generation becomes Current: its Staging arrays serve, those it shares take its number, the generation before drains, the
promotion table starts at the floor (R148), and the placement record is written. -/
def becomeCurrent (b n : Nat) (s : State) : State :=
  match genOf s b n with
  | none => s
  | some g =>
    let s := { s with models := { s.models with gens := s.models.gens.map fun x =>
      if x.binding == b && x.gen == n then { x with st := 3, switched := false }
      else if x.binding == b && x.st == 3 then { x with st := 4 } else x } }
    let s := g.tiles.foldl (fun s t =>
      if t.unplaced then s
      else modArr t.arr (fun a => { a with gen := n, st := if a.st = 3 then 2 else a.st }) s) s
    let s := modBind (takeGeometry g s) b fun x => { x with promo := [] }
    writeRecord b s

/-- The cores of this module that a generation's placement uses, in the order of their roles (DEDUCED: notes/assumptions/19.md). -/
def genCores (g : Gen) : List Nat := g.cores

/-! ### Rehoming (R242) -/

/-- The arrays of a core that generations name, by index. -/
def tilesOnCore (s : State) (d c : Nat) : List Nat :=
  ((s.models.gens.flatMap fun g => (g.tiles.filter fun t => !t.unplaced && t.arr / 512 == coreKey d c).map fun t => t.arr % 512)).eraseDups

/-- Whether a rehoming target holds all of a fenced core's tiles, Staging or retired. -/
def rehomeDone (s : State) (d c t : Nat) : Bool :=
  (tilesOnCore s d c).all fun a => [3, 5].contains (arrOf s (arrKey d t a)).st

/-- The cover entries of a core cleared on every die (R483). -/
def clearCover (d c : Nat) (s : State) : State :=
  dieList.foldl (fun s h => (List.range 8).foldl (fun s k =>
    if fget s (dieB h) F.FLT_COVER_SOURCE k == c && fget s (dieB h) F.FLT_COVER_SDIE k == d then fset s (dieB h) F.FLT_COVER_VALID 0 k else s) s) s

/-- The generations in use: Current or Draining. -/
def usedGens (s : State) : List Gen := s.models.gens.filter fun g => g.st == 3 || g.st == 4

/-- The steps in flight that run on a core, or on its cover, as binding and number. -/
def stepsOnCore (s : State) (d c : Nat) : List (Nat × Nat) :=
  (s.serve.steps.filter fun t => s.models.gens.any fun g => g.binding == t.binding && (genCores g).contains (coreKey d c)).map fun t =>
    (t.binding, t.num)

/-- A map switch at its end (R242): the steps bound earlier have finished on cover, which is cleared, and the spare's arrays serve the
generations in use. -/
def endSwitch (d c t : Nat) (s : State) : State :=
  let l := (s.loom.arrs.filter fun p => decide (p.1 / 512 = coreKey d t) && p.2.st == 3 && (usedGens s).any fun g => g.names p.1).map fun p => p.1
  clearCover d c (l.foldl (fun s key => modArr key (fun x => { x with st := 2 }) s) s)

/-- Map switches whose earlier steps have all ended. -/
def settleSwitches (s : State) : State :=
  let live (p : Nat × Nat) : Bool := s.serve.steps.any fun t => t.binding == p.1 && t.num == p.2
  dieList.foldl (fun s d =>
    let l := (dieOf s d).switching
    let over_ := l.filter fun x => !x.2.2.any live
    if over_.isEmpty then s
    else over_.foldl (fun s x => endSwitch d x.1 x.2.1 s) (modDie s d fun x => { x with switching := l.filter fun x => x.2.2.any live })) s

/-- The die's core map switched to a rehomed spare (R242): the generations, their roles and the records name it from now on; steps bound
earlier finish on cover. -/
def switchMap (d c t : Nat) (s : State) : State :=
  let early := stepsOnCore s d c
  let s := modDie s d fun x => { x with
    coreMap := tset (fun k => k) x.coreMap c t, rehome := x.rehome.filter (fun p => p.1 != c), switching := x.switching ++ [(c, t, early)] }
  let move (x : GTile) : GTile := if x.arr / 512 = coreKey d c then
    { x with arr := arrKey d t (x.arr % 512), unplaced := x.unplaced || (arrOf s (arrKey d t (x.arr % 512))).st == 5 } else x
  let s := { s with models := { s.models with gens := s.models.gens.map fun g => { g with
    tiles := g.tiles.map move, cores := g.cores.map fun k => if k = coreKey d c then coreKey d t else k } } }
  let s := fset s (coreB d t) F.CORE_ID_ENABLED 1
  settleSwitches ((s.models.gens.filter fun g => g.st == 3).foldl (fun s g => writeRecord g.binding s) s)

/-- Every rehoming that has ended switched (at a step boundary). -/
def switchRehomed (s : State) : State :=
  dieList.foldl (fun s d => (dieOf s d).rehome.foldl (fun s p =>
    if !(tilesOnCore s d p.1).isEmpty && rehomeDone s d p.1 p.2 then switchMap d p.1 p.2 s else s) s) s

/-! ### Objects and keys (R350, R361) -/

/-- Whether a step in flight is bound to an object. -/
def objInFlight (s : State) (h : Nat) : Bool :=
  s.serve.steps.any fun t => t.rows.any fun r =>
    r.adapt.contains h || (tget (fun _ => Ctx.free) s.serve.ctxs r.ctx).appr == h

/-- An object dropped, with its parts. -/
def dropObj (h : Nat) (s : State) : State :=
  let b := match tget (fun _ => none) s.models.objs h with | some o => o.binding | none => 0
  let s := dropParts b (fun p => p.gen == 0 && p.obj == h) s
  { s with models := { s.models with objs := tset (fun _ => none) s.models.objs h none } }

/-- Closing objects that no step binds dropped (R361). -/
def dropClosed (s : State) : State :=
  s.models.objs.foldl (fun s p => match p.2 with
    | some o => if o.closing && !objInFlight s p.1 then dropObj p.1 s else s
    | none => s) s

/-- Keys and pattern images that steps kept forgotten once those steps have ended (R281, R350). -/
def dropKept (s : State) : State :=
  let live (b n : Nat) : Bool := s.serve.steps.any fun t => t.binding == b && t.num == n
  { s with models := { s.models with
    kept := s.models.kept.filter fun k => live k.binding k.step
    pats := s.models.pats.filter fun p => !p.old || p.steps.any (live p.binding) } }

/-! ### The step boundary -/

/-- A step boundary of a binding: rehomed cores and a switched generation take effect, and Draining generations without steps are
freed (R242, R360). -/
def stepBoundary (b : Nat) (s : State) : State :=
  let s := switchRehomed s
  let s := match s.models.gens.find? fun g => g.binding == b && g.switched with
    | some g => becomeCurrent b g.gen s
    | none => s
  (s.models.gens.filter fun g => g.binding == b && g.st == 4).foldl (fun s g =>
    if genInFlight s b g.gen then s else freeGen b g.gen s) s

/-- A step of a binding has ended. -/
def stepGone (b : Nat) (s : State) : State := dropKept (dropClosed (settleSwitches (stepBoundary b s)))

end Sys2Proof.Machine
end

