-- ==== Sys2Proof/Machine/Steps.lean ====
section
/-! DEFINITION. Contexts and steps as every chapter touches them: releasing KV frames, pausing, losing contexts, and
abandoning a step (R371, R381, R386, R387, R391, R418–R420). -/

namespace Sys2Proof.Machine

/-- A context. -/
def ctxOf (s : State) (x : Nat) : Ctx := tget (fun _ => Ctx.free) s.serve.ctxs x

/-- The adapter handles of an image. -/
def imgAdapt (img : List Byte) : List Nat := (List.range (min 8 (leAt img 45 1 % 16))).map fun i => leAt img (48 + 4 * i) 4

/-- The fields that CREATE and SETPARAM take from an image: GREEDY, MAXNEW, bytes 24–87, STOP (Table 15.5). -/
def takeImage (img : List Byte) (c : Ctx) : Ctx :=
  { c with
    greedy := natBit (leAt img 4 4) 31
    maxnew := leAt img 20 4 % 2 ^ 21
    seed := leAt img 24 8
    temp := leAt img 32 4
    topp := leAt img 36 4
    topk := leAt img 40 1
    kmax := leAt img 41 1 % 16
    kcur := leAt img 41 1 / 16
    rej := leAt img 42 1
    probe := leAt img 43 1
    retry := leAt img 44 1
    adapt := imgAdapt img
    appr := leAt img 80 4
    ttl := leAt img 84 4
    stop := (List.range 4).map fun i => leAt img (96 + 4 * i) 4 }

/-- A SETPARAM given while the context was Stepping takes effect (Table 15.13). (DEDUCED: notes/assumptions/34.md.) -/
def takeParams (c : Ctx) : Ctx :=
  match c.params with
  | none => c
  | some img => takeImage img { c with params := none }

/-- A context stored. -/
def setCtx (s : State) (x : Nat) (c : Ctx) : State :=
  { s with serve := { s.serve with ctxs := tset (fun _ => Ctx.free) s.serve.ctxs x c } }

/-- A context changed. -/
def modCtx (s : State) (x : Nat) (f : Ctx → Ctx) : State := setCtx s x (f (ctxOf s x))

/-- A queue. -/
def queueOf (s : State) (q : Nat) : Queue := tget (fun _ => Queue.off) s.serve.queues q

/-- A queue stored. -/
def setQueue (s : State) (q : Nat) (x : Queue) : State :=
  { s with serve := { s.serve with queues := tset (fun _ => Queue.off) s.serve.queues q x } }

/-- Whether a context has work left (R371). -/
def Ctx.workLeft (c : Ctx) : Bool := decide (c.pending > 0) || (c.generate && decide (c.maxnew > 0) && decide (c.length < c.maxlen))

/-- The binding of a context, through its queue. -/
def ctxBinding (s : State) (c : Ctx) : Nat := (queueOf s c.queue).binding

/-- The contexts of the module, with their numbers. -/
def liveCtxs (s : State) : List Nat := s.serve.ctxs.map fun p => p.1

/-! ### Frames (R418, R420) -/

/-- A page group. -/
def groupOf (s : State) (g : Nat) : PageGroup := tget (fun _ => PageGroup.free) s.serve.groups g

/-- NS × (NL + NA) frames: those of one page index (R402). -/
def frameSet (s : State) (b : Nat) : Nat := (bindOf s b).ns * ((bindOf s b).nl + odNum s (0x7060 + b))

/-- The attention die of a page index (R402). -/
def pageDie (s : State) (b i : Nat) : Nat := (bindOf s b).attn.getD (i % max 1 (bindOf s b).attn.length) 8

/-- The virtual address of a page index of a context whose range begins at `kvva` (R402). -/
def pageVa (s : State) (b kvva i : Nat) : Nat := kvva + i / max 1 (bindOf s b).attn.length * frameSet s b * 65536

/-- A reference to a page group dropped; a count that reaches zero is tagged with the binding's last formed step (R420).
(DESIGN CHOICE: notes/assumptions/38.md.) -/
def dropGroup (b g : Nat) (s : State) : State :=
  let last := (bindOf s b).stepNum
  { s with serve := { s.serve with groups := tmod (fun _ => PageGroup.free) s.serve.groups g fun x =>
      if x.refs ≤ 1 then { x with refs := 0, freeing := true, waitStep := last, invalDone := false, binding := b }
      else { x with refs := x.refs - 1 } } }

/-- A demotion ended: the context counts no more among those that its tenant has being demoted (R421). -/
def endDemotion (x : Nat) (s : State) : State :=
  let c := ctxOf s x
  if !c.demoted then s
  else
    let s := modCtx s x fun c => { c with demoted := false }
    match tget (fun _ => none) s.tenants c.tenant with
    | some t =>
      let t' : Tenant := { t with demoting := t.demoting - 1 }
      { s with tenants := tset (fun _ => none) s.tenants c.tenant (some t') }
    | none => s

/-- The entries of a context's page that the hub has to clear (R420). -/
def unmapOf (s : State) (c : Ctx) (p : Nat × Nat) : Unmap :=
  let b := ctxBinding s c
  let g := groupOf s (p.2 - 1)
  ⟨g.die, b, pageVa s b c.kvva p.1 / 65536, g.home, b, (bindOf s b).stepNum, some (p.2 - 1)⟩

/-- Every page of a context released. -/
def releasePages (x : Nat) (s : State) : State :=
  let c := ctxOf s x
  let l := (c.pages.map (unmapOf s c)).filter fun u => !u.offs.isEmpty
  let s := { s with serve := { s.serve with unmaps := s.serve.unmaps ++ l } }
  let s := c.pages.foldl (fun s p => dropGroup (ctxBinding s c) (p.2 - 1) s) s
  modCtx s x fun c => { c with pages := [] }

/-- A context's cellar blocks given back to the pool. -/
def releaseBlocks (x : Nat) (s : State) : State :=
  let c := ctxOf s x
  let s := { s with serve := { s.serve with blocksUsed := s.serve.blocksUsed.filter fun b => !c.blocks.any fun p => p.addr == b } }
  modCtx s x fun c => { c with blocks := [] }

/-- A context freed (Table 15.2): its pages, blocks and pending tokens are released. -/
def freeCtx (x : Nat) (s : State) : State :=
  let s := endDemotion x (releaseBlocks x (releasePages x s))
  let c := ctxOf s x
  let b := ctxBinding s c
  let last := (bindOf s b).stepNum
  let f (r : KvRange) : KvRange :=
    if r.binding == b && r.base == c.kvva && !r.freeing then { r with freeing := true, waitStep := last } else r
  setCtx { s with serve := { s.serve with
    tokUsed := s.serve.tokUsed - c.toks.length, ranges := s.serve.ranges.map f } } x .free

/-- The token buffer's room of a context's pending tokens given back. -/
def dropPending (x : Nat) (s : State) : State :=
  let n := (ctxOf s x).toks.length
  modCtx { s with serve := { s.serve with tokUsed := s.serve.tokUsed - n } } x fun c =>
    { c with pending := 0, toks := [], maxnew := 0, generate := false }

/-! ### Runnable order (R376) -/

/-- A context made Runnable behind the others of its queue. -/
def runTail (x : Nat) (s : State) : State :=
  let o := s.serve.order
  modCtx { s with serve := { s.serve with order := o + 1 } } x fun c => { c with st := 2, order := o }

/-- A context returned to Runnable at the head of its queue (R381). -/
def runHead (x : Nat) (s : State) : State :=
  let o := s.serve.head
  modCtx { s with serve := { s.serve with head := o - 1 } } x fun c => { c with st := 2, order := o }

/-- A context made Runnable if work is left, Idle otherwise. -/
def runOrIdle (x : Nat) (s : State) : State :=
  if (ctxOf s x).workLeft then runTail x s else modCtx s x fun c => { c with st := 1 }

/-! ### Pausing (R387) -/

/-- The regions of the cellar pool (OD 0x7040): host address and length, 16 bytes each. -/
def cellarRegions (s : State) : List (Nat × Nat) :=
  let b := (odGet s 0x7040 0).bytesOf
  (List.range (b.length / 16)).map fun i => (leAt b (16 * i) 8, leAt b (16 * i + 8) 8)

/-- The blocks of 64 KiB in the pool, by host address. -/
def cellarBlocks (s : State) : List Nat :=
  (cellarRegions s).flatMap fun r => (List.range (r.2 / 65536)).map fun i => r.1 + 65536 * i

/-- The pages that this module's copy of a context needs a block for: the frames of its groups here, as page index and frame. -/
def cellarNeed (s : State) (x : Nat) : List (Nat × Nat) :=
  (ctxOf s x).pages.flatMap fun p => (List.range (groupOf s (p.2 - 1)).home.length).map fun i => (p.1, i)

/-- The cellar blocks that a tenant holds. -/
def cellarHeld (s : State) (t : Nat) : Nat := (s.serve.ctxs.map fun p => if p.2.tenant = t then p.2.blocks.length else 0).sum

/-- A context put into Pausing with blocks taken from the pool; the state unchanged and `false` where the pool has too few, or its
tenant would exceed Q_CELLAR (R468). -/
def startPause (x : Nat) (s : State) : Bool × State :=
  let free := (cellarBlocks s).filter fun b => !s.serve.blocksUsed.contains b
  let need := cellarNeed s x
  let n := need.length
  let ten := (ctxOf s x).tenant
  let above := match tget (fun _ => none) s.tenants ten with | some t => decide (cellarHeld s ten + n > t.qCellar) | none => false
  if free.length < n || above then (false, s)
  else
    let bl := free.take n
    let serial := s.serve.blockSerial
    let s := { s with serve := { s.serve with blocksUsed := s.serve.blocksUsed ++ bl, blockSerial := s.serve.blockSerial + n } }
    (true, modCtx s x fun c => { c with st := 4, blocks := (bl.zip need).zipIdx.map (fun b => ⟨serial + b.2, b.1.1, b.1.2.1, b.1.2.2, [], []⟩) })

/-- The completions, or with NOWAIT the STATE events, of the PAUSE or RESUME commands that have reached their final state
(Table 24.7). (DEDUCED: notes/assumptions/39.md.) -/
def finishMoves (x : Nat) (l : List (Nat × Bool)) (status : Nat) (s : State) : State :=
  let c := ctxOf s x
  l.foldl (fun s p => if p.2 then postEvent c.queue ⟨5, 0, x, c.st⟩ s else completeServing c.queue status p.1 c.st s) s

/-- Waiting PAUSE and RESUME commands answered with a status; those with NOWAIT, answered at once, get their STATE event.
(DEDUCED: notes/assumptions/39.md.) -/
def answerMoves (x status : Nat) (s : State) : State :=
  let c := ctxOf s x
  finishMoves x c.resumeCid status (finishMoves x c.pauseCid status (modCtx s x fun c => { c with pauseCid := [], resumeCid := [] }))

/-- CANCEL commands latched for the gate: pending work is dropped, the context becomes Idle and they complete (R386); a context that has
become Failed refuses them (R602). -/
def cancelAtGate (x : Nat) (s : State) : State :=
  let c := ctxOf s x
  if c.cancelCid.isEmpty then s
  else if c.st = 8 then
    c.cancelCid.foldl (fun s cid => completeServing c.queue 0x23 cid 0 s) (modCtx s x fun c => { c with cancelCid := [] })
  else
    let s := modCtx (dropPending x s) x fun c => { c with st := 1, cancelCid := [] }
    c.cancelCid.foldl (fun s cid => completeServing c.queue 0 cid c.length s) s

/-- A context destroyed for its DESTROY commands: the first completes, later ones name a Free context (R373, R602). -/
def destroyNow (x : Nat) (cids : List Nat) (s : State) : State :=
  let q := (ctxOf s x).queue
  let s := freeCtx x (answerMoves x 0x23 s)
  match cids with
  | [] => s
  | cid :: rest => rest.foldl (fun s c => completeServing q 0x23 c 0 s) (completeServing q 0 cid 0 s)

/-- PAUSE commands latched for the gate: Pausing begins, or 0x26 where the pool has too few blocks (R387). -/
def pauseAtGate (x : Nat) (s : State) : State :=
  let c := ctxOf s x
  if c.pauseCid.isEmpty then s
  else if c.st = 8 then answerMoves x 0x23 s
  else
    let r := startPause x s
    if r.1 then r.2
    else
      let s := (c.pauseCid.filter fun p => !p.2).foldl (fun s p => completeServing c.queue 0x26 p.1 0 s) s
      modCtx s x fun c => { c with pauseCid := [] }

/-- What the commands latched for the step's gate do to a context that leaves Stepping (R386, R387, R373): CANCEL, then
DESTROY, then PAUSE. (DEDUCED: notes/assumptions/35.md.) -/
def afterGate (x : Nat) (s : State) : State :=
  let s := cancelAtGate x s
  let d := (ctxOf s x).destroyCid
  if d.isEmpty then pauseAtGate x s else destroyNow x d s

/-! ### Losing contexts (R391) -/

/-- A context made Lost, with its LOST event (cause 1 die reset, 2 follower timeout, 3 cellar tag failure). Commands that wait
for it are answered: DESTROY frees it, the others complete with 0x23. (DEDUCED: notes/assumptions/39.md.) -/
def loseCtx (cause x : Nat) (s : State) : State :=
  let c := ctxOf s x
  let s := endDemotion x (releaseBlocks x (releasePages x s))
  let s := modCtx s x fun c => { c with st := 7, cancelCid := [] }
  let s := postEvent c.queue ⟨2, 0, x, cause⟩ (odInc s 0x7055 0)
  let s := answerMoves x 0x23 (c.cancelCid.foldl (fun s cid => completeServing c.queue 0x23 cid 0 s) s)
  if c.destroyCid.isEmpty then s else destroyNow x c.destroyCid s

/-! ### Abandoning a step (R21, R381) -/

/-- The held appends of a step discarded on every core. -/
def dropAppends (b num : Nat) (s : State) : State :=
  let f (x : CoreSt) : CoreSt := { x with appends := x.appends.filter fun a => !(a.binding == b && a.step == num) }
  { s with cores := s.cores.foldl (fun l p => tmod (fun _ => CoreSt.idle) l p.1 f) s.cores }

/-- RETRY raised for a context of an abandoned step; at 2 × RETRYMAX it becomes Failed (R381). (DEDUCED: notes/assumptions/35.md.) -/
def raiseRetry (x : Nat) (s : State) : State :=
  let s := modCtx s x fun c => { c with retry := satAdd 8 1 c.retry }
  let c := ctxOf s x
  if c.retry ≥ 2 * odNum s 0x7025 then
    notice 0x0D00 hubDie 0 0 (postEvent c.queue ⟨3, 0, x, c.retry⟩ (modCtx s x fun c => { c with st := 8 }))
  else s

/-- Why a step is abandoned: an item of R381 failed (RETRY counts), STOP_N (a STOPPED event), a cause that charges no tenant
(pre-emption, PREPTO, die reset, in-field test; R464), or another cause. -/
inductive AbandonWhy where
  | item | stop | free | other
  deriving DecidableEq, Repr

/-! ### Charging (R464) -/

/-- A use divided by positions taken: the whole shares, then one unit each to the first rows. -/
def shares (u : Nat) (ts : List Nat) : List Nat :=
  let n := max 1 ts.sum
  let base := ts.map fun t => u * t / n
  let left := u - base.sum
  base.zipIdx.map fun p => if p.2 < left then p.1 + 1 else p.1

/-- A charge taken from the balances of the limited dimensions (R465). -/
def payInt (budget : List Nat) (bal : List Int) (u : List Nat) : List Int :=
  (budget.zip (bal.zip u)).map fun p => if p.1 = unlimited then p.2.1 else p.2.1 - (p.2.2 : Int)

/-- The core time of a step's use, its tenants' own tasks included, in ns (OD 0x7082). -/
def Step.coreNs (t : Step) : Nat := t.use.getD 0 0 + (t.tuse.map fun p => p.2.getD 0 0).sum

/-- Sums of two lists, element by element. -/
def addLists (a b : List Nat) : List Nat := (List.range (max a.length b.length)).map fun i => a.getD i 0 + b.getD i 0

/-- A use charged to a tenant and a queue. -/
def charge (tenant q : Nat) (u : List Nat) (s : State) : State :=
  let x := queueOf s q
  let s := setQueue s q { x with bal := payInt x.budget x.bal u, used := addLists x.used u }
  match tget (fun _ => none) s.tenants tenant with
  | none => s
  | some t =>
    let t' : Tenant := { t with bal := payInt t.budget t.bal u, used := addLists t.used u }
    { s with tenants := tset (fun _ => none) s.tenants tenant (some t') }

/-- The bytes of one adapter charged in equal parts to the rows that share it (R192, R464). -/
def chargeAdapter (t : Step) (h n : Nat) (s : State) : State :=
  let rows := t.rows.filter fun r => r.adapt.contains h
  (rows.zip (shares n (rows.map fun _ => 1))).foldl (fun s p => charge p.1.tenant p.1.queue [0, 0, p.2, 0] s) s

/-- A step's use charged to its rows, by positions taken; the KV bytes of each row directly (R403), those of an adapter to the rows that share
it. (DEDUCED: notes/assumptions/77.md.) -/
def chargeStep (t : Step) (s : State) : State :=
  let ts := t.rows.map fun r => r.count
  let per := t.use.map fun u => shares u ts
  let s := (t.rows.zipIdx).foldl (fun s p => charge p.1.tenant p.1.queue (per.map fun l => l.getD p.2 0) s) s
  let s := t.kv.foldl (fun s p => match t.rows[p.1]? with
    | some r => charge r.tenant r.queue [0, 0, p.2, 0] s
    | none => s) s
  let s := t.adapt.foldl (fun s p => chargeAdapter t p.1 p.2 s) s
  t.tuse.foldl (fun s p => match t.rows.find? fun r => r.tenant == p.1 with
    | some r => charge p.1 r.queue p.2 s
    | none => s) s

/-! ### Hub messages (R448) -/

/-- The modules of a step's placement: those of the generation that it is bound to (R22). -/
def stepModules (s : State) (t : Step) : Nat :=
  match genOf s t.binding t.gen with | some g => g.modules | none => (bindOf s t.binding).modules

/-- The MAXPOS values of a generation's pattern images, with their bucket index in the set. -/
def buckets (s : State) (b g : Nat) : List Nat :=
  (s.models.pats.filter fun p => p.binding == b && p.gen == g && p.obj == 0 && !p.old).map fun p => p.maxpos

/-- The number of a step's bucket in its pattern set. (DESIGN CHOICE: notes/assumptions/75.md.) -/
def bucketIndex (s : State) (t : Step) : Nat := ((buckets s t.binding t.gen).filter fun m => decide (m < t.bucket)).length

/-- The bucket of a number in a pattern set. -/
def bucketOf (s : State) (b g i : Nat) : Nat :=
  ((buckets s b g).find? fun m => ((buckets s b g).filter fun x => decide (x < m)).length == i).getD 0

/-- The body of a hub message about a step: kind 1 PREPARE, 2 READY, 3 GO, 4 COMMIT, 5 ABANDON, 6 DONE; the binding it has at the receiver. -/
def hubBody (s : State) (t : Step) (b kind result : Nat) : List Byte :=
  leBytes 1 kind ++ leBytes 1 b ++ leBytes 1 t.gen ++ leBytes 1 (bucketIndex s t) ++ leBytes 4 0 ++ leBytes 8 t.num ++ leBytes 4 result

/-- The binding of this module that audits a step, and the fabric position and binding of another module that does (R502). -/
def localPartner (s : State) (t : Step) : Option Nat :=
  match t.partner with
  | some v => if v % 2 ^ 11 = odNum s 0x6002 then some (natBits v 11 2) else none
  | none => none

/-- A hub message about a step put on its way: from its lead to every follower, and PREPARE, COMMIT and ABANDON to the lead of the placement
that audits it (R502, R504); from a follower to the lead. -/
def hubMsg (t : Step) (kind result : Nat) (s : State) : State :=
  let dests := if t.lead then (List.range (stepModules s t)).drop 1 else [0]
  let away := match t.partner with
    | some v => if t.lead && (localPartner s t).isNone && [1, 4, 5].contains kind then [(v % 2 ^ 11, hubBody s t (natBits v 11 2) kind result)] else []
    | none => []
  { s with serve := { s.serve with
      outbox := s.serve.outbox ++ (dests.map fun m => (Config.placeModule t.binding m, hubBody s t t.binding kind result)) ++ away } }

/-- The cause in an ABANDON message, whose coding the spec does not give. (DEDUCED: notes/assumptions/37.md.) -/
def AbandonWhy.code : AbandonWhy → Nat
  | .item => 1 | .stop => 2 | .free => 3 | .other => 4

/-- One row's context leaves an abandoned step. -/
def abandonRow (why : AbandonWhy) (num : Nat) (r : Row) (s : State) : State :=
  let s := unreserveOq r.queue r.reserved s
  if (ctxOf s r.ctx).st = 3 then
    let s := if why = .stop then postEvent r.queue ⟨4, 0, r.ctx, num % 2 ^ 32⟩ s else s
    let s := runHead r.ctx s
    let s := if why = .item then raiseRetry r.ctx s else s
    afterGate r.ctx (modCtx s r.ctx takeParams)
  else s

/-- Whether a step is the one of a binding and number. -/
def isStep (b num : Nat) (t : Step) : Bool := t.binding == b && t.num == num

/-! ### Audit runs (R502–R504) -/

/-- What the number of an audit run has above its step's: a run is no step of its own (R504). (DESIGN CHOICE: notes/assumptions/68.md.) -/
def runBit : Nat := 2 ^ 63

/-- An audit run ended by its step's decision, or lost (R504): its appends are discarded, its use is charged to no tenant and counted in
sub 0x0C, and what was mapped for it is to be unmapped. -/
def endRun (t : Step) (s : State) : State :=
  let s := if t.lead then hubMsg t 5 3 s else s
  let s : State := { s with serve := { s.serve with
    steps := s.serve.steps.filter fun u => !isStep t.binding t.num u, unmaps := s.serve.unmaps ++ t.maps } }
  let b := match t.auditOf with | some p => if p.1 < 4 then p.1 else t.binding | none => t.binding
  stepGone t.binding (odInc (dropAppends t.binding t.num s) (0x8070 + b) 12 t.coreNs)

/-- The audit runs of a step ended, those not yet formed included. -/
def endRuns (b num : Nat) (s : State) : State :=
  let s := (List.range 4).foldl (fun s p =>
    if (bindOf s p).auditDue.any fun r => r.auditOf == some (b, num) then
      modBind s p fun x => { x with auditDue := x.auditDue.filter fun r => r.auditOf != some (b, num) }
    else s) s
  (s.serve.steps.filter fun t => t.auditOf == some (b, num)).foldl (fun s t => endRun t s) s

/-- A step abandoned: its appends discarded, its copies of shared pages given up, its contexts returned with their records unchanged, in row order; a layer that it was the trial
step of is tried by the next one; a lead tells its followers. Its audit runs end with it; a confirming step is formed again (R506). -/
def abandonStep (why : AbandonWhy) (t : Step) (s : State) : State :=
  if t.auditOf.isSome then endRun t s
  else
  let s := endRuns t.binding t.num (if t.lead then hubMsg t 5 why.code s else s)
  let s := if t.lead && t.confirm then modBind s t.binding (fun b => { b with confirmRows := t.rows }) else s
  let s := { s with serve := { s.serve with steps := s.serve.steps.filter fun u => !isStep t.binding t.num u } }
  let s := finc (dropAppends t.binding t.num s) hubB F.HUB_GATESTAT_ABANDONS
  let s := odInc s 0x7052 0
  let s := if why = .stop ∨ why = .free then odInc s 0x7082 0 t.coreNs else chargeStep t s
  let s := if why = .item then modBind s t.binding (fun b => { b with auditRetry := true }) else s
  let gone (w : Cow) : Bool := w.binding == t.binding && w.step == t.num && !w.done
  let s := (s.serve.cows.filter gone).foldl (fun s w => dropGroup w.binding w.dst s) s
  let s := { s with serve := { s.serve with cows := s.serve.cows.filter fun w => !gone w } }
  let s := modBind s t.binding fun b => { b with promo := b.promo.map fun p => if p.2.tstep == some t.num then (p.1, { p.2 with tstep := none }) else p }
  stepGone t.binding (t.rows.reverse.foldl (fun s r => abandonRow why t.num r s) s)

/-- Whether the gate has not decided a step yet. -/
def undecided (t : Step) : Bool := t.phase != 2

/-- Every undecided step that meets a condition abandoned. -/
def abandonWhere (why : AbandonWhy) (p : Step → Bool) (s : State) : State :=
  (s.serve.steps.filter fun t => undecided t && p t).foldl (fun s t =>
    if s.serve.steps.any (isStep t.binding t.num) then abandonStep why t s else s) s

/-- Whether a task of a binding holds a VALID slot on a core. -/
def bindingOnCore (s : State) (b d c : Nat) : Bool :=
  (List.range 4).any fun t => (tget (fun _ => Task.none) (coreOf s d c).tasks t).binding == b && fget s (coreB d c) F.CORE_TCTL_VALID t == 1

/-- Whether a task of a binding holds a VALID slot on a die. -/
def bindingOnDie (s : State) (b d : Nat) : Bool := coreList.any fun c => bindingOnCore s b d c

end Sys2Proof.Machine
end

