-- ==== Sys2Proof/Machine/Resets.lean ====
section
/-! DEFINITION. What each reset and each power-off leaves of the state (Table 3.6, R52–R58, R85–R92). -/

namespace Sys2Proof.Machine

/-! ### Stops -/

/-- Whether cores are to stop at their next stitch boundary: Stopping, Stopped, safe and grave state, shut-down, or the stop of
an endpoint reset. -/
def stopWanted (s : State) : Bool := (decide (3 ≤ modState s) && decide (modState s ≤ 7)) || s.sys.epStop

/-- A core stops where it stands. -/
def stopCore (d c : Nat) (s : State) : State := modCore s d c fun x => { x with stopped := true }

/-- Cores that stand at a stitch boundary stop at once; the others stop when they reach it. -/
def stopIdleCores (s : State) : State :=
  dieList.foldl (fun s d => coreList.foldl (fun s c =>
    if coreRuns s d c && fget s (coreB d c) F.CORE_STAT_BOUNDARY == 1 then stopCore d c s else s) s) s

/-- Every core lets run again. -/
def releaseCores (s : State) : State :=
  { s with cores := s.cores.foldl (fun l p => tmod (fun _ => CoreSt.idle) l p.1 fun x => { x with stopped := false }) s.cores }

/-! ### Sessions and uploads at their end (R458, R546) -/

/-- The session of an identifier. -/
def sessionOf (s : State) (id : Nat) : Option Session := s.mgmt.sessions.find? fun x => x.id == id

/-- A session changed. -/
def modSession (id : Nat) (f : Session → Session) (s : State) : State :=
  { s with mgmt := { s.mgmt with sessions := s.mgmt.sessions.map fun x => if x.id = id then f x else x } }

/-- OD 0xA021: sessions open. -/
def countSessions (s : State) : State := odSet s 0xA021 0 s.mgmt.sessions.length

/-- An image slot changed. -/
def modSlot (k : Nat) (f : ImgSlot → ImgSlot) (s : State) : State :=
  { s with flash := if k = 0 then { s.flash with slotA := f s.flash.slotA } else { s.flash with slotB := f s.flash.slotB } }

/-- An upload of a session abandoned: its slot is left invalid (R546). -/
def abandonUpload (session : Nat) (s : State) : State :=
  match s.sys.upload with
  | some (k, _, _, id) =>
    if id = session then modSlot k (fun x => { x with st := 0 }) { s with sys := { s.sys with upload := none } } else s
  | none => s

/-- A session closed, which is audited (R458, R459). (DESIGN CHOICE: notes/assumptions/82.md.) -/
def closeSession (id : Nat) (s : State) : State :=
  match sessionOf s id with
  | none => s
  | some x =>
    let s := abandonUpload id { s with mgmt := { s.mgmt with sessions := s.mgmt.sessions.filter fun y => y.id != id } }
    countSessions (auditAdd ⟨5, x.role, x.tr, false, 0, 0, 0, 0, 0, x.entry, id, [], [], 0⟩ s)

/-- Every session closed: a module reset and a power cycle end them (R458). (DEDUCED: notes/assumptions/29.md.) -/
def closeSessions (s : State) : State := s.mgmt.sessions.foldl (fun s x => closeSession x.id s) s

/-- An image slot whose upload ended with the power or a reset is invalid (R546). -/
def ImgSlot.ended (x : ImgSlot) : ImgSlot := if x.st = 2 then { x with st := 0 } else x

/-- The management flash as a start finds it: no upload goes on. -/
def flashAtStart (f : Flash) : Flash := { f with slotA := f.slotA.ended, slotB := f.slotB.ended }

/-! ### Leaving test mode (R490) -/

/-- The audit record of test mode entered or left (R459). -/
def auditTest (w : Writer) (s : State) : State :=
  auditAdd ⟨7, w.role, w.tr, false, 0, 0, 0, 0, 0, w.entry, w.session, [], [], 0⟩ s

/-- Test mode left by a write, a module reset or a power cycle (R490, R479): audited, and its sticky bits become records with TESTMODE. -/
def leaveTest (w : Writer) (s : State) : State :=
  if odNum s 0x8021 = 1 then auditTest w (flushSticky (fun _ => true) false true (odSet s 0x8021 0 0)) else s

/-! ### Records written at a stop (R478, R462) -/

/-- The module ledger and the audit buffer written to management flash. -/
def flashTails (s : State) : State :=
  auditFlush { s with flash := { s.flash with ledgerCopy := s.faults.modLedger, ledgerTaken := false } }

/-- What a module reset or a power-off that writes to flash leaves there: test mode and the sessions end with it. -/
def lastRecords (s : State) : State := flashTails (closeSessions (leaveTest ⟨0, 1, 0xFF, 0⟩ s))

/-- The counters since manufacture written to flash (R557). -/
def flashMfg (s : State) : State :=
  let f (p : Nat × OdVal) : Bool := match odFind (p.1 / 256) (p.1 % 256) with | some e => decide (e.kind = .mfg) | none => false
  { s with flash := { s.flash with mfg := s.od.filter f } }

/-- LASTOFF as the cause of a power-off (Table 2.13). -/
def setLastOff (v : Nat) (s : State) : State :=
  { s with flash := { s.flash with lastOff := v }, power := { s.power with cause := v } }

/-! ### The dictionary at a start -/

/-- Whether an entry is configuration: kept in management flash (R556). -/
def isConfig (e : OdEnt) : Bool := e.oper != .rw && (e.inst == .rw || e.maker == .rw)

/-- The dictionary values that a power cycle or a module reset leaves: configuration, and the counters since manufacture. -/
def odKept (s : State) (mfg : Tab OdVal) : Tab OdVal :=
  let cfg := s.od.filter fun p => match odFind (p.1 / 256) (p.1 % 256) with | some e => isConfig e | none => false
  mfg.foldl (fun t p => tset odReset t p.1 p.2) cfg

/-- Roles and the network at a start-up: the audit log goes on from what flash holds (R461, R462). -/
def mgmtAtStart (f : Flash) : Mgmt :=
  match f.auditLog.getLast? with
  | none => Mgmt.start
  | some r => { Mgmt.start with auditSeq := r.seq + 1, chain := some r.chain }

/-! ### Power off -/

/-- The rails off (R52, R57, R92): everything outside management flash, the fuses, the cells and the standby domain is lost.
(DESIGN CHOICE: notes/assumptions/1.md.) -/
def powerOff (s : State) : State :=
  let r := State.reset
  let t : State := { r with
    pending := s.pending, fresh := s.fresh, od := odKept s s.flash.mfg, flash := flashAtStart s.flash, loom := s.loom.kept, mgmt := mgmtAtStart s.flash
    power := { s.power with rails := false, menLowSeen := false }
    cap := { r.cap with vSeen := s.cap.vSeen }
    sys := r.sys }
  let keep (f : Fld) (t : State) : State := fset t hubB f (fget s hubB f)
  let t := keep F.HUB_SIGSTAT_MEN_IN (keep F.HUB_SIGSTAT_STOP_IN (keep F.HUB_SIGSTAT_PERST_IN t))
  let t := keep F.HUB_INSTAGE_VIN (keep F.HUB_INSTAGE_VLOW (keep F.HUB_INSTAGE_VHIGH (keep F.HUB_INSTAGE_PRECHG_DONE t)))
  let t := fset t hubB F.HUB_INSTAGE_LASTOFF s.power.cause
  let t := odSet t 0x2013 0 s.power.cause
  fset (fset t hubB F.HUB_SIGSTAT_MOD_STATE 7) hubB F.HUB_SIGSTAT_PG_OUT 0

/-! ### Module reset (R86) -/

/-- The hub and all dies reset with the rails on; start-up resumes at phase 0x02. Hub time goes on. (DEDUCED: notes/assumptions/29.md.) -/
def moduleResetNow (s : State) : State :=
  let r := State.reset
  let s := flashMfg (lastRecords s)
  let t : State := { r with
    pending := s.pending, fresh := s.fresh, od := odKept s s.flash.mfg, flash := flashAtStart s.flash, loom := s.loom.kept, mgmt := { mgmtAtStart s.flash with tx := s.mgmt.tx, resp := s.mgmt.resp }, power := s.power
    cap := { r.cap with vSeen := s.cap.vSeen }
    sys := { r.sys with hubTime := s.sys.hubTime, t0 := s.sys.hubTime, resetting := true } }
  let keep (f : Fld) (t : State) : State := fset t hubB f (fget s hubB f)
  let t := keep F.HUB_SIGSTAT_MEN_IN (keep F.HUB_SIGSTAT_STOP_IN (keep F.HUB_SIGSTAT_PERST_IN (keep F.HUB_SIGSTAT_PG_OUT t)))
  let t := keep F.HUB_SIGSTAT_REFCLK_OK (keep F.HUB_SIGSTAT_REFSEL (keep F.HUB_SIGSTAT_REFCAL_OK t))
  let t := keep F.HUB_INSTAGE_VIN (keep F.HUB_INSTAGE_VLOW (keep F.HUB_INSTAGE_VHIGH t))
  let t := keep F.HUB_INSTAGE_PRECHG_DONE (keep F.HUB_INSTAGE_LASTOFF t)
  let t := odSet t 0x2013 0 (odNum s 0x2013)
  fset (fset t hubB F.HUB_BOOTSTAT_PHASE 2) hubB F.HUB_BOOTSTAT_RESETKIND 1

/-! ### Core reset -/

/-- The settings that the housekeeping controller holds in core registers from dictionary entries: field, index.
(DEDUCED: notes/assumptions/33.md.) -/
def coreSettings : List (Fld × Nat) :=
  [(F.LOOM_SPCHK_THRESH, 0x4020), (F.LOOM_SPCHK_STRIKES, 0x4021), (F.LOOM_SPCHK_WINDOW, 0x4022),
   (F.CORE_LADCTRL_FLOOR, 0x4106), (F.CORE_LADLIM_SAT_MAX, 0x4102), (F.CORE_LADLIM_RTZ_MAX, 0x4103),
   (F.CORE_TALCTRL_LOSS_RANGE, 0x4120), (F.CORE_TALCTRL_EXPECT_EN, 0x4121), (F.MEND_CTRL_DRIFT_EN, 0x4140),
   (F.CORE_WDOG_STITCHMAX, 0x3020), (F.CORE_PATCTL_POISON, 0x3040), (F.CORE_PATCTL_FILLWAIT, 0x3041)]

/-- The settings of a die's cores: frugal mode is set by die (R129). -/
def dieSettings (d : Nat) : List (Fld × Nat) := (F.LOOM_CTRL_FRUGAL, 0x4010 + d) :: coreSettings

/-- The settings of a core put in force at a stitch boundary. The controller writes a field from the dictionary where the entry has
changed since it last did, so that a field it was given by a register write stands (R114, R129). Frugal mode and drift terms follow
their register (R114, R198), and the storm policy the metering period (R152). (DEDUCED: notes/assumptions/33.md.) -/
def applySettings (d c : Nat) (s : State) : State :=
  let b := coreB d c
  let old := (coreOf s d c).applied
  let s := ((dieSettings d).zipIdx).foldl (fun s p => if old[p.2]? = some (odNum s p.1.2) then s else fset s b p.1.1 (odNum s p.1.2)) s
  let s := fset (fset s b F.LOOM_STAT_FRUGAL_ACT (fget s b F.LOOM_CTRL_FRUGAL)) b F.CORE_LADCTRL_POLICY s.serve.stormPol
  modCore s d c fun x => { x with
    applied := (dieSettings d).map fun p => odNum s p.2, replays := odNum s 0x3021, driftOn := fget s b F.MEND_CTRL_DRIFT_EN == 1 }

/-- A core reset (Table 3.6): its scratchpad is zeroed, its queues, engines and registers return to reset; its identity,
fence and clock stay, as do its arrays, assay tables and lane fences. -/
def coreReset (d c : Nat) (s : State) : State :=
  let b := coreB d c
  let id := rget s b
  let ck := rget s (b + 4)
  let lf := fget s b F.LOOM_STAT_LANE_FENCED
  let s := applyLaters (fun k => k / 512 == coreKey d c) (mzero s (spadAddr d c 0) (spadAddr d c (2 ^ 21)))
  let bad := (coreOf s d c).badLines
  let s := modCore s d c fun x => { CoreSt.idle with badLines := bad, stopped := x.stopped }
  let sp := (List.range 4).map fun i => (fkey b F.LOOM_SPUSE_USE i, rget s (fkey b F.LOOM_SPUSE_USE i))
  let s := sp.foldl (fun s p => rset s p.1 p.2) { s with regs := regsDropRange s.regs b (b + 65536) }
  applySettings d c (fset (rset (rset s b id) (b + 4) ck) b F.LOOM_STAT_LANE_FENCED lf)

/-! ### Golden copies and cell care in a reset (R243, R359) -/

/-- The sections of a generation that have a tile or a part on a die. -/
def genSections (g : Gen) (d : Nat) : List Nat :=
  (((g.tiles.filter fun t => t.arr / (72 * 512) == d).map fun t => t.sec) ++ ((g.whole.filter fun p => p.2 == d).map fun p => p.1)).eraseDups

/-- A die's sections shown as missing in every generation (R359). -/
def missDie (d : Nat) (s : State) : State :=
  { s with models := { s.models with gens := s.models.gens.map fun g =>
    { g with
      missing := g.missing ++ (genSections g d).filter (fun x => !g.missing.contains x)
      tiles := g.tiles.map fun t => if t.arr / (72 * 512) = d then { t with landed := false } else t } } }

/-- What a die's loss means for golden copies: without mirrors its sections are missing; where its partner still waits for its own,
both have lost the same data. -/
def loseGolden (d : Nat) (s : State) : State :=
  let p := d ^^^ 1
  if !s.models.mirror then missDie d s else if (dieOf s p).goldenWait then missDie p (missDie d s) else s

/-- Cell care of a core. -/
def careOf (s : State) (d c : Nat) : CareCore := tget (fun _ => CareCore.idle) s.care.cores (coreKey d c)

/-- Cell care of a core changed. -/
def modCare (d c : Nat) (f : CareCore → CareCore) (s : State) : State :=
  { s with care := { s.care with cores := tmod (fun _ => CareCore.idle) s.care.cores (coreKey d c) f } }

/-- A full core assay asked of a core: it takes every stage anew (R227). -/
def askAssay (d c v : Nat) (s : State) : State :=
  let own (k : Nat) : Bool := decide (k / (16 * 256) = coreKey d c)
  let adcs := (s.loom.adcs.map fun p => if own p.1 then (p.1, { p.2 with cal := false }) else p).filter fun p => decide (p.2 ≠ Adc.at (p.1 % 256))
  modCare d c (fun x => { x with assay := max v x.assay, swept := [], tabbed := [] }) { s with loom := { s.loom with adcs := adcs } }

/-- A programming paused (R232). -/
def pauseProg (d c : Nat) (s : State) : State :=
  modCare d c (fun x => { x with prog := x.prog.map fun p => { p with paused := true } }) s

/-- A die's programmings as a die reset leaves them: paused, their arrays Offline (Table 9.7). -/
def careDieDown (d : Nat) (s : State) : State :=
  (s.care.cores.filter fun p => p.1 / 72 == d).foldl (fun s p =>
    let c := p.1 % 72
    match p.2.prog with
    | some g => modArr (arrKey d c g.arr) (fun a => { a with st := if a.st = 1 then 4 else a.st }) (pauseProg d c s)
    | none => s) s

/-! ### Die reset (R87) and holding a die -/

/-- A die's state changed, with the hub time of the change (Table 23.5). -/
def setDieState (d v : Nat) (s : State) : State :=
  if dieState s d = v then s else odSet (odSet s (0x3000 + d) 1 v) (0x3000 + d) 5 (hubTime s)

/-- A context holds KV on a die: a page group of that attention die (R402). (DEDUCED: notes/assumptions/28.md.) -/
def ctxOnDie (s : State) (d : Nat) (c : Ctx) : Bool := c.pages.any fun p => (groupOf s (p.2 - 1)).die == d

/-- Whether the placement of a binding has a tile or an attention role on a die. -/
def placedOnDie (s : State) (b d : Nat) : Bool :=
  s.models.gens.any fun g => g.binding == b && ((g.tiles.any fun t => t.arr / (72 * 512) == d) || g.attn.contains d)

/-- The contexts that the loss of a die's DRAM makes Lost (R391, R397): those with KV on it, and every Pausing or Resuming one of a
binding whose placement uses it. (DEDUCED: notes/assumptions/28.md.) -/
def loseDieContexts (d : Nat) (s : State) : State :=
  let l := s.serve.ctxs.filter fun p =>
    !([0, 5, 7].contains p.2.st) && (ctxOnDie s d p.2 || ([4, 6].contains p.2.st && placedOnDie s (ctxBinding s p.2) d))
  l.foldl (fun s p => loseCtx 1 p.1 s) s

/-- The registers of a die that a die reset leaves: LINK_FAB, the core fences and cover entries, each core's CORE_ID and spares in
use (Table 19.5, R228). (DEDUCED: notes/assumptions/27.md.) -/
def dieKeeps (d : Nat) : List Nat :=
  fkey (dieB d) F.LINK_FAB_DIE 0 :: ((List.range 3).map (fkey (dieB d) F.FLT_FENCE_CORES) ++ (List.range 8).map (fkey (dieB d) F.FLT_COVER_HOST)) ++
  coreList.flatMap fun c => coreB d c :: (List.range 4).map (fkey (coreB d c) F.LOOM_SPUSE_USE)

/-- What a die loses when it goes into reset: steps that use it, contexts on it, its DRAM with the tables in it, its scratchpads, its registers.
(DEDUCED: notes/assumptions/27.md.) -/
def dieDown (d : Nat) (s : State) : State :=
  let s := abandonWhere .free (fun t => bindingOnDie s t.binding d) s
  let s := applyLaters (fun k => k / 36864 == d) (careDieDown d (loseGolden d (loseDieContexts d s)))
  let th := tset (fun _ => Therm.start) s.therm d { Therm.start with rise := List.replicate 2 (odNum s 0x9026) }
  let s := { s with therm := th }
  let s := mzero s (dramAddr d 0) (dramAddr (d + 1) 0)
  let keep := (dieKeeps d).map fun k => (k, rget s k)
  let lanes := coreList.map fun c => (c, fget s (coreB d c) F.LOOM_STAT_LANE_FENCED)
  let s : State := { s with regs := regsDropRange s.regs (dieB d) (dieB (d + 1)), cores := s.cores.filter (fun p => decide (p.1 / 72 ≠ d)) }
  let s := keep.foldl (fun s p => rset s p.1 p.2) s
  let s := lanes.foldl (fun s p => fset s (coreB d p.1) F.LOOM_STAT_LANE_FENCED p.2) s
  let accs := s.loom.accs.map fun p => if p.1 / (72 * 512) = d then (p.1, { p.2 with evaluated := false }) else p
  let s : State := { s with loom := { s.loom with accs := accs } }
  let f : Fabric := { s.fab with ports := s.fab.ports.filter (fun p => decide (p.1 / 8 ≠ d)), wire := s.fab.wire.filter (fun p => decide (p.1 / 8 ≠ d)) }
  let m := s.memc.filter fun p => decide (p.1 / 2 ≠ d)
  let s := { s with memc := m, wire := s.wire.filter (fun r => r.die != d), fab := f }
  let adcs := s.loom.adcs.map fun p => if p.1 / (72 * 16 * 256) = d then (p.1, { p.2 with cal := false }) else p
  let s : State := { s with loom := { s.loom with adcs := adcs.filter fun p => decide (p.2 ≠ Adc.at (p.1 % 256)) } }
  let s := { s with models := { s.models with parts := s.models.parts.map fun p => if p.die = d then { p with mapped := false } else p } }
  modDie s d fun x => { x with trained := [], filled := false, tested := [], outRouters := [], goldenWait := true, rWhy := [], resent := [], barrier := [], barDone := false, pwc := [], inval := none, tabs := [], tabUsed := 0 }

/-- A die reset begun. -/
def startDieReset (d : Nat) (s : State) : State :=
  let s := setDieState d 3 (dieDown d s)
  odInc s (0x3000 + d) 4

/-- A die fence (R484): held in reset with its rails on, its six ports Down. -/
def dieFence (d : Nat) (s : State) : State :=
  let s := setDieState d 4 (dieDown d s)
  (List.range 6).foldl (fun s p => fset s (dieB d) F.LINK_STAT_STATE 1 p) s

/-- Grave state's hold of a die (R487). -/
def dieHold (d : Nat) (s : State) : State := setDieState d 5 (dieDown d s)

/-! ### Endpoint reset (R86, R585) -/

/-- The PCIe endpoint, BARs, MSI-X state and rings reset; EPOCH rises. -/
def endpointLost (s : State) : State :=
  let e := fget s hubB F.HUB_HIFSTAT_EPOCH
  let s := { s with hif := { Hif.off with d3hot := s.hif.d3hot, mbReq := s.hif.mbReq, mbResp := s.hif.mbResp } }
  let s := { s with regs := regsDropRange s.regs 0x2000 0x2018 }
  let s := fset s hubB F.HUB_HIFCPER_COUNT (odNum s 0x8061)
  odInc (fset s hubB F.HUB_HIFSTAT_EPOCH (e + 1)) 0x1061 6

end Sys2Proof.Machine
end

