-- ==== Sys2Proof/Machine/Links.lean ====
section
/-! DEFINITION. Link ports: sending, states and classes, link-state records, IDENT (spec/17_fabric.md R425–R439). -/

namespace Sys2Proof.Machine

/-- A port beside its registers. -/
def portAt (s : State) (d p : Nat) : PortSt := tget (fun _ => PortSt.off) s.fab.ports (d * 8 + p)

/-- A port changed. -/
def modPort (d p : Nat) (f : PortSt → PortSt) (s : State) : State :=
  { s with fab := { s.fab with ports := tmod (fun _ => PortSt.off) s.fab.ports (d * 8 + p) f } }

/-- A port's state (LINK_STAT.STATE): 0 NoCable, 1 Down, 2 Training, 3 Up, 4 Quarantined. -/
def portState (s : State) (d p : Nat) : Nat := fget s (dieB d) F.LINK_STAT_STATE p

/-- The flits of a packet (R426). -/
def flitsOf (p : Packet) : Nat := (32 + p.data.length + 239) / 240

/-- Flits counted at the sending port; each keeps its SEQ until an ACKSEQ covers it (R431). -/
def sendFlits (d p n : Nat) (s : State) : State :=
  modPort d p (fun x => { x with
    unacked := x.unacked ++ (List.range n).map fun i => (x.txSeq + i) % 4096
    txSeq := (x.txSeq + n) % 4096 }) (finc s (dieB d) F.LINK_CNT_TXFLIT_COUNT n p)

/-- Whether a port of a die leads over the wrap link of its dimension (R435). -/
def wrapLink (s : State) (d p : Nat) : Bool :=
  let g := gridOf s
  let c := g.coord (dieNum s d) (p / 2)
  g.wraps (p / 2) && (if p % 2 = 1 then c + 1 == g.size (p / 2) else c == 0)

/-- The virtual channel of a packet on its next link (R441): the third of its class on escape routes; else the first as it enters a dimension,
and the second from the dimension's wrap link on. `from_` is the port that it came in by. (DEDUCED: notes/assumptions/79.md.) -/
def nextVc (s : State) (d p : Nat) (from_ : Option Nat) (x : Packet) : Nat :=
  let base := if x.ctl then 0 else 3
  if x.esc then base + 2
  else if wrapLink s d p then base + 1
  else match from_ with
    | some q => if q / 2 = p / 2 ∧ x.vc = base + 1 then base + 1 else base
    | none => base

/-- A packet sent on a port: data on an internal link is on its way to the partner die; other packets have left the die.
(DEDUCED: notes/assumptions/57.md.) -/
def sendOn (d p : Nat) (x : Packet) (s : State) : State :=
  let s := sendFlits d p (flitsOf x) s
  if internalPort d p && !x.ctl then { s with fab := { s.fab with wire := tmod (fun _ => []) s.fab.wire (d * 8 + p) (· ++ [x]) } }
  else { s with fab := { s.fab with sent := s.fab.sent ++ [(d * 8 + p, x)] } }

/-- A control message (Table 17.6) sent on a port. (DEDUCED: notes/assumptions/57.md.) -/
def sendCtl (d p typ dst : Nat) (body : List Byte) (s : State) : State :=
  sendOn d p ⟨0x10, 4, true, fget s (dieB d) F.LINK_FAB_EPOCH, false, false, 0, dst, dieNum s d, 0, 0, body.length, typ, 0, body, 0⟩ s

/-! ### Link-state records (R439, R486) -/

/-- Every port of the module. -/
def allPorts : List (Nat × Nat) := dieList.flatMap fun d => (List.range 6).map fun p => (d, p)

/-- A record as it is sent. -/
def lsaBytes (r : Lsa) : List Byte :=
  leBytes 2 r.die ++ leBytes 1 r.port ++ leBytes 1 r.cls ++ leBytes 1 (b2n r.x2) ++ leBytes 3 0 ++ leBytes 4 r.seq

/-- A record flooded over the Routed external links, but the one that it came on. -/
def flood (r : Lsa) (not : Option (Nat × Nat)) (s : State) : State :=
  (allPorts.filter fun q => !internalPort q.1 q.2 && portClass s q.1 q.2 == 1 && not != some q).foldl (fun s q =>
    sendCtl q.1 q.2 2 0 (lsaBytes r) s) s

/-- A record kept, the newest of its port; the time of the last change among them is noted. -/
def keepLsa (r : Lsa) (s : State) : State :=
  let old := lsaOf s r.die r.port
  let same := old.cls == r.cls && old.x2 == r.x2
  { s with fab := { s.fab with
    lsas := tset (fun k => ⟨k / 8, k % 8, 0, false, 0⟩) s.fab.lsas (r.die * 8 + r.port) r
    lsaAt := if same then s.fab.lsaAt else hubTime s } }

/-- The record of a port of this module as it stands: in safe state every external port is marked Missing (R486). -/
def ownLsa (d p : Nat) (s : State) : State :=
  let seq := (s.fab.lsaSeq + 1) % 2 ^ 32
  let cls := if s.sys.lsaDown && !internalPort d p then 2 else portClass s d p
  let r : Lsa := ⟨dieNum s d, p, cls, fget s (dieB d) F.LINK_STAT_X2 p == 1, seq⟩
  flood r none (keepLsa r { s with fab := { s.fab with lsaSeq := seq } })

/-- A port's state and class set; a class or width that changes is flooded. -/
def setPort (d p st cls : Nat) (x2 : Bool) (s : State) : State :=
  let b := dieB d
  let was := (portClass s d p, fget s b F.LINK_STAT_X2 p)
  let s := fset (fset (fset s b F.LINK_STAT_STATE st p) b F.LINK_STAT_CLASS cls p) b F.LINK_STAT_X2 (b2n x2) p
  if was = (cls, b2n x2) then s else ownLsa d p s

/-- The class of a port that carries no IDENT: Missing where it has been classified or was Routed, else unclassified. -/
def lostClass (s : State) (d p : Nat) : Nat := if expected s d p && portClass s d p != 0 then 2 else 0

/-- The port's own state given up: flits held and packets on the link are lost. -/
def dropPort (d p : Nat) (s : State) : State :=
  let s := modPort d p (fun x => { PortSt.off with since := x.since, noted := x.noted, fretr := x.fretr }) s
  if internalPort d p then
    let e := (d + 2 ^ (p / 2) - 2 * 2 ^ (p / 2) * (d / 2 ^ (p / 2) % 2)) * 8 + (p + 1 - 2 * (p % 2))
    { s with fab := { s.fab with wire := tdel (tdel s.fab.wire (d * 8 + p)) e } }
  else s

/-- Whether a die's ports may train: it is out of reset, or an internal port's die fills its memory in a die reset (R87). -/
def dieTrains (s : State) (d p : Nat) : Bool :=
  dieState s d == 2 || (internalPort d p && dieState s d == 3 && (dieOf s d).trained.length == 2)

/-- Whether a port may train: enabled, its die out of reset, phase 0x07 reached, and for an external port its cable present
(R44, R429). -/
def mayTrain (s : State) (d p : Nat) : Bool :=
  fget s (dieB d) F.LINK_CTRL_EN p == 1 && dieTrains s d p && decide (bootPhase s ≥ 7) && !halted s &&
    (internalPort d p || s.power.cables.contains (d * 8 + p))

/-- A port's training started (R429), or the state it rests in. -/
def startTraining (d p : Nat) (s : State) : State :=
  if mayTrain s d p then
    let s := modPort d p (fun x => { x with since := hubTime s }) s
    setPort d p 2 (lostClass s d p) false s
  else
    let cable := internalPort d p || s.power.cables.contains (d * 8 + p)
    setPort d p (if cable then 1 else 0) (lostClass s d p) false s

/-- The link reaction of a port (R484, Table 17.4): the port is Down, and Missing where it is expected. -/
def linkDown (d p : Nat) (s : State) : State :=
  let s := dropPort d p s
  setPort d p 1 (if expected s d p then 2 else 0) false s

/-- The links of a die that goes into reset in service (Table 17.8): its ports are Missing until they are classified again, and so are those at
their other ends in the package, which train anew. -/
def dieLinksDown (d : Nat) (s : State) : State :=
  if bootPhase s ≠ 8 then s
  else (List.range 6).foldl (fun s p =>
    let s := setPort d p 1 (if expected s d p then 2 else 0) false s
    if internalPort d p then
      let e := d + 2 ^ (p / 2) - 2 * 2 ^ (p / 2) * (d / 2 ^ (p / 2) % 2)
      let q := p + 1 - 2 * (p % 2)
      if dieState s e = 2 then startTraining e q (dropPort e q s) else s
    else s) s

/-- A die reset begun, its links down. -/
def resetDieLinks (d : Nat) (s : State) : State := dieLinksDown d (startDieReset d s)

/-- A die fenced, its links down. -/
def fenceDieLinks (d : Nat) (s : State) : State := dieLinksDown d (dieFence d s)

/-- The ports of a die that meet a condition started. -/
def startWhere (p : Nat → Bool) (d : Nat) (s : State) : State := ((List.range 6).filter p).foldl (fun s q => startTraining d q s) s

/-- The ports of a die started, at the beginning of phase 0x07 (R429). -/
def startPorts (d : Nat) (s : State) : State := startWhere (fun _ => true) d s

/-- The internal ports of a die started, as its memory fills in a die reset (R87). -/
def startInternal (d : Nat) (s : State) : State := startWhere (internalPort d) d s

/-- The external ports of a die started, after a die reset (R429). -/
def startExternal (d : Nat) (s : State) : State := startWhere (fun p => !internalPort d p) d s

/-- Safe state's ports (R486): every external port is marked Down in a link-state record before it stops. -/
def stopPorts (s : State) : State :=
  let s := { s with sys := { s.sys with lsaDown := true } }
  let s := allPorts.foldl (fun s q => if internalPort q.1 q.2 then s else ownLsa q.1 q.2 s) s
  allPorts.foldl (fun s q => if portState s q.1 q.2 ≥ 2 then fset (dropPort q.1 q.2 s) (dieB q.1) F.LINK_STAT_STATE 1 q.2 else s) s

/-! ### IDENT (R430, Table 17.7) -/

/-- The plan hash: the first eight bytes of the plan's SHA-384 digest; zero without a plan. -/
def planHash (s : State) : List Byte :=
  let b := planBytes s
  if b.isEmpty then List.replicate 8 0#8 else (leBytes 48 (Config.sha384 b).toNat).take 8

/-- The IDENT body of a port. -/
def identBytes (s : State) (d p : Nat) : List Byte :=
  leBytes 1 0x10 ++ leBytes 1 0 ++ leBytes 2 2 ++ leBytes 8 0 ++ (s.flash.serial ++ List.replicate 16 0#8).take 16 ++
    leBytes 2 (dieNum s d) ++ leBytes 1 (p + 8 * b2n (internalPort d p)) ++ leBytes 1 0 ++ planHash s ++
    leBytes 4 (leAt (planBytes s) 8 4) ++ leBytes 20 0

/-- IDENT sent on a port. -/
def sendIdent (d p : Nat) (s : State) : State := sendCtl d p 1 0 (identBytes s d p) s

end Sys2Proof.Machine
end

