-- ==== Sys2Proof/Machine/React.lean ====
section
/-! DEFINITION. Raising a fault: its class with the configured reaction and escalation, its record, and its reaction
(spec/19_faults.md, R473–R487). -/

namespace Sys2Proof.Machine

/-! ### Fences -/

/-- The usable spares of a die: usable, not enabled, not fenced, router not Out, not a cover host and not a rehoming target. -/
def spares (s : State) (d : Nat) : List Nat :=
  coreList.filter fun c =>
    coreUsable s d c && !coreEnabled s d c && !coreFenced s d c && !(dieOf s d).outRouters.contains c &&
    !((dieOf s d).rehome.any fun p => p.2 == c) &&
    !((List.range 8).any fun k => fget s (dieB d) F.FLT_COVER_VALID k == 1 && fget s (dieB d) F.FLT_COVER_HOST k == c)

/-- A core entered in the field fence record (R481). -/
def recordFence (d c : Nat) (s : State) : State :=
  if s.flash.fences.contains (coreKey d c) then s
  else { s with flash := { s.flash with fences := s.flash.fences ++ [coreKey d c] } }

/-- The FLT_FENCE bit and CORE_ID.FENCED of a core. -/
def setFenced (d c : Nat) (v : Bool) (s : State) : State :=
  let w := fget s (dieB d) F.FLT_FENCE_CORES (c / 32)
  let i := c % 32
  let w' := if v then (if natBit w i then w else w + 2 ^ i) else (if natBit w i then w - 2 ^ i else w)
  fset (fset s (dieB d) F.FLT_FENCE_CORES w' (c / 32)) (coreB d c) F.CORE_ID_FENCED (b2n v)

/-- A cover entry in force on a host's die (R483), in the first free place; the host takes the source's slot registers. -/
def coverOn (hd hc sd sc : Nat) (s : State) : State :=
  match (List.range 8).find? fun k => fget s (dieB hd) F.FLT_COVER_VALID k == 0 with
  | none => s
  | some k =>
    let s := modDie s hd fun x => { x with coverNoted := x.coverNoted.filter fun h => h != hc }
    let s := fset s (dieB hd) F.FLT_COVER_HOST hc k
    let s := fset s (dieB hd) F.FLT_COVER_SOURCE sc k
    let s := fset s (dieB hd) F.FLT_COVER_SDIE sd k
    fset s (dieB hd) F.FLT_COVER_VALID 1 k

/-- The lowest usable spare of another die, dies ascending (R482). -/
def otherSpare (s : State) (d : Nat) : Option (Nat × Nat) :=
  dieList.findSome? fun e => if e = d then none else (spares s e).head?.map fun c => (e, c)

/-- A rehoming begun: the target runs a full core assay first (R242). -/
def startRehome (d c a : Nat) (s : State) : State :=
  askAssay d a 1 (modDie s d fun x => { x with rehome := x.rehome ++ [(c, a)] })

/-- The cover host and the rehoming target of a core fenced in Service (R482, R242). -/
def coverAndRehome (d c : Nat) (s : State) : State :=
  match spares s d with
  | a :: b :: _ => startRehome d c a (coverOn d b d c s)
  | [a] =>
    let s := match otherSpare s d with
      | some h => coverOn h.1 h.2 d c s
      | none => coverOn d a d c s
    startRehome d c a s
  | [] =>
    match otherSpare s d with
    | some h => coverOn h.1 h.2 d c s
    | none => hubNotice 0 s

/-- The cover entry that a host core served cleared, and its source covered anew (Table 19.6, cover host fenced): by a spare of its die, else of
another, else by its rehoming target (R482). -/
def recover (d c : Nat) (s : State) : State :=
  (List.range 8).foldl (fun s k =>
    if fget s (dieB d) F.FLT_COVER_VALID k == 1 && fget s (dieB d) F.FLT_COVER_HOST k == c then
      let sc := fget s (dieB d) F.FLT_COVER_SOURCE k
      let sd := fget s (dieB d) F.FLT_COVER_SDIE k
      let s := fset s (dieB d) F.FLT_COVER_VALID 0 k
      match (spares s sd).head?, otherSpare s 8, (dieOf s sd).rehome.find? fun p => p.1 == sc with
      | some h, _, _ => coverOn sd h sd sc s
      | none, some h, _ => coverOn h.1 h.2 sd sc s
      | none, none, some p => coverOn sd p.2 sd sc s
      | none, none, none => hubNotice 0 s
    else s) s

/-- Rehoming restarted on the next usable spare where its target was fenced (Table 19.6). -/
def rehomeAgain (d c : Nat) (s : State) : State :=
  let old := (dieOf s d).rehome
  if old.any fun p => p.2 == c then
    let next := (spares s d).filter (fun x => x != c)
    let s := modDie s d fun x => { x with rehome := match next with
      | t :: _ => old.map fun p => if p.2 == c then (p.1, t) else p
      | [] => old.filter fun p => p.2 != c }
    match next with
    | t :: _ => askAssay d t 1 s
    | [] => s
  else s

/-- The replacement of an enabled core that fails before the enabled set is fixed: the next usable spare (R76). -/
def enableSpare (d c : Nat) (s : State) : State :=
  match (spares s d).head? with
  | some t => fset (modDie s d fun x => { x with replaced := x.replaced ++ [(c, t)] }) (coreB d t) F.CORE_ID_ENABLED 1
  | none => s

/-- The leaves of the die barrier that have arrived: the cores that signalled, the fenced ones, and those whose router is Out
(R318). (DEDUCED: notes/assumptions/58.md.) -/
def barArrived (s : State) (d : Nat) : List Nat :=
  coreList.filter fun c => (dieOf s d).barrier.contains c || coreFenced s d c || (dieOf s d).outRouters.contains c

/-- The barrier of a die as it stands: open until every enabled core has arrived; a lost seam holds it (R318, R319). -/
def barrierCheck (d : Nat) (s : State) : State :=
  let b := dieB d
  if (dieOf s d).barrier.isEmpty then s
  else
    let l := barArrived s d
    let full := fget s b F.MESH_STAT_SEAM_LOST == 0 && coreList.all fun c => !coreEnabled s d c || l.contains c
    let s := if full then modDie s d (fun x => { x with barrier := [], barDone := true }) else s
    fset (fset s b F.MESH_BAR_OPEN (b2n !full)) b F.MESH_BAR_ARRIVED (if full then 0 else l.length)

/-- A fenced core's cell care: its programming is abandoned with the array Offline, its activities end (Table 9.7). -/
def careFenced (d c : Nat) (s : State) : State :=
  let s := match (careOf s d c).prog with
    | some p => putState (arrKey d c p.arr) (if (arrOf s (arrKey d c p.arr)).st = 5 then 5 else 4) s
    | none => s
  modCare d c (fun x => { CareCore.idle with passed := x.passed }) s

/-- HUB_BOOTSTAT.DEGRADED: a core, lane or die fenced during a start-up (Table 3.8). -/
def degrade (s : State) : State := if bootPhase s = 8 then s else fset s hubB F.HUB_BOOTSTAT_DEGRADED 1

/-- A core fence (R481): steps that use it abandoned, the core reset, FENCED set, entered in the field fence record. It leaves the
enabled set, whose count the die reports (R14); before the set is fixed a spare takes its place (R76), in Service its roles are
covered and rehomed. -/
def coreFence (d c : Nat) (s : State) : State :=
  if coreFenced s d c then s
  else
    let s := abandonWhere .other (fun t => bindingOnCore s t.binding d c) s
    let s := careFenced d c (coreReset d c s)
    let s := recordFence d c (setFenced d c true s)
    let was := coreEnabled s d c
    let s := fset s (coreB d c) F.CORE_ID_ENABLED 0
    if bootPhase s ≠ 8 then
      let s := degrade s
      if was ∧ bootPhase s ≤ 6 then enableSpare d c s else s
    else
      let s := rehomeAgain d c (recover d c s)
      barrierCheck d (if was then coverAndRehome d c s else s)

/-- A lane fence (R481): its arrays are served at P16 cover; commands queued on it meet Table 4.8 (NOTFIRED = 2). -/
def laneFence (d c lane : Nat) (s : State) : State :=
  let w := fget s (coreB d c) F.LOOM_STAT_LANE_FENCED
  degrade (if natBit w lane then s else fset s (coreB d c) F.LOOM_STAT_LANE_FENCED (w + 2 ^ lane))

/-- Routes to be computed anew (R310): every step that uses the die is abandoned, and none forms before the new epoch. -/
def routesStale (d : Nat) (s : State) : State :=
  fset (abandonWhere .other (fun t => bindingOnDie s t.binding d) s) (dieB d) F.MESH_ROUTE_BUSY 1

/-- The packets that a router held as it went Out are lost (R310): of those whose route passes it, a free value says which. (DEDUCED:
notes/assumptions/79.md.) -/
def loseHeld (d r : Nat) (s : State) : State :=
  s.wire.foldl (fun s x =>
    if x.die = d ∧ x.route.any fun p => p.1 == r then
      let (n, s) := takeNat s
      if n % 2 = 1 then { s with wire := s.wire.erase x } else s
    else s) s

/-- A router put Out by a link fault on one of its ports (R303, R307); the field fence record keeps it.
(DEDUCED: notes/assumptions/79.md.) -/
def routerOut (d r bad : Nat) (s : State) : State :=
  if (dieOf s d).outRouters.contains r then s
  else
    let s := modDie s d fun x => { x with outRouters := x.outRouters ++ [r], rWhy := tset (fun _ => (0, 0)) x.rWhy r (3, bad) }
    let k := coreKey d r
    let s := { s with flash := { s.flash with
      routerFences := if s.flash.routerFences.contains k then s.flash.routerFences else s.flash.routerFences ++ [k] } }
    loseHeld d r (finc s (dieB d) F.MESH_STAT_ROUT_OUT)

/-! ### Safe state and grave state -/

/-- The start-up phase recorded where a start-up ends in F3 or F4 (R83). -/
def notePhase (s : State) : State :=
  if modState s = 1 then fset s hubB F.HUB_BOOTSTAT_STOPPHASE (bootPhase s) else s

/-- Whether a condition above F3 and F4 governs, so that they are only recorded: a shut-down under way (R62, Table 2.10). -/
def shuttingDown (s : State) : Bool := modState s == 7

/-- Safe state (R486): every step abandoned, cores stop at their boundaries, ports stopped, tails written. It ends a start-up, and the
module reset that began it (R83, R86). -/
def safeState (s : State) : State :=
  if halted s || shuttingDown s then s
  else
    let s := { s with sys := { s.sys with resetting := false } }
    let s := abandonWhere .other (fun _ => true) (notePhase s)
    let s := setModState 5 s
    let s := s.care.cores.foldl (fun s p => pauseProg (p.1 / 72) (p.1 % 72) s) s
    let s := stopIdleCores s
    flashTails (stopPorts s)

/-- Grave state (R487): safe state, and every die held in reset with its rails on. -/
def graveState (s : State) : State :=
  if modState s = 6 || shuttingDown s then s
  else
    let s := safeState s
    let s := fset s hubB F.HUB_SIGSTAT_MOD_STATE 6
    dieList.foldl (fun s d => dieHold d s) (flashTails s)

/-- A secondary rail fault or standby-domain watchdog (R92): rails off at once, nothing written to flash, the record left to
the next start-up (R487), with the phase of a start-up that it ends (R83). (DESIGN CHOICE: notes/assumptions/71.md.) -/
def tripOff (code cause : Nat) (s : State) : State :=
  let s := { s with power := { s.power with cause := cause, needToggle := true, tripRecs := s.power.tripRecs ++ [code] } }
  let s := notePhase s
  fset (powerOff s) hubB F.HUB_BOOTSTAT_STOPPHASE (fget s hubB F.HUB_BOOTSTAT_STOPPHASE)

/-- Recovery (R75): no die is released; the boot ROM serves the firmware-upload subset. MOD_STATE
stays 0x01: phase 0x09 is a phase of start-up (Table 3.1). -/
def recovery (s : State) : State :=
  let s := { s with sys := { s.sys with resetting := false } }
  let s := fset (fset (notePhase s) hubB F.HUB_BOOTSTAT_PHASE 9) hubB F.HUB_BOOTSTAT_RECOVERY 1
  dieList.foldl (fun s d => setDieState d 5 s) s

/-! ### Reactions of class F2 -/

/-- The reaction that a die takes under FENCE (R484): 0x0604 and 0x0606 reset it, the others fence it. -/
def dieReaction (code d : Nat) (s : State) : State :=
  if code = 0x0503 ∨ code = 0x0605 ∨ code = 0x0607 ∨ code = 0x0A02 then fenceDieLinks d (degrade s) else resetDieLinks d s

/-- The reaction of a fault that has reached class F2: what INSTANCE names is fenced, or the die or link reaction runs
(Table 19.2, R480). (DEDUCED: notes/assumptions/25.md.) -/
def reactF2 (code die inst : Nat) (s : State) : State :=
  match code / 256 with
  | 0x02 => if code = 0x0205 then s else laneFence die (inst / 16) (inst % 16) s
  | 0x05 =>
    if code = 0x0503 then dieReaction code die s
    else if code = 0x0502 then coreFence die inst (routesStale die (routerOut die inst 0 s))
    else coreFence die inst s
  | 0x06 => dieReaction (if code ≤ 0x0603 then 0x0604 else code) die s
  | 0x08 => if code = 0x0804 then s else linkDown die inst s
  | 0x09 =>
    if code = 0x0901 ∨ code = 0x0902 then coreFence die inst s
    else if code = 0x0904 ∨ code = 0x0905 then modBind s inst fun b => { b with auditHeld := true }
    else s
  | 0x0A => if code = 0x0A02 then dieReaction code die s else s
  | 0x0B | 0x0D => s
  | _ => coreFence die inst s

/-! ### Raising -/

/-- The escalation scope of an F2 (R480): its die for a die's sources, else the module. -/
def scope2 (code die : Nat) : Nat := if code = 0x0804 ∨ die ≥ 8 then hubDie else die

/-- Whether an open fault raises one of a class (R480). 0x0604 and 0x0905 meet each other (Table 20.10). (DEDUCED: notes/assumptions/25.md.) -/
def raisesClass (s : State) (cls code die inst : Nat) : Bool :=
  match cls with
  | 1 => anyOpen s fun o => o.cls == 1 && o.code == code && o.die == die && o.inst == inst
  | 2 => anyOpen s fun o => o.cls == 2 && (scope2 o.code o.die == scope2 code die ||
      (o.code == 0x0905 && code == 0x0604) || (o.code == 0x0604 && code == 0x0905))
  | 3 => anyOpen s fun o => o.cls == 3
  | _ => false

/-- The class finally reached from a class, by escalation (R480). (DEDUCED: notes/assumptions/25.md.) -/
def escalate (s : State) (code die inst : Nat) : Nat → Nat → Nat
  | 0, cls => cls
  | n + 1, cls => if raisesClass s cls code die inst then escalate s code die inst n (cls + 1) else cls

/-- The class a source starts from: under SAFE a source of scope Die or Link is an F3 (R484). -/
def startClass (s : State) (x : Source) : Nat :=
  match x.scope with
  | .die => if x.cls = 2 ∧ fget s hubB F.FLT_MSTAT_DIEREACT = 2 then 3 else x.cls
  | .link => if x.cls = 2 ∧ fget s hubB F.FLT_MSTAT_LINKREACT = 2 then 3 else x.cls
  | _ => x.cls

/-- The class of an escalated fault of a memory controller: its F2 takes the die reaction of code 0x0604, which under SAFE is an F3 (R480,
R484). -/
def safeClass (s : State) (code cls : Nat) : Nat :=
  if cls = 2 ∧ 0x0601 ≤ code ∧ code ≤ 0x0603 ∧ fget s hubB F.FLT_MSTAT_DIEREACT = 2 then 3 else cls

/-- F1 sources whose recovery ends with the command that detects them (R474). -/
def instantF1 (code : Nat) : Bool := [0x0205, 0x0301, 0x0402, 0x0901, 0x0A01].contains code

/-- The reaction of the class that a fault reached. -/
def react (cls code die inst : Nat) (s : State) : State :=
  match cls with
  | 2 => reactF2 code die inst s
  | 3 => if code = 0x0B02 then recovery s else safeState s
  | 4 => if code = 0x0B05 then tripOff code 5 s else if code = 0x0B06 then tripOff code 6 s else graveState s
  | _ => s

/-- A fault raised (R473–R480): its class with the configured reaction and escalation, its record, its open fault, and the
reaction of the class reached. -/
def raiseFault (code die inst detail : Nat) (forced : Bool) (s : State) : State :=
  match sourceOf code with
  | none => s
  | some x =>
    let c0 := startClass s x
    let cls := if c0 = 0 then 0 else safeClass s code (escalate s code die inst 4 c0)
    let cls := if cls = 3 then escalate s code die inst 1 3 else cls
    let esc := decide (cls > c0)
    let seq := if capturing s die then 0 else s.faults.nextSeq
    let s := recordFault cls code die inst detail esc forced (countFault cls die s)
    let s := if cls = 0 then s
      else if cls = 1 then (if instantF1 code then s else openFault 1 code die inst detail 0 s)
      else openFault cls code die inst detail seq s
    react cls code die inst s

/-- Whether a source can lie at a DIE and INSTANCE (Table 19.2, R475, R529). (DEDUCED: notes/assumptions/26.md.) -/
def placeOk (code die inst : Nat) : Bool :=
  match code / 256 with
  | 0x01 | 0x03 | 0x04 | 0x07 => decide (die < 8) && decide (inst < 72)
  | 0x02 => decide (die < 8) && decide (inst < 16 * 72)
  | 0x05 => decide (die < 8) && decide (inst < if code = 0x0502 then 72 else 1)
  | 0x06 => decide (die < 8) && decide (inst < if 0x0601 ≤ code ∧ code ≤ 0x0605 then 2 else 1)
  | 0x08 => if code = 0x0804 then decide (die = 15) else decide (inst < 6) && (decide (die < 8) || code == 0x0800)
  | 0x09 => if code = 0x0901 ∨ code = 0x0902 then decide (die < 8) && decide (inst < 72) else decide (inst < 4)
  | 0x0A =>
    if code = 0x0A01 then decide (die < 8) && decide (inst < 24)
    else if code = 0x0A02 then decide (die < 8) && decide (inst < 2)
    else if code = 0x0A03 then decide (die < 8) && decide (inst < 72)
    else code != 0x0A06 || decide (inst < 2)
  | _ => die == hubDie || code == 0x0B00

/-- One occurrence forced (R491). A forced F1 finds nothing to recover, so it closes at once, but where the real one is open.
(DEDUCED: notes/assumptions/26.md.) -/
def forceFault (code die inst : Nat) (s : State) : State :=
  let was := raisesClass s 1 code die inst
  let s := raiseFault code die inst 0 true s
  if was then s else closeF1 code die inst s

/-- A fault met in operation. -/
def fault (code die inst detail : Nat) (s : State) : State := raiseFault code die inst detail false s

end Sys2Proof.Machine
end

