-- ==== Sys2Proof/Machine/Folio.lean ====
section
/-! DEFINITION. Folios: the unit of every DRAM access, the code that protects them, and reading and writing DRAM through them
(spec/13_memory_and_translation.md R325–R329, R337). -/

namespace Sys2Proof.Machine

/-! ### Folios and controllers (R325) -/

/-- The folio of a DRAM offset. -/
def folioOf (a : Nat) : Nat := a / 2048

/-- The stack of a folio: F[0] XOR F[8] XOR F[16]. -/
def stackOf (f : Nat) : Nat := (f + f / 2 ^ 8 + f / 2 ^ 16) % 2

/-- The folio of a stack's φ. -/
def folioAt (st phi : Nat) : Nat := 2 * phi + (st + phi / 2 ^ 7 + phi / 2 ^ 15) % 2

/-- A memory controller. -/
def memcOf (s : State) (d st : Nat) : Memc := tget (fun _ => Memc.idle) s.memc (d * 2 + st)

/-- A memory controller changed. -/
def modMemc (d st : Nat) (f : Memc → Memc) (s : State) : State := { s with memc := tmod (fun _ => Memc.idle) s.memc (d * 2 + st) f }

/-- The folio remap table of a stack (R339). -/
def remapsOf (s : State) (d st : Nat) : List (Option Nat) := tget (fun _ => noRemaps) s.flash.remaps (d * 2 + st)

/-- RM_USED, RM_FULL and their dictionary entries as the remap table stands. -/
def showRemaps (d st : Nat) (s : State) : State :=
  let n := ((remapsOf s d st).filter fun e => e.isSome).length
  let s := fset (fset s (dieB d) F.MEMC_STAT_RM_USED n st) (dieB d) F.MEMC_STAT_RM_FULL (b2n (n == 16)) st
  odSet s (0x5000 + d) (6 + st) n

/-- A remap table stored. -/
def setRemaps (d st : Nat) (l : List (Option Nat)) (s : State) : State :=
  showRemaps d st { s with flash := { s.flash with remaps := tset (fun _ => noRemaps) s.flash.remaps (d * 2 + st) l } }

/-- The encoding of a strength in MEMC_CTRL (Table 13.2). -/
def strengthCode (p : Nat) : Nat := if p = 16 then 0 else if p = 64 then 2 else 1

/-- MEMC_SCRUBINT as T_scrub (OD 0x5010) gives it, in whole nanoseconds (R340). -/
def setScrubInt (d st : Nat) (s : State) : State :=
  fset s (dieB d) F.MEMC_SCRUBINT_INTERVAL (odNum s 0x5010 * 3600000000000 / 25165824) st

/-- A stack's strength in force from its fill on (R328). -/
def takeStrength (d st : Nat) (s : State) : State :=
  let c := strengthCode (odNum s (0x5000 + d) (st + 1))
  fset (fset s (dieB d) F.MEMC_CTRL_STRENGTH_NEXT c st) (dieB d) F.MEMC_CTRL_STRENGTH_ACT c st

/-! ### The field GF(2⁸) of the folio code (R326) -/

/-- A product in the field of the primitive polynomial 0x11D, a bit of `b` at a time. -/
def gmulBits : Nat → Nat → Nat → Nat
  | 0, _, _ => 0
  | k + 1, a, b => (if b % 2 = 1 then a else 0) ^^^ gmulBits k (if a ≥ 128 then (2 * a) ^^^ 0x11D else 2 * a) (b / 2)

/-- A product in the field. -/
def gmul (a b : Nat) : Nat := gmulBits 8 a b

/-- A power in the field. -/
def gpow (a : Nat) : Nat → Nat
  | 0 => 1
  | k + 1 => gmul a (gpow a k)

/-- The inverse of a non-zero element: its 254th power. -/
def ginv (a : Nat) : Nat := gpow a 254

/-- The generator ∏ (x − α^j), j below `r`, with α = 0x02: coefficients below the highest, highest degree first. -/
def rsGen : Nat → List Nat
  | 0 => []
  | r + 1 =>
    let g := 1 :: rsGen r
    let m := g.map (gmul (gpow 2 r))
    (List.zipWith (· ^^^ ·) (g ++ [0]) (0 :: m)).drop 1

/-- The check symbols of a codeword: the remainder of its data symbols, highest degree first, divided by the generator. -/
def rsCheck (r : Nat) (data : List Nat) : List Nat :=
  let g := rsGen r
  data.foldl (fun reg x =>
    let f := x ^^^ reg.headD 0
    List.zipWith (· ^^^ ·) (reg.drop 1 ++ [0]) (g.map (gmul f))) (List.replicate r 0)

/-- The place in a folio and its check slot of each symbol of codeword `i`, highest degree first: data symbol `k` on byte lane
(i + k) mod 16 of beat `k`, then slot bytes 4i to 4i + r − 1, the slot following the 2,048 data bytes. -/
def symbolPlaces (r i : Nat) : List Nat :=
  ((List.range 128).map fun k => 16 * k + (i + k) % 16) ++ (List.range r).map fun j => 2048 + 4 * i + j

/-- The check slot of a folio: its unused bytes are zero. -/
def checkSlot (r : Nat) (data : List Nat) : List Nat :=
  (List.range 16).flatMap fun i =>
    rsCheck r (((symbolPlaces r i).take 128).map fun q => data.getD q 0) ++ List.replicate (4 - r) 0

/-- The syndromes of a codeword received, highest degree first. -/
def syndromes (r : Nat) (w : List Nat) : List Nat :=
  (List.range r).map fun j => w.foldl (fun a x => gmul a (gpow 2 j) ^^^ x) 0

/-- The syndromes of errors: degree and value of each. -/
def syndromesOf (r : Nat) (e : List (Nat × Nat)) : List Nat :=
  (List.range r).map fun j => e.foldl (fun a x => a ^^^ gmul x.2 (gpow 2 (j * x.1))) 0

/-- The one error that gives the syndromes, among `n` symbols: its place and value. -/
def oneError (r n : Nat) (syn : List Nat) : Option (List (Nat × Nat)) :=
  let e := syn.headD 0
  if e = 0 then none
  else ((List.range n).find? fun q => syndromesOf r [(n - 1 - q, e)] == syn).map fun q => [(q, e)]

/-- Two errors that give the syndromes. -/
def twoErrors (r n : Nat) (syn : List Nat) : Option (List (Nat × Nat)) :=
  let s0 := syn.headD 0
  let s1 := syn.getD 1 0
  ((List.range n).flatMap fun p => (List.range p).map fun q => (q, p)).findSome? fun x =>
    let a := gpow 2 (n - 1 - x.1)
    let b := gpow 2 (n - 1 - x.2)
    let f := gmul (s1 ^^^ gmul s0 a) (ginv (a ^^^ b))
    let e := s0 ^^^ f
    if e ≠ 0 ∧ f ≠ 0 ∧ syndromesOf r [(n - 1 - x.1, e), (n - 1 - x.2, f)] = syn then some [(x.1, e), (x.2, f)] else none

/-- The errors that a decoder of `r` check symbols corrects, given the syndromes: none, one, or two (Table 13.2). -/
def nearest (r : Nat) (syn : List Nat) : Option (List (Nat × Nat)) :=
  if syn.all (· == 0) then some []
  else if r = 1 then none
  else match oneError r (128 + r) syn with
    | some e => some e
    | none => if r = 4 then twoErrors r (128 + r) syn else none

/-- The check symbols per codeword and the symbols that a strength corrects: code 0 P = 16, 1 P = 32, 2 P = 64 (Table 13.2). -/
def codePower (c : Nat) : Nat × Nat := match c with | 0 => (1, 0) | 2 => (4, 2) | _ => (2, 1)

/-- What a codeword decodes to. -/
inductive CwOut where
  | clean
  | corrected (fix : List (Nat × Nat))
  | uncorrectable
  deriving DecidableEq, Repr

/-- A codeword received with `n` symbols in error. A pattern that the decoder takes for one it corrects is miscorrected where `mis`
says so, else it is declared uncorrectable (R327). (DEDUCED: notes/assumptions/59.md.) -/
def decodeCw (c n : Nat) (mis : Bool) (w : List Nat) : CwOut :=
  let p := codePower c
  match nearest p.1 (syndromes p.1 w) with
  | some [] => .clean
  | some e => if n ≤ p.2 ∨ mis then .corrected e else .uncorrectable
  | none => .uncorrectable

/-- Whether a folio is uncorrectable: any codeword is. -/
def isUncorr (l : List CwOut) : Bool := l.any fun o => o == .uncorrectable

/-- Whether a folio needed correction. -/
def isCorr (l : List CwOut) : Bool := l.any fun o => o != .clean

/-- The most symbols corrected in one codeword. -/
def mostSymbols (l : List CwOut) : Nat := l.foldl (fun a o => match o with | .corrected e => max a e.length | _ => a) 0

/-- Bytes with an error pattern, as places and differences. -/
def withErrors (l : List Nat) (pat : List (Nat × Nat)) : List Nat :=
  l.zipIdx.map fun p => pat.foldl (fun a e => if e.1 = p.2 then a ^^^ e.2 else a) p.1

/-- A folio received with an error pattern over its data and check slot: what each codeword decodes to, and the data. Bit `i` of `mis`
settles codeword `i`'s miscorrection. (DEDUCED: notes/assumptions/59.md.) -/
def decodeFolio (c : Nat) (data : List Byte) (pat : List (Nat × Nat)) (mis : Nat) : List CwOut × List Byte :=
  let r := (codePower c).1
  let l := data.map fun b => b.toNat
  let got := withErrors (l ++ checkSlot r l) pat
  let hit := withErrors (List.replicate 2112 0) pat
  let outs := (List.range 16).map fun i =>
    let q := symbolPlaces r i
    decodeCw c (q.filter fun x => hit.getD x 0 != 0).length (natBit mis i) (q.map fun x => got.getD x 0)
  let fix := outs.zipIdx.flatMap fun p => match p.1 with
    | .corrected e => e.map fun x => ((symbolPlaces r p.2).getD x.1 0, x.2)
    | _ => []
  (outs, ((withErrors got fix).take 2048).map fun x => BitVec.ofNat 8 x)

/-! ### Decoding a stored folio (R327, R329) -/

/-- The errors that the next read of a folio meets. (DEDUCED: notes/assumptions/59.md.) -/
def errorsIn (s : State) (d st phi : Nat) : List (Nat × Nat) :=
  ((memcOf s d st).bad.filter fun e => e.phi == phi).flatMap fun e => e.sym

/-- The errors of a folio after a read of it: those that last for no further read are gone. -/
def passErrors (d st phi : Nat) (s : State) : State :=
  modMemc d st (fun m => { m with bad := m.bad.filterMap fun e =>
    (if e.phi ≠ phi then some e else if e.left ≤ 1 then none else some { e with left := e.left - 1 }) }) s

/-- A folio written whole, or mapped to a spare: what was in error there is gone. -/
def dropErrors (d st phi : Nat) (s : State) : State :=
  if (memcOf s d st).bad.isEmpty then s else modMemc d st (fun m => { m with bad := m.bad.filter fun e => e.phi != phi }) s

/-- ERRFOLIO and ERRINFO of an error. -/
def noteError (d st phi src : Nat) (outs : List CwOut) (unc : Bool) (s : State) : State :=
  let b := dieB d
  let s := fset (fset (fset s b F.MEMC_ERRFOLIO_FOLIO phi st) b F.MEMC_ERRFOLIO_UNCORR (b2n unc) st) b F.MEMC_ERRFOLIO_VALID 1 st
  let cw := (outs.zipIdx.find? fun p => p.1 != CwOut.clean).map fun p => p.2
  fset (fset (fset s b F.MEMC_ERRINFO_CODEWORD (cw.getD 0) st) b F.MEMC_ERRINFO_SYMBOLS (mostSymbols outs) st) b F.MEMC_ERRINFO_SOURCE src st

/-- DETAIL of a memory fault: φ and codeword. -/
def memDetail (s : State) (d st phi : Nat) : Nat := phi + 2 ^ 32 * fget s (dieB d) F.MEMC_ERRINFO_CODEWORD st

/-- A folio corrected (R327). -/
def noteCorrected (d st phi src : Nat) (outs : List CwOut) (s : State) : State :=
  odInc (finc (noteError d st phi src outs false s) (dieB d) F.MEMC_CNT_CORR_COUNT 1 st) (0x5000 + d) 3

/-- A folio fetched and decoded with its check slot: its data and whether it was corrected, or none where it is uncorrectable.
(DEDUCED: notes/assumptions/59.md.) -/
def fetchFolio (d st phi src : Nat) (s : State) : Option (List Byte × Bool) × State :=
  let pat := errorsIn s d st phi
  let data := mread s (dramAddr d (2048 * folioAt st phi)) 2048
  if pat.isEmpty then (some (data, false), s)
  else
    let (n, s) := takeNat (passErrors d st phi s)
    let r := decodeFolio (fget s (dieB d) F.MEMC_CTRL_STRENGTH_ACT st) data pat n
    if isUncorr r.1 then (none, noteError d st phi src r.1 true s)
    else if isCorr r.1 then (some (r.2, true), noteCorrected d st phi src r.1 s)
    else (some (r.2, false), s)

/-- A folio whose decode was uncorrectable is re-read (R337): φ, source, and for whom. -/
def needReread (d st phi src : Nat) (who : MemUser) (s : State) : State :=
  modMemc d st (fun m => { m with reread := m.reread ++ [(phi, src, who)] }) s

/-- Whether a re-read is due for a user. -/
def rereadDue (s : State) (d : Nat) (who : MemUser) : Bool :=
  [0, 1].any fun st => (memcOf s d st).reread.any fun e => e.2.2 == who

/-- Bytes read folio by folio; `k` bounds the folios. -/
def readFolios (d src : Nat) (who : MemUser) : Nat → Nat → Nat → State → Option (List Byte) × State
  | 0, _, _, s => (some [], s)
  | k + 1, a, n, s =>
    if n = 0 then (some [], s)
    else
      let f := folioOf a
      let m := min n (2048 - a % 2048)
      match fetchFolio d (stackOf f) (f / 2) src s with
      | (none, s) => (none, needReread d (stackOf f) (f / 2) src who s)
      | (some b, s) =>
        match readFolios d src who k (a + m) (n - m) s with
        | (none, s) => (none, s)
        | (some l, s) => (some (sliceBytes b.1 (a % 2048) m ++ l), s)

/-- `n` bytes from offset `a` of a die's DRAM (R329); none where a folio is uncorrectable, whose re-read is then due. `src` is
ERRINFO's SOURCE. -/
def readDram (d a n src : Nat) (who : MemUser) (s : State) : Option (List Byte) × State :=
  if (memcOf s d 0).bad.isEmpty && (memcOf s d 1).bad.isEmpty then (some (mread s (dramAddr d a) n), s)
  else readFolios d src who (n / 2048 + 2) a n s

/-! ### Writes and the folio buffer (R329) -/

/-- Whether byte ranges (offset, length) cover a whole folio. -/
def coversFolio (l : List (Nat × Nat)) : Bool :=
  (List.range 2048).all fun i => l.any fun r => decide (r.1 ≤ i) && decide (i < r.1 + r.2)

/-- Bytes put at their offsets in a folio, in order. -/
def putBytes (d st phi : Nat) (l : List (Nat × List Byte)) (s : State) : State :=
  l.foldl (fun s w => mwrite s (dramAddr d (2048 * folioAt st phi) + w.1) w.2) s

/-- The merge of a read-modify-write: the folio's data decoded, the bytes written, everything re-encoded. -/
def mergeInto (d st phi : Nat) (data : List Byte) (new : List (Nat × List Byte)) (s : State) : State :=
  dropErrors d st phi (putBytes d st phi ((0, data) :: new) s)

/-- A folio buffer entry issued: one that does not cover its folio is a read-modify-write, which writes nothing where its read is
uncorrectable. What the entry's writes overwrote is what the read fetches. -/
def issueBuf (d st phi : Nat) (s : State) : State :=
  match (memcOf s d st).buf.find? fun e => e.1 == phi with
  | none => s
  | some e =>
    let s := modMemc d st (fun m => { m with buf := m.buf.filter fun x => x.1 != phi }) s
    if coversFolio (e.2.map fun w => (w.1, w.2.length)) then dropErrors d st phi s
    else
      let s := finc s (dieB d) F.MEMC_CNT_RMW_COUNT 1 st
      if (errorsIn s d st phi).isEmpty then s
      else
        let base := dramAddr d (2048 * folioAt st phi)
        let new := e.2.map fun w => (w.1, mread s (base + w.1) w.2.length)
        match fetchFolio d st phi 1 (putBytes d st phi e.2.reverse s) with
        | (some b, s) => mergeInto d st phi b.1 new s
        | (none, s) => needReread d st phi 1 (.merge new) s

/-- A write to a folio noted in the folio buffer of 32 entries, with the bytes it overwrites. -/
def noteWrite (d f lo : Nat) (was : List Byte) (s : State) : State :=
  let st := stackOf f
  let phi := f / 2
  let b := (memcOf s d st).buf
  if was.length = 2048 then dropErrors d st phi (modMemc d st (fun m => { m with buf := m.buf.filter fun x => x.1 != phi }) s)
  else if b.any fun e => e.1 == phi then
    modMemc d st (fun m => { m with buf := m.buf.map fun e => if e.1 = phi then (e.1, e.2 ++ [(lo, was)]) else e }) s
  else
    let s := if b.length ≥ 32 then (match b with | e :: _ => issueBuf d st e.1 s | [] => s) else s
    modMemc d st (fun m => { m with buf := m.buf ++ [(phi, [(lo, was)])] }) s

/-- Bytes written to a die's DRAM, folio by folio: they are read by every access that arrives later; `k` bounds the folios. -/
def writeFolios (d : Nat) : Nat → Nat → List Byte → State → State
  | 0, _, _, s => s
  | k + 1, a, l, s =>
    if l.isEmpty then s
    else
      let n := 2048 - a % 2048
      let x := l.take n
      let s := noteWrite d (folioOf a) (a % 2048) (mread s (dramAddr d a) x.length) s
      writeFolios d k (a + n) (l.drop n) (mwrite s (dramAddr d a) x)

/-- Bytes written to a die's DRAM (R329). -/
def dramWrite (d a : Nat) (l : List Byte) (s : State) : State := writeFolios d (l.length / 2048 + 2) a l s

end Sys2Proof.Machine
end

