-- ==== Sys2Proof/Machine/Maps.lean ====
section
/-! DEFINITION. The hub's allocation of each die's DRAM and the translation tables that it writes there (R330, R331, R334, R338, R357–R359,
R363, R364, R402–R404, R420, R500). Where the hub puts what the spec leaves to it is its own choice (notes/assumptions/21.md). -/

namespace Sys2Proof.Machine

/-! ### The allocation map (R338, R404) -/

/-- The bytes of a die's DRAM (Table 1.1). -/
def dieBytes : Nat := 96 * 2 ^ 30

/-- DRAM offset of a die's golden region, of its mirror region, and their size (R357, R359). -/
def goldenBase : Nat := 0x15C0000000
/-- DRAM offset of the mirror region. -/
def mirrorBase : Nat := 0x1380000000
/-- The size of both. -/
def goldenSize : Nat := 9 * 2 ^ 30

/-- `a` rounded up to a multiple of `n`. -/
def alignUp (n a : Nat) : Nat := (a + n - 1) / n * n

/-- Where the hub's own tables of a die begin: with the context table (MEMC_CTXBASE). -/
def hubBase (s : State) (d : Nat) : Nat := fget s (dieB d) F.MEMC_CTXBASE_BASE * 2 ^ 20

/-- The areas that the hub gives the steps of the bindings in turn: of each binding 16 for steps and 16 for audit runs. -/
def stepArea (b num : Nat) : Nat := 32 * (b % 4) + (if num ≥ runBit then 16 else 0) + num % 16

/-- Where the step table, input tokens and adapter lists of a step lie on a die (R378): 256 KiB behind the context table. -/
def stepTableAt (s : State) (d b num : Nat) : Nat := hubBase s d + 2 ^ 20 + stepArea b num * 2 ^ 18

/-- Where the signature area of a step lies on die 0 (R500): 16 MiB behind the step tables. -/
def sigAt (s : State) (b num : Nat) : Nat := alignUp (2 ^ 21) (hubBase s 0 + 33 * 2 ^ 20) + stepArea b num * 2 ^ 24

/-- The virtual address of a step's table in its binding's translation context. (DESIGN CHOICE: notes/assumptions/75.md.) -/
def tableVa (b num : Nat) : Nat := 2 ^ 45 + stepArea b num * 2 ^ 18

/-- The virtual address of a step's signature area. (DESIGN CHOICE: notes/assumptions/75.md.) -/
def sigVa (b num : Nat) : Nat := 2 ^ 45 + 2 ^ 40 + stepArea b num * 2 ^ 24

/-- Where an audit run on another placement finds the input tokens and adapter lists of its step. (DESIGN CHOICE: notes/assumptions/68.md.) -/
def runTokVa (b num : Nat) : Nat := 2 ^ 47 + 2 ^ 45 + stepArea b num * 2 ^ 18

/-- The range of a die's DRAM that the hub keeps for the context table, the step tables and, on die 0, the signature areas.
(DESIGN CHOICE: notes/assumptions/21.md.) -/
def hubRange (s : State) (d : Nat) : Nat × Nat :=
  (hubBase s d, if d = 0 then alignUp (2 ^ 21) (hubBase s 0 + 33 * 2 ^ 20) + 2 ^ 31 - hubBase s 0 else 33 * 2 ^ 20)

/-- The ranges of a die's DRAM that image parts and copies of its partner's parts take (R358, R359). -/
def partRanges (s : State) (d : Nat) : List (Nat × Nat) :=
  (s.models.parts.filter fun p => p.die == d).map (fun p => (p.addr, alignUp (if p.gen = 0 then 2 ^ 21 else 65536) p.len)) ++
  if s.models.mirror then (s.models.parts.filter fun p => p.die == d ^^^ 1).map fun p => (p.twin, alignUp 65536 p.len) else []

/-- The ranges of a die's DRAM given to other uses than KV. (DESIGN CHOICE: notes/assumptions/21.md.) -/
def givenRanges (s : State) (d : Nat) : List (Nat × Nat) :=
  [hubRange s d, (goldenBase, goldenSize)] ++ (if s.models.mirror then [(mirrorBase, goldenSize)] else []) ++ partRanges s d ++
  (dieOf s d).tabs.map fun a => (a, 65536)

/-- Every range of a die's DRAM in the allocation map. -/
def takenRanges (s : State) (d : Nat) : List (Nat × Nat) :=
  givenRanges s d ++ s.serve.groups.flatMap fun p => if p.2.die = d then p.2.home.map fun a => (a, 65536) else []

/-- The frames of a die's KV pool: its DRAM not given to another use (R404). -/
def poolFrames (s : State) (d : Nat) : Nat := (dieBytes - ((givenRanges s d).map fun r => r.2).sum) / 65536

/-- Frames of a die in page groups, reclaimed ones not yet returned included. -/
def heldFrames (s : State) (d : Nat) : Nat := (s.serve.groups.map fun p => if p.2.die = d then p.2.frames else 0).sum

/-- The DRAM frames that remain on a die. -/
def framesLeft (s : State) (d : Nat) : Nat := poolFrames s d - heldFrames s d

/-- The lowest multiple of `m` where a range fits among others. (DESIGN CHOICE: notes/assumptions/21.md.) -/
def lowestFit (l : List (Nat × Nat)) (n : Nat) (m : Nat := 65536) : Option Nat :=
  let ok (a : Nat) : Bool := decide (a + n ≤ dieBytes) && l.all fun p => decide (a + n ≤ p.1) || decide (p.1 + p.2 ≤ a)
  (0 :: l.map fun p => alignUp m (p.1 + p.2)).foldl (fun r a =>
    if ok a then (match r with | none => some a | some b => some (min a b)) else r) none

/-- The `k` lowest frames free among ranges. -/
def freeFrames : Nat → List (Nat × Nat) → List Nat
  | 0, _ => []
  | k + 1, l => match lowestFit l 65536 with
    | some a => a :: freeFrames k ((a, 65536) :: l)
    | none => []

/-! ### Tables (R330, R331) -/

/-- The address bits [47:8] of an entry, in place. -/
def pteAddr (e : Nat) : Nat := natBits e 8 40 * 256

/-- The index of an address in a table of a level. -/
def levelIndex (level va : Nat) : Nat := if level = 4 then natBits va 16 5 else natBits va (48 - 9 * level) 9

/-- An 8-byte entry as the hub wrote it. -/
def entryAt (s : State) (d slot : Nat) : Nat := leNat (mread s (dramAddr d slot) 8)

/-- Room for a table of `n` bytes, in the frame that the hub gave to tables last or in a new one, filled with zeros. -/
def newTable (d n : Nat) (s : State) : Option Nat × State :=
  let x := dieOf s d
  let u := alignUp n x.tabUsed
  let put (a used : Nat) (l : List Nat) : Option Nat × State :=
    (some a, dramWrite d a (List.replicate n 0) (modDie s d fun x => { x with tabs := l, tabUsed := used }))
  match x.tabs with
  | f :: l => if u + n ≤ 65536 then put (f + u) (u + n) (f :: l)
    else match lowestFit (takenRanges s d) 65536 with
      | some g => put g n (g :: f :: l)
      | none => (none, s)
  | [] => match lowestFit (takenRanges s d) 65536 with
    | some g => put g n [g]
    | none => (none, s)

/-- The table of level 1 of a translation context, its context entry written where there is none. -/
def rootTable (d tctx tenant : Nat) (s : State) : Option Nat × State :=
  let a := hubBase s d + 16 * tctx
  let e := mread s (dramAddr d a) 16
  if natBit (leAt e 1 1) 0 then (some (leAt e 4 6 % 2 ^ 36 * 4096), s)
  else match newTable d 4096 s with
    | (some t, s) => (some t, dramWrite d a (leBytes 1 0x10 ++ leBytes 1 1 ++ leBytes 2 tenant ++ leBytes 6 (t / 4096) ++ leBytes 6 0) s)
    | (none, s) => (none, s)

/-- Whether an entry names a table. -/
def namesTable (e : Nat) : Bool := natBit e 0 && !natBit e 1

/-- The table that an entry names, made where it names none. -/
def tableUnder (d slot n : Nat) (s : State) : Option Nat × State :=
  let e := entryAt s d slot
  if namesTable e then (some (pteAddr e), s)
  else match newTable d n s with
    | (some t, s) => (some t, dramWrite d slot (leBytes 8 (1 + t + 2 ^ 48 * dieNum s d)) s)
    | (none, s) => (none, s)

/-- The place of an address's entry `k` levels below a table, tables made on the way. -/
def makeSlot (d va : Nat) : Nat → Nat → Nat → State → Option Nat × State
  | 0, level, table, s => (some (table + 8 * levelIndex level va), s)
  | k + 1, level, table, s =>
    match tableUnder d (table + 8 * levelIndex level va) (if level = 3 then 256 else 4096) s with
    | (some t, s) => makeSlot d va k (level + 1) t s
    | (none, s) => (none, s)

/-- The place of an address's entry `k` levels below a table, where the tables on the way exist. -/
def findSlot (s : State) (d va : Nat) : Nat → Nat → Nat → Option Nat
  | 0, level, table => some (table + 8 * levelIndex level va)
  | k + 1, level, table =>
    let e := entryAt s d (table + 8 * levelIndex level va)
    if namesTable e then findSlot s d va k (level + 1) (pteAddr e) else none

/-- A leaf of DRAM (Table 13.4): its rights, its die number and its offset. -/
def leafEntry (r w commit : Bool) (die off : Nat) : Nat := 3 + 4 * b2n r + 8 * b2n w + 64 * b2n commit + off + 2 ^ 48 * die

/-- A leaf written for an address of a translation context and its owner: a page of 64 KiB, or of 2 MiB. -/
def mapLeaf (d : Nat) (ctx : Nat × Nat) (va : Nat) (big : Bool) (e : Nat) (s : State) : State :=
  match rootTable d ctx.1 ctx.2 s with
  | (some t, s) =>
    match makeSlot d va (if big then 2 else 3) 1 t s with
    | (some slot, s) => if entryAt s d slot = e then s else dramWrite d slot (leBytes 8 e) s
    | (none, s) => s
  | (none, s) => s

/-- Pages of 64 KiB mapped one after another from a virtual address, each to an offset of the die's own DRAM. -/
def mapPages (d : Nat) (ctx : Nat × Nat) (va : Nat) (r w commit : Bool) (offs : List Nat) (s : State) : State :=
  offs.zipIdx.foldl (fun s p => mapLeaf d ctx (va + 65536 * p.2) false (leafEntry r w commit (dieNum s d) p.1) s) s

/-- A page unmapped where its entry still names the offset. -/
def unmapPage (d b va off : Nat) (s : State) : State :=
  let e := mread s (dramAddr d (hubBase s d + 16 * b)) 16
  if !natBit (leAt e 1 1) 0 then s
  else match findSlot s d va 3 1 (leAt e 4 6 % 2 ^ 36 * 4096) with
    | some slot => if natBit (entryAt s d slot) 0 && pteAddr (entryAt s d slot) == off then dramWrite d slot (leBytes 8 0) s else s
    | none => s

/-! ### Image parts (R358, R363, R364) -/

/-- The binding in whose translation context a part is mapped now: a part of a base image once its generation is Current, one of a
private object once the whole object has landed, or with EARLY at once. -/
def partBinding (s : State) (p : Part) : Option Nat :=
  if p.gen ≠ 0 then (s.models.gens.find? fun g => g.gen == p.gen && g.st == 3).map fun g => g.binding
  else match tget (fun _ => none) s.models.objs p.obj with
    | some o => if o.early || decide (leAt o.head 4 4 ≤ o.done.length) then some o.binding else none
    | none => none

/-- Every part that is due mapped read-only on its die. -/
def mapParts (s : State) : State :=
  let due := s.models.parts.filter fun p => !p.mapped && dieState s p.die == 2 && (partBinding s p).isSome
  if due.isEmpty then s
  else
    let s := due.foldl (fun s p => match partBinding s p with
      | some b => (partCtxs s b p).foldl (fun s c => mapPages p.die c p.va true false false p.offs s) s
      | none => s) s
    { s with models := { s.models with parts := s.models.parts.map fun p => if due.contains p then { p with mapped := true } else p } }

/-! ### What is to be unmapped (R334, R420) -/

/-- Whether a step of a binding numbered `e` or lower is in flight. -/
def olderInFlight (s : State) (b e : Nat) : Bool := s.serve.steps.any fun t => t.binding == b && decide (t.num ≤ e)

/-- Whether an entry of a range of a binding is still to be cleared, or its die's invalidation under way. -/
def rangePending (s : State) (b base n : Nat) : Bool :=
  dieList.any (fun d => match (dieOf s d).inval with | some i => i.tctx == b | none => false) ||
  s.serve.unmaps.any fun u => u.binding == b && decide (base ≤ 65536 * u.page) && decide (65536 * u.page < base + n)

/-- The entries that the hub clears before it issues an invalidation of pages on a die: those of what has been freed there, once no step in
flight can use them. -/
def unmapFreed (d tctx : Nat) (whole : Bool) (page pages : Nat) (s : State) : State :=
  let hit (u : Unmap) : Bool := u.die == d && u.tctx == tctx && !olderInFlight s u.binding u.waitStep &&
    (whole || (decide (page ≤ u.page) && decide (u.page + u.offs.length ≤ page + pages)))
  let l := s.serve.unmaps.filter hit
  let s := l.foldl (fun s u => u.offs.zipIdx.foldl (fun s p => unmapPage d tctx (65536 * (u.page + p.2)) p.1 s) s) s
  { s with serve := { s.serve with unmaps := s.serve.unmaps.filter fun u => !hit u } }

end Sys2Proof.Machine
end

