-- ==== Sys2Proof/Machine/Net.lean ====
section
/-! DEFINITION. Fabric operations that every requester shares: the routes of the mesh (R308, R310), die numbers (R435), injecting packets (R440), and a write to a global address (R324). -/

namespace Sys2Proof.Machine

/-! ### Routes of the mesh (R308, R310) -/

/-- The neighbour core in a direction: 0 north, 1 east, 2 south, 3 west. -/
def neighbour (c dir : Nat) : Option Nat :=
  match dir with
  | 0 => if c ≥ 12 then some (c - 12) else none
  | 1 => if c % 12 < 11 then some (c + 1) else none
  | 2 => if c < 60 then some (c + 12) else none
  | _ => if c % 12 > 0 then some (c - 1) else none

/-- Where a route stands: router, whether its last move was north or south, whether it has turned from such a move to an east or
west one, whether it has crossed the seam. -/
structure RouteAt where
  r : Nat
  y : Bool
  turned : Bool
  crossed : Bool
  deriving DecidableEq, Repr

/-- The moves that R308 allows over Forwarding routers, in the order in which it prefers them: east, west, north, south. -/
def routeMoves (out : List Nat) (p : RouteAt) : List RouteAt :=
  [1, 3, 0, 2].filterMap fun dir =>
    match neighbour p.r dir with
    | none => none
    | some r =>
      let x := dir % 2 == 1
      let turn := x && p.y
      let cross := halfOf r != halfOf p.r
      if out.contains r || (turn && p.turned) || (cross && p.crossed) then none
      else some ⟨r, !x, p.turned || turn, p.crossed || cross⟩

/-- What routes reach in at most `k` moves more. -/
def reachLoop (out : List Nat) : Nat → List RouteAt → List RouteAt → List RouteAt
  | 0, seen, _ => seen
  | k + 1, seen, l =>
    let new := ((l.flatMap (routeMoves out)).eraseDups).filter fun p => !seen.contains p
    if new.isEmpty then seen else reachLoop out k (seen ++ new) new

/-- The routers that a router has routes to. -/
def reachable (out : List Nat) (r : Nat) : List Nat :=
  if out.contains r then [] else ((reachLoop out 144 [⟨r, false, false, false⟩] [⟨r, false, false, false⟩]).map fun p => p.r).eraseDups

/-- Routes of equal length, the preferred ones first, taken a move further until one ends at router `b`; `k` bounds the moves. -/
def routeLoop (out : List Nat) (b : Nat) : Nat → List (RouteAt × List Nat) → List RouteAt → Option (List Nat)
  | 0, _, _ => none
  | k + 1, front, seen =>
    match front.find? fun p => p.1.r == b with
    | some p => some p.2
    | none =>
      let new := front.flatMap fun p => (routeMoves out p.1).map fun q => (q, p.2 ++ [q.r])
      let new := new.foldl (fun l q => if (seen ++ l.map fun z => z.1).contains q.1 then l else l ++ [q]) ([] : List (RouteAt × List Nat))
      if new.isEmpty then none else routeLoop out b k new (seen ++ new.map fun z => z.1)

/-- The route from a router to another (R308): the routers after the first; none where there is none. (DEDUCED: notes/assumptions/79.md.) -/
def meshRoute (out : List Nat) (a b : Nat) : Option (List Nat) :=
  if out.contains a then none else routeLoop out b 144 [(⟨a, false, false, false⟩, [])] [⟨a, false, false, false⟩]

/-- The virtual channel of each link of a route (R309): 0, and 1 from the turn of a north or south move to an east or west one. -/
def routeChannels : Nat → Bool → Nat → List Nat → List (Nat × Nat)
  | _, _, _, [] => []
  | a, y, ch, r :: l =>
    let x := a / 12 == r / 12
    let ch := if x && y then 1 else ch
    (r, ch) :: routeChannels r (!x) ch l

/-- The ring ports of a die: the routers of rows 0 and 5. -/
def ringPorts : List Nat := (List.range 12) ++ (List.range 12).map fun k => 60 + k

/-- The ring port of a core (R305): the fewest hops away, of equals that of its own column, then a north one. (DEDUCED:
notes/assumptions/79.md.) -/
def ringPort (out : List Nat) (c : Nat) : Option Nat :=
  let l := ringPorts.filterMap fun r => (meshRoute out c r).map fun p => (p.length * 4 + (if r % 12 = c % 12 then 0 else 2) + (if r < 12 then 0 else 1), r)
  (l.foldl (fun (a : Option (Nat × Nat)) p => match a with
    | some q => if p.1 < q.1 then some p else some q
    | none => some p) none).map fun p => p.2

/-- The dimension-ordered route: X first, then Y. -/
def dorPath (a b : Nat) : List Nat :=
  let (r, x) := (a / 12, a % 12)
  let (r', x') := (b / 12, b % 12)
  let span (i j : Nat) : List Nat := (List.range (max i j + 1 - min i j)).map fun k => min i j + k
  (span x x').map (fun k => 12 * r + k) ++ (span r r').map (fun k => 12 * k + x')

/-- Whether the route between two routers is not the dimension-ordered one. -/
def isDetour (out : List Nat) (a b : Nat) : Bool := (dorPath a b).any fun r => out.contains r

/-- Whether any route of a die differs from dimension order (MESH_STAT.DETOUR). -/
def anyDetour (s : State) (d : Nat) : Bool :=
  let out := (dieOf s d).outRouters
  !out.isEmpty && coreList.any fun a => (reachable out a).any fun b =>
    (coreEnabled s d b || decide (b < 12) || decide (60 ≤ b)) && isDetour out a b

/-- The highest occupancy of a row's FIFO after a crossing of the seam (MESH_SEAM): a free value from 1 to 32, and never below what is shown.
(DEDUCED: notes/assumptions/79.md.) -/
def seamPeak (d : Nat) (f : Fld) (s : State) : State :=
  let k := takeNat s
  fset k.2 (dieB d) f (max (fget s (dieB d) f) (1 + k.1 % 32))

/-- The mesh packets of `n` bytes from one core to another counted: flits that cross the seam, and packets off dimension order. -/
def countMesh (d a b n : Nat) (s : State) : State :=
  let flits := (n + 63) / 64
  let cnt (f : Fld) (s : State) : State := odInc (finc s (dieB d) f flits) (0x3070 + d) 5 flits
  let s := if halfOf a < halfOf b then seamPeak d F.MESH_SEAM_PEAK_W2E (cnt F.MESH_CNT_W2E_COUNT s)
    else if halfOf b < halfOf a then seamPeak d F.MESH_SEAM_PEAK_E2W (cnt F.MESH_CNT_E2W_COUNT s) else s
  if isDetour (dieOf s d).outRouters a b then finc s (dieB d) F.MESH_CNT_DETOUR_COUNT ((flits + 63) / 64) else s

/-- The mesh packets of `n` bytes between a core and a ring endpoint counted where their route is off dimension order (R305). -/
def countRing (d c n : Nat) (s : State) : State :=
  let out := (dieOf s d).outRouters
  if out.isEmpty then s
  else
    match ringPort out c with
    | some r => if isDetour out c r then finc s (dieB d) F.MESH_CNT_DETOUR_COUNT ((n + 4095) / 4096) else s
    | none => s

/-! ### Die numbers and packets (R432, R435, R440) -/

/-- The route of a die to a destination in an epoch's table. -/
def routeOf (s : State) (d epoch dst : Nat) : Route := tget (fun _ => Route.none) s.fab.routes ((d * 2 + epoch) * 2 ^ 14 + dst)

/-- Whether no die injects a data packet: in safe and grave state, in Stopped, and in a shut-down (R58, R485, Table 2.8). -/
def linksHeld (s : State) : Bool := decide (4 ≤ modState s) && decide (modState s ≤ 7)

/-- A packet injected at a die (R440): the dimension-order route where DOR_OK is 1, else the escape route; refused where the
destination is unreachable, and data while the links are stopped (Table 19.4). One whose first link is no longer Routed is dropped and counted
(R442). -/
def inject (d : Nat) (x : Packet) (s : State) : Bool × State :=
  if !x.ctl && linksHeld s then (false, s) else
  let e := fget s (dieB d) F.LINK_FAB_EPOCH
  let r := routeOf s d e x.dst
  if !r.reach then (false, finc s (dieB d) F.LINK_CNT_UNREACH_COUNT)
  else
    let s := if r.dorOk then s else finc s (dieB d) F.LINK_CNT_ESC_COUNT
    let s := if x.ctl then s else { s with fab := { s.fab with inj := tmod (fun _ => 0) s.fab.inj d (· + 1) } }
    let p := if r.dorOk then r.dor else r.esc
    let x := { x with src := dieNum s d, epoch := e, esc := !r.dorOk }
    if p < 6 ∧ portClass s d p ≠ 1 then (true, finc s (dieB d) F.LINK_CNT_DROP_COUNT 1 p)
    else (true, sendOn d p { x with vc := nextVc s d p none x } s)

/-- A data packet of a tenant's task. -/
def dataPacket (typ dst tenant tag len addr reqid : Nat) (data : List Byte) : Packet :=
  ⟨0x10, typ, false, 0, false, false, 0, dst, 0, tenant, tag, len, addr, reqid, data, 3⟩

/-! ### Writes to a global address (R324) -/

/-- A list of bytes in pieces of at most 8,192 (R426); `k` bounds the pieces. -/
def pieces : Nat → Nat → List Byte → List (Nat × List Byte)
  | 0, _, _ => []
  | k + 1, a, l => if l.isEmpty then [] else (a, l.take 8192) :: pieces k (a + 8192) (l.drop 8192)

/-- A write of a task on a die to a global address: DRAM of the die itself, a scratchpad of the die itself (the write is then on
its way, in order with those of its source in the same route epoch, R309), or packets to another die. `unit` is the porter channel whose command it is of (0: none). The answer tells whether no packet was
refused. -/
def putGlobal (d src unit tenant tag g : Nat) (l : List Byte) (s : State) : Bool × State :=
  let num := g / 2 ^ 50
  let off := g % 2 ^ 48
  if num = dieNum s d then
    if g / 2 ^ 48 % 4 = 0 then (true, dramWrite d off l s)
    else
      let k := off / 2 ^ 21 % 128
      if 0 < src ∧ src ≤ 576 then
        let a := (src - 1) % 72
        let route := routeChannels a false 0 ((meshRoute (dieOf s d).outRouters a k).getD [])
        let s := countMesh d a k l.length s
        let path := 2 ^ 40 + 1024 * fget s (dieB d) F.MESH_ROUTE_EPOCH + src
        (true, { s with wire := s.wire ++ [⟨path, d, k, tenant, tag, off % 2 ^ 21, l, unit, route⟩] })
      else (true, { s with wire := s.wire ++ [⟨src, d, k, tenant, tag, off % 2 ^ 21, l, unit, []⟩] })
  else
    (pieces (l.length / 8192 + 1) (g % 2 ^ 50) l).foldl (fun r p =>
      let (ok, s) := inject d (dataPacket 1 num tenant tag p.2.length (num * 2 ^ 50 + p.1) unit p.2) r.2
      (r.1 && ok, s)) (true, s)

end Sys2Proof.Machine
end

