-- ==== Sys2Proof/Machine/Power.lean ====
section
/-! DEFINITION. The input stage, the control signals and the reference inputs (spec/02_module_hardware.md, R48–R67). -/

namespace Sys2Proof.Machine

/-! ### Shared operations -/

/-- Whether phase 0x03 of the start-up has completed, so that flash records are written at a shut-down (Table 3.5).
(DESIGN CHOICE: notes/assumptions/31.md.) -/
def flashReady (s : State) : Bool := decide (bootPhase s ≥ 4) && bootPhase s != 9

/-- What a shut-down writes to flash: ledger tail, audit tail, counters and cause; before phase 0x03 has completed the cause
stays in the standby domain (R63, R91, Tables 2.8, 3.5). -/
def shutdownRecords (cause : Nat) (s : State) : State :=
  let s := { s with power := { s.power with cause := cause } }
  if flashReady s then setLastOff cause (flashMfg (lastRecords s)) else s

/-- Whether a hold-up shut-down is under way (HUB_INSTAGE.HOLDUP). -/
def inHoldup (s : State) : Bool := fget s hubB F.HUB_INSTAGE_HOLDUP == 1

/-- A condition that arrives while a higher one holds: recorded, no other effect (R62). -/
def recordOnly (s : State) : State := if s.power.rails then hubNotice 0 s else s

/-- Hold-up shut-down begun (R51–R53, R62, Table 2.8): PG low, no further step, uncommitted steps abandoned, cores stop and links are
quiesced with a clean stop; a stop that STOP_N, safe state or grave state has completed is not repeated. (DESIGN CHOICE:
notes/assumptions/71.md.) -/
def startHoldup (cause : Nat) (s : State) : State :=
  let done := decide (4 ≤ modState s) && decide (modState s ≤ 6)
  let s := fset (fset s hubB F.HUB_INSTAGE_HOLDUP 1) hubB F.HUB_SIGSTAT_PG_OUT 0
  let s := abandonWhere .other (fun _ => true) s
  let s := setModState 7 s
  let s := if done then s else stopPorts (stopIdleCores s)
  { s with power := { s.power with cause := cause } }

/-- Whether every core of the module that runs patterns has stopped. -/
def allStopped (s : State) : Bool :=
  dieList.all fun d => coreList.all fun c => !coreRuns s d c || (coreOf s d c).stopped

/-- Whether the links are quiesced: no packet is on an internal link or held back by a die (R58). (DESIGN CHOICE: notes/assumptions/71.md.) -/
def linksQuiet (s : State) : Bool := s.fab.wire.isEmpty && s.fab.heldTx.isEmpty

/-- Service entered (R80, R58, R204): cores run and settle anew, SAFE_N is released by MOD_STATE. -/
def enterService (s : State) : State :=
  let l := s.regs.filter fun p => decide (2 ^ 32 ≤ p.1) && decide (p.1 % 2 ^ 32 < 72 * 65536) && p.1 % 65536 == 0x2700
  let s := l.foldl (fun s p => fset s (p.1 - 0x2700) F.ASSY_WSTAT_SETTLING 1) s
  setModState 2 (releaseCores s)

/-- From Stopped to Service once STOP_N is released, OD 0x2045 is false and test mode is not in force (R58, R80, R490). -/
def tryService (s : State) : State :=
  if modState s = 4 ∧ fget s hubB F.HUB_SIGSTAT_STOP_IN = 0 ∧ odNum s 0x2045 = 0 ∧ odNum s 0x8021 = 0 then enterService s else s

/-- An endpoint reset (R86, R585): work stops as under an orderly stop without leaving Service, then the endpoint, its BARs,
MSI-X state and rings are reset. -/
def endpointReset (s : State) : State :=
  let s := if modState s = 2 then
      let s := abandonWhere .other (fun _ => true) s
      stopIdleCores { s with sys := { s.sys with epStop := true } }
    else s
  endpointLost s

/-! ### MEN and STOP_N -/

/-- MEN_HIGH_RECOGNISED (R57). -/
def menHigh (s : State) : State := fset s hubB F.HUB_SIGSTAT_MEN_IN 1

/-- MEN_LOW_RECOGNISED (R57, R62, R92): rails off with ledger tail, audit tail and cause written; during a hold-up it is recorded, and the
shut-down under way ends the rails with its own cause. -/
def menLow (s : State) : State :=
  let s := fset s hubB F.HUB_SIGSTAT_MEN_IN 0
  if !s.power.rails then { s with power := { s.power with menLowSeen := true, needToggle := false } }
  else if inHoldup s then recordOnly s
  else
    let s := abandonWhere .other (fun _ => true) s
    let s := fset (setModState 7 s) hubB F.HUB_SIGSTAT_PG_OUT 0
    powerOff (shutdownRecords 1 s)

/-- STOP_N_ASSERTED (R58, R84, R62): in Service an orderly stop begins and uncommitted steps are abandoned with STOPPED
events; in start-up it is only noted; under a higher condition it is only recorded. -/
def stopAsserted (s : State) : State :=
  let s := fset s hubB F.HUB_SIGSTAT_STOP_IN 1
  match modState s with
  | 1 | 4 => s
  | 2 => stopIdleCores (abandonWhere .stop (fun _ => true) (setModState 3 s))
  | _ => recordOnly s

/-- A core reset that leaves the core stopped. -/
def resetStopped (d c : Nat) (s : State) : State := coreReset d c (stopCore d c s)

/-- ORDERLY_STOP_CORE_TIMEOUT (R58): the core stops where it stands and is reset. -/
def orderlyTimeout (d c : Nat) (s : State) : State :=
  if (modState s = 3 ∨ s.sys.epStop) ∧ !(coreOf s d c).stopped then resetStopped d c s else s

/-- STOPPED_ENTRY (R58): with every core stopped and the links quiesced the module is Stopped; with STOP_N released again it returns to
Service. -/
def stoppedEntry (s : State) : State :=
  if modState s = 3 ∧ allStopped s ∧ linksQuiet s then tryService (setModState 4 s) else s

/-- STOP_N_RELEASED (R58). -/
def stopReleased (s : State) : State := tryService (fset s hubB F.HUB_SIGSTAT_STOP_IN 0)

/-! ### The input stage -/

/-- INPUT_LOSS (R51): hold-up shut-down; below 580 V start is no longer permitted, and neither input low nor input high holds
(Table 2.7, R69). -/
def inputLoss (s : State) : State :=
  let s := fset (fset s hubB F.HUB_INSTAGE_VLOW 0) hubB F.HUB_INSTAGE_VHIGH 0
  let s := { s with power := { s.power with startOk := false } }
  if !s.power.rails then s else if inHoldup s then recordOnly s else startHoldup 2 s

/-- HOLDUP_CORE_STOP_TIMEOUT (R52): the core stops where it stands and its engine queues are discarded. -/
def holdupTimeout (d c : Nat) (s : State) : State :=
  if inHoldup s ∧ !(coreOf s d c).stopped then
    modCore s d c fun x => { CoreSt.idle with badLines := x.badLines, poisoned := x.poisoned, upsets := x.upsets, tasks := x.tasks, stopped := true }
  else s

/-- HOLDUP_FLASH_DONE (R52, R54): the tails and the cause are in flash and the rails turn off. -/
def holdupFlash (s : State) : State :=
  if inHoldup s then powerOff (shutdownRecords s.power.cause s) else s

/-- INPUT_OVERVOLTAGE (R48, R51): the input switch opens and the hold-up shut-down begins. The start condition, once met, holds until the
source falls below 580 V, so an overvoltage does not end it (Table 2.7). -/
def inputOver (s : State) : State :=
  let s := { s with power := { s.power with switchClosed := false } }
  if !s.power.rails then s else if inHoldup s then recordOnly s else startHoldup 3 s

/-- INPUT_SWITCH_RECLOSE (R54). -/
def switchReclose (s : State) : State := { s with power := { s.power with switchClosed := true } }

/-- The input voltage as it was measured, in units of 0.25 V (R69, R70). -/
def putVin (vin : Nat) (s : State) : State :=
  fset { s with cap := { s.cap with vSeen := true } } hubB F.HUB_INSTAGE_VIN (min vin 4095)

/-- INPUT_LOW (Table 2.7). -/
def inputLow (vin : Nat) (s : State) : State :=
  let s := fset (putVin vin s) hubB F.HUB_INSTAGE_VLOW 1
  if s.power.rails then hubNotice 0 s else s

/-- INPUT_HIGH (Table 2.7). -/
def inputHigh (vin : Nat) (s : State) : State :=
  let s := fset (putVin vin s) hubB F.HUB_INSTAGE_VHIGH 1
  if s.power.rails then hubNotice 0 s else s

/-- INPUT_RETURN_IN_RANGE (R48): the input-low or input-high condition ends. -/
def inputInRange (vin : Nat) (s : State) : State :=
  fset (fset (putVin vin s) hubB F.HUB_INSTAGE_VLOW 0) hubB F.HUB_INSTAGE_VHIGH 0

/-- START_PERMITTED (Table 2.7). -/
def startPermit (s : State) : State := { s with power := { s.power with startOk := true } }

/-- PRECHARGE_BYPASS_CLOSE (R49). -/
def bypassClose (s : State) : State := fset s hubB F.HUB_INSTAGE_PRECHG_DONE 1

/-- PRECHARGE_REARM (R49). -/
def bypassRearm (s : State) : State := fset s hubB F.HUB_INSTAGE_PRECHG_DONE 0

/-- STANDBY_DOMAIN_POWER_UP (R55). -/
def standbyUp (s : State) : State := { s with power := { s.power with standby := true } }

/-- STANDBY_DOMAIN_LOSS (R54, R55, R59): what the standby domain held is gone, MEN's recognition and the need of its toggle with it; a
cause already in flash is kept. The bus converter does not run below 450 V, so rails that were on are off (R51). (DESIGN CHOICE:
notes/assumptions/71.md.) -/
def standbyLoss (s : State) : State :=
  let s := if s.power.rails then powerOff s else s
  let s := fset s hubB F.HUB_SIGSTAT_MEN_IN 0
  let c := s.flash.lastOff
  let s := odSet (fset s hubB F.HUB_INSTAGE_LASTOFF c) 0x2013 0 c
  { s with power := { s.power with standby := false, cause := c, tripRecs := [], needToggle := false } }

/-- SECONDARY_RAIL_FAULT (R92, R61): F4 0x0B05; the rails turn off. -/
def railFault (s : State) : State := if s.power.rails then fault 0x0B05 hubDie 0 0 s else s

/-- STANDBY_DOMAIN_WATCHDOG (R92): F4 0x0B06; the rails turn off. -/
def standbyWatchdog (s : State) : State := if s.power.rails then fault 0x0B06 hubDie 0 0 s else s

/-- INTERNAL_FUSE_OPEN (R595): the module draws no current, which is a power-off with LASTOFF 0x0. (DESIGN CHOICE: notes/assumptions/71.md.) -/
def fuseOpen (s : State) : State :=
  let s := { s with power := { s.power with fuseOpen := true } }
  if s.power.rails then powerOff (setLastOff 0 (abandonWhere .other (fun _ => true) s)) else s

/-! ### The PCIe pins -/

/-- PERST_N_ASSERTED (R86). -/
def perstOn (s : State) : State := endpointReset (fset s hubB F.HUB_SIGSTAT_PERST_IN 1)

/-- PERST_N_RELEASED (R585): link training starts. -/
def perstOff (s : State) : State := fset s hubB F.HUB_SIGSTAT_PERST_IN 0

/-- D3HOT_ENTRY (R585): an endpoint reset, then only configuration requests. -/
def d3Enter (s : State) : State :=
  let s := endpointReset s
  { s with hif := { s.hif with d3hot := true } }

/-- D0_RETURN (R585): the endpoint comes up as after an FLR. -/
def d0Enter (s : State) : State := { s with hif := { s.hif with d3hot := false } }

/-! ### The reference inputs -/

/-- REFCLK_MEASUREMENT (R65): −5,500 ppm to +1,000 ppm of 100 MHz selects the PCIe reference clock, else the oscillator. -/
def refclk (ppm : Int) (s : State) : State :=
  let ok := b2n (decide (-5500 ≤ ppm) && decide (ppm ≤ 1000))
  fset (fset s hubB F.HUB_SIGSTAT_REFCLK_OK ok) hubB F.HUB_SIGSTAT_REFSEL ok

/-- Whether a measured REF_CAL lies within ±5 mV of its certified value (R67). -/
def refCalOk (v cert : Nat) : Bool :=
  f32Fin v && f32Fin cert && (((f32Dy v).sub (f32Dy cert)).abs.mul ⟨200, 0⟩).le ⟨1, 0⟩

/-- REF_CAL_MEASUREMENT (R67): the measured value in OD 0x2031, validity in REFCAL_OK. -/
def refCal (volts : Nat) (s : State) : State :=
  fset (odSet s 0x2031 0 volts) hubB F.HUB_SIGSTAT_REFCAL_OK (b2n (refCalOk volts (odNum s 0x2030)))

/-! ### The commands -/

/-- MEN_HIGH_RECOGNISED (R57). -/
def execMenHighRecognised (s : State) : Host.Outcome State Fault Refusal := .next (menHigh s)
/-- MEN_LOW_RECOGNISED (R57). -/
def execMenLowRecognised (s : State) : Host.Outcome State Fault Refusal := .next (menLow s)
/-- STOP_N_ASSERTED (R58). -/
def execStopNAsserted (s : State) : Host.Outcome State Fault Refusal := .next (stopAsserted s)
/-- ORDERLY_STOP_CORE_TIMEOUT (R58). -/
def execOrderlyStopCoreTimeout (d c : Nat) (s : State) : Host.Outcome State Fault Refusal := .next (orderlyTimeout d c s)
/-- STOPPED_ENTRY (R58). -/
def execStoppedEntry (s : State) : Host.Outcome State Fault Refusal := .next (stoppedEntry s)
/-- STOP_N_RELEASED (R58). -/
def execStopNReleased (s : State) : Host.Outcome State Fault Refusal := .next (stopReleased s)
/-- INPUT_LOSS (R51). -/
def execInputLoss (s : State) : Host.Outcome State Fault Refusal := .next (inputLoss s)
/-- HOLDUP_CORE_STOP_TIMEOUT (R52). -/
def execHoldupCoreStopTimeout (d c : Nat) (s : State) : Host.Outcome State Fault Refusal := .next (holdupTimeout d c s)
/-- HOLDUP_FLASH_DONE (R52). -/
def execHoldupFlashDone (s : State) : Host.Outcome State Fault Refusal := .next (holdupFlash s)
/-- INPUT_OVERVOLTAGE (R48). -/
def execInputOvervoltage (s : State) : Host.Outcome State Fault Refusal := .next (inputOver s)
/-- INPUT_SWITCH_RECLOSE (R54). -/
def execInputSwitchReclose (s : State) : Host.Outcome State Fault Refusal := .next (switchReclose s)
/-- INPUT_LOW (R48). -/
def execInputLow (vin : Nat) (s : State) : Host.Outcome State Fault Refusal := .next (inputLow vin s)
/-- INPUT_HIGH (R48). -/
def execInputHigh (vin : Nat) (s : State) : Host.Outcome State Fault Refusal := .next (inputHigh vin s)
/-- INPUT_RETURN_IN_RANGE (R48). -/
def execInputReturnInRange (vin : Nat) (s : State) : Host.Outcome State Fault Refusal := .next (inputInRange vin s)
/-- START_PERMITTED (R48). -/
def execStartPermitted (s : State) : Host.Outcome State Fault Refusal := .next (startPermit s)
/-- PRECHARGE_BYPASS_CLOSE (R49). -/
def execPrechargeBypassClose (s : State) : Host.Outcome State Fault Refusal := .next (bypassClose s)
/-- PRECHARGE_REARM (R49). -/
def execPrechargeRearm (s : State) : Host.Outcome State Fault Refusal := .next (bypassRearm s)
/-- STANDBY_DOMAIN_POWER_UP (R55). -/
def execStandbyDomainPowerUp (s : State) : Host.Outcome State Fault Refusal := .next (standbyUp s)
/-- STANDBY_DOMAIN_LOSS (R54). -/
def execStandbyDomainLoss (s : State) : Host.Outcome State Fault Refusal := .next (standbyLoss s)
/-- SECONDARY_RAIL_FAULT (R92). -/
def execSecondaryRailFault (s : State) : Host.Outcome State Fault Refusal := .next (railFault s)
/-- STANDBY_DOMAIN_WATCHDOG (R92). -/
def execStandbyDomainWatchdog (s : State) : Host.Outcome State Fault Refusal := .next (standbyWatchdog s)
/-- INTERNAL_FUSE_OPEN (R595). -/
def execInternalFuseOpen (s : State) : Host.Outcome State Fault Refusal := .next (fuseOpen s)
/-- PERST_N_ASSERTED (R86). -/
def execPerstNAsserted (s : State) : Host.Outcome State Fault Refusal := .next (perstOn s)
/-- PERST_N_RELEASED (R585). -/
def execPerstNReleased (s : State) : Host.Outcome State Fault Refusal := .next (perstOff s)
/-- PCIE_HOT_RESET (R585). -/
def execPcieHotReset (s : State) : Host.Outcome State Fault Refusal := .next (endpointReset s)
/-- FUNCTION_LEVEL_RESET (R585). -/
def execFunctionLevelReset (s : State) : Host.Outcome State Fault Refusal := .next (endpointReset s)
/-- D3HOT_ENTRY (R585). -/
def execD3hotEntry (s : State) : Host.Outcome State Fault Refusal := .next (d3Enter s)
/-- D0_RETURN (R585). -/
def execD0Return (s : State) : Host.Outcome State Fault Refusal := .next (d0Enter s)
/-- REFCLK_MEASUREMENT (R65). -/
def execRefclkMeasurement (ppm : Int) (s : State) : Host.Outcome State Fault Refusal := .next (refclk ppm s)
/-- REF_CAL_MEASUREMENT (R67). -/
def execRefCalMeasurement (volts : Nat) (s : State) : Host.Outcome State Fault Refusal := .next (refCal volts s)

end Sys2Proof.Machine
end

