-- ==== Sys2Proof/Machine/Startup.lean ====
section
/-! DEFINITION. Start-up, module reset and die reset (spec/03_start_up.md, R71–R92). -/

namespace Sys2Proof.Machine

/-! ### Shared operations -/

/-- A phase entered (R72). (DESIGN CHOICE: notes/assumptions/70.md.) -/
def setPhase (v : Nat) (s : State) : State := fset s hubB F.HUB_BOOTSTAT_PHASE v

/-- Whether every die that takes part in the start-up (Starting or Released) meets a condition. -/
def diesReady (s : State) (p : Nat → Bool) : Bool := dieList.all fun d => (decide (dieState s d > 2)) || p d

/-- Whether a start-up is under way: it has ended neither in Service or Stopped nor in safe state, Recovery or a shut-down (R82). -/
def starting (s : State) : Bool := modState s == 1 && s.power.rails

/-- Whether every enabled core of a die has ended its logic self-test (R72). -/
def coresTested (s : State) (d : Nat) : Bool := coreList.all fun c => !coreEnabled s d c || (dieOf s d).tested.contains c

/-- Whether every ADC of a die's enabled lanes has ended its self-calibration (R72). -/
def adcsCalibrated (s : State) (d : Nat) : Bool :=
  coreList.all fun c => !coreEnabled s d c || (List.range 16).all fun l => laneFenced s d c l ||
    (List.range 136).all fun n => (adcOf s d c l n).cal || (adcOf s d c l n).st == 5

/-- Whether a die's memory is filled and its cores and ADCs have ended their tests (phase 0x06; R87 stage 4). -/
def dieFilled (s : State) (d : Nat) : Bool := (dieOf s d).filled && coresTested s d && adcsCalibrated s d

/-- The arrays of a die's enabled cores and unfenced lanes that an assay measures: Serving or Staging (R90, R206). -/
def sweptArrays (s : State) (d : Nat) : List Nat :=
  (s.loom.arrs.filter fun p => decide (p.1 / 36864 = d) && (p.2.st == 2 || p.2.st == 3) && coreEnabled s d (p.1 / 512 % 72) &&
    !laneFenced s d (p.1 / 512 % 72) (p.1 % 16)).map fun p => p.1

/-- Whether the witness sweep of a die has measured every array (Table 3.3; R87 stage 6). -/
def dieSwept (s : State) (d : Nat) : Bool := (sweptArrays s d).all fun k => (accOf s k).evaluated

/-- Whether a die's part of phase 0x07 has ended: reference check, traces, witness sweep, column tables and internal link training
(Tables 3.1, 3.3). -/
def dieAssayed (s : State) (d : Nat) : Bool :=
  (dieOf s d).refDone &&
  (coreList.all fun c => !coreEnabled s d c || (List.range 16).all fun l => laneFenced s d c l || (laneOf s d c l).ran) &&
  dieSwept s d && ((sweptArrays s d).all fun k => !(accOf s k).col.isEmpty) &&
  (List.range 6).all fun p => !internalPort d p || portState s d p != 2

/-- A reaction in force from a setting (R484): 1 FENCE, 2 SAFE. AUTO acts as FENCE with no more non-vacant plan positions
than AUTOLIMIT. `positions` counts them; a module without a plan counts as one. -/
def reactionOf (s : State) (setting : Nat) (positions : Nat) : Nat :=
  match setting with
  | 1 => 1
  | 2 => 2
  | _ => if max 1 positions ≤ odNum s 0x8012 then 1 else 2

/-- The non-vacant positions of the fabric plan (OD 0x6000, R434): entries of 32 bytes after a header of 64, vacant where the
serial number is zero. -/
def planPositions (s : State) : Nat :=
  let b := (odGet s 0x6000 0).bytesOf
  ((List.range ((b.length - 64) / 32)).filter fun i => decide (leNat (sliceBytes b (64 + 32 * i) 16) ≠ 0)).length

/-- The enabled set of a die chosen: the first 64 usable cores in ascending order (R76, R14); cores of the fence record are
marked fenced. -/
def chooseCores (d : Nat) (s : State) : State :=
  let ok := (coreList.filter fun c => coreUsable s d c).take 64
  let s := coreList.foldl (fun s c =>
    let s := fset s (coreB d c) F.CORE_ID_ENABLED (b2n (ok.contains c))
    let s := if s.flash.fences.contains (coreKey d c) then setFenced d c true s else s
    applySettings d c s) s
  if ok.length < 64 then fset s hubB F.HUB_BOOTSTAT_DEGRADED 1 else s

/-- The routers as the fuse map and the field fence record set them (R303, R319), and routes over the others: epoch 0.
(DEDUCED: notes/assumptions/28.md.) -/
def restoreRouters (d : Nat) (s : State) : State :=
  let fuse := coreList.filter fun r => s.flash.routerBad.contains (coreKey d r)
  let field := coreList.filter fun r => s.flash.routerFences.contains (coreKey d r) && !fuse.contains r
  let why := (field.foldl (fun t r => tset (fun _ => (0, 0)) t r (2, 0)) (fuse.foldl (fun t r => tset (fun _ => (0, 0)) t r (1, 0)) []))
  let s := modDie s d fun x => { x with outRouters := fuse ++ field, rWhy := why }
  let s := fset s (dieB d) F.MESH_STAT_ROUT_OUT (fuse ++ field).length
  fset s (dieB d) F.MESH_STAT_DETOUR (b2n (anyDetour s d))

/-- Array descriptors rebuilt after a power cycle (R90): Retired where flash says so, Staging where the placement record names the array,
else Unprogrammed. -/
def rebuildArrays (d : Nat) (s : State) : State :=
  let lo := arrKey d 0 0
  let hi := arrKey (d + 1) 0 0
  let base := s.loom.arrs.filter fun p => decide (p.1 < lo) || decide (hi ≤ p.1)
  let ret := (s.loom.perm.filter fun p => decide (lo ≤ p.1) && decide (p.1 < hi) && p.2.reason != 0).foldl
    (fun t p => tset (fun _ => Arr.blank) t p.1 { Arr.blank with st := 5 }) base
  let named (x : PlacedTile) : Bool :=
    decide (lo ≤ x.array) && decide (x.array < hi) && (tget (fun _ => ArrPerm.none) s.loom.perm x.array).reason == 0
  let t := s.flash.places.foldl (fun ret r => (r.tiles.filter named).foldl
        (fun t x => tset (fun _ => Arr.blank) t x.array { Arr.blank with st := 3, mode := x.mode, wfmt := x.wfmt, gen := r.gen }) ret) ret
  { s with loom := { s.loom with arrs := t } }

/-- A working ADC's place taken by a free spare, unless one stands in already; without one the lane is fenced (R222). -/
def replaceAdc (d c lane n : Nat) (s : State) : State :=
  if (standFor s d c lane n).isSome then s
  else
    match freeSpare s d c lane false with
    | some i => standIn d c lane i n s
    | none => fault 0x0203 d (16 * c + lane) 0 s

/-- The retired-ADC map of management flash put in force on a lane: a retired ADC stays retired across power cycles (R222, R228). -/
def restoreLane (d c lane : Nat) (s : State) : State :=
  let l := (lanePermOf s d c lane).retired
  let s := l.foldl (fun s n => modAdc d c lane n (fun a => { a with st := 5 }) s) s
  (l.filter fun n => decide (n < 128)).foldl (fun s n => replaceAdc d c lane n s) s

/-- The retired ADCs and the last traced traces of a die's lanes, which management flash keeps, read again in phase 0x04 (R228). -/
def restoreLanes (d : Nat) (s : State) : State :=
  (s.loom.lanePerm.filter fun p => decide (p.1 / 16 / 72 = d)).foldl (fun s p => restoreLane d (p.1 / 16 % 72) (p.1 % 16) s) s

/-- Whether an image passes the boot ROM's checks (R74): signature, a major version it implements, security version.
(DESIGN CHOICE: notes/assumptions/9.md.) -/
def imageOk (s : State) (i : ImgSlot) : Bool :=
  i.st == 1 && i.sigOk && i.major == 1 && decide (i.secver ≥ s.flash.antiRollback)

/-- The image slot of a number. -/
def slotOf (s : State) (k : Nat) : ImgSlot := if k = 0 then s.flash.slotA else s.flash.slotB

/-! ### Phases -/

/-- A start-up counted in OD 0x2044 and, as every counter since manufacture, in flash (R94, R557). -/
def countStart (s : State) : State := flashMfg (odInc s 0x2044 0)

/-- START_MOMENT (R71): start-up begins at t0 with phase 0x01 where every start condition holds. -/
def startMoment (s : State) : State :=
  if !s.power.rails && fget s hubB F.HUB_SIGSTAT_MEN_IN == 1 && !s.power.needToggle && s.power.startOk && s.power.standby &&
      s.power.switchClosed && !s.power.fuseOpen && fget s hubB F.HUB_INSTAGE_PRECHG_DONE == 1 then
    let s := { s with power := { s.power with rails := true }, sys := { s.sys with t0 := s.sys.hubTime } }
    countStart (fset (setPhase 1 s) hubB F.HUB_SIGSTAT_MOD_STATE 1)
  else s

/-- RAILS_IN_WINDOW (R72): PG high, phase 0x02. -/
def railsInWindow (s : State) : State :=
  if bootPhase s = 1 ∧ starting s then setPhase 2 (fset s hubB F.HUB_SIGSTAT_PG_OUT 1) else s

/-- BOOT_IMAGE_VERIFY (R74, R75): the named slot accepted, or the other slot tried; one accepted begins
phase 0x03, both failing is Recovery. (DEDUCED: notes/assumptions/30.md.) -/
def bootVerify (slot : Nat) (s : State) : State :=
  let named := odNum s 0x2042
  if bootPhase s = 2 ∧ starting s ∧ s.sys.accepted = none ∧ (slot = named ↔ fget s hubB F.HUB_BOOTSTAT_SLOTFALLBACK = 0) then
    if imageOk s (slotOf s slot) then
      setPhase 3 (fset { s with sys := { s.sys with accepted := some slot } } hubB F.HUB_BOOTSTAT_SLOT slot)
    else if slot = named then fset (notice 0x0B01 hubDie 0 0 s) hubB F.HUB_BOOTSTAT_SLOTFALLBACK 1
    else fault 0x0B02 hubDie 0 0 s
  else s

/-- The records of power-offs that only the standby domain noted (R487): class F4, STARTUP, unacknowledged, no open fault. They are
written when the capture of the start-up ends (R81). (DEDUCED: notes/assumptions/30.md.) -/
def tripRecords (s : State) : State :=
  let t := s.power.tripRecs.foldl (fun s code =>
    addRecord ⟨4, true, false, false, false, false, code, 0, hubDie, hubTime s, 0xFFFFFFFF, 0, 0⟩ s) s
  { t with power := { t.power with tripRecs := [] } }

/-- The cause of such a power-off copied to flash (R92). -/
def tripCause (s : State) : State := if s.power.tripRecs.isEmpty then s else setLastOff s.power.cause s

/-- The ledger copy of the previous power cycle taken into OD 0x8003 and exported (R478, R510). -/
def takeLedgerCopy (s : State) : State :=
  let l := if s.flash.ledgerTaken then [] else s.flash.ledgerCopy
  let s := odPut s 0x8003 0 (.bytes (l.flatMap LedgerRec.bytes))
  let s := l.reverse.foldl (fun s r => formCper true (if r.code / 256 = 9 then r.detail else 0) r s) s
  { s with flash := { s.flash with ledgerTaken := true } }

/-- HUB_FIRMWARE_STARTED (R72, R478, R484, R388, R541): the dictionary is up, the configuration read and CMP begun; phase 0x04 begins.
(DEDUCED: notes/assumptions/30.md.) -/
def firmwareStarted (s : State) : State :=
  if bootPhase s = 3 ∧ starting s then
    let s := takeLedgerCopy (tripCause s)
    let n := planPositions s
    let s := fset s hubB F.FLT_MSTAT_DIEREACT (reactionOf s (odNum s 0x8010) n)
    let s := fset s hubB F.FLT_MSTAT_LINKREACT (reactionOf s (odNum s 0x8011) n)
    let s := fset s hubB F.HUB_BOOTSTAT_REUSE_OK (b2n (!s.flash.places.isEmpty))
    let k := takeRandom s
    let a := takeRandom k.2
    let s := { a.2 with serve := { a.2.serve with cellarKey := k.1, auditKey := a.1 % 2 ^ 64 } }
    let s := { s with sys := { s.sys with configRead := true } }
    announce (setPhase 4 { s with models := { s.models with mirror := odNum s 0x7002 == 1 } })
  else s


/-- A stack filled: the strength of OD 0x5000 + n is in force, and the scrubber starts at 0 with the interval of OD 0x5010 (R328, R340). -/
def stackFilled (d st : Nat) (s : State) : State :=
  let b := dieB d
  setScrubInt d st <| takeStrength d st (fset (fset (fset s b F.MEMC_STAT_FILLING 0 st) b F.MEMC_STAT_FILLED 1 st) b F.MEMC_SCRUBPOS_FOLIO 0 st)

/-- The module's position, the plan hash and the dies' numbers as the plan in force gives them (R434, R435). -/
def applyPlan (s : State) : State :=
  if planned s then
    let g := gridOf s
    let own := (s.flash.serial ++ List.replicate 16 0#8).take 16
    let m := ((List.range g.positions).find? fun m => serialAt (planBytes s) m == own).getD 0
    let s := odPut (odSet s 0x6002 0 m) 0x6001 0 (.bytes (planHash s))
    dieList.foldl (fun s d => fset (fset s (dieB d) F.LINK_FAB_PLANNED 1) (dieB d) F.LINK_FAB_DIE (g.dieAt m d)) s
  else s

/-- Whether the work of the present phase, 0x04 to 0x06, has ended on every die (R72). -/
def phaseEnded (s : State) : Bool :=
  match bootPhase s with
  | 4 => diesReady s fun d => (dieOf s d).fwUp
  | 5 => diesReady s fun d => decide ((dieOf s d).trained.length = 2)
  | 6 => diesReady s (dieFilled s)
  | _ => false

/-- The next phase entered where the present one has ended. Internal links and fabric discovery start with phase 0x07. -/
def nextPhase (s : State) : State :=
  if starting s && phaseEnded s then
    if bootPhase s = 6 then dieList.foldl (fun s d => startPorts d s) (applyPlan (setPhase 7 s)) else setPhase (bootPhase s + 1) s
  else s

/-- Every phase that has ended left: the fence of a die may end more than one. (DESIGN CHOICE: notes/assumptions/72.md.) -/
def nextPhases (s : State) : State := nextPhase (nextPhase (nextPhase s))

/-- DIE_RELEASE (R76, R90): housekeeping firmware runs; the enabled cores are chosen and the descriptors rebuilt. -/
def dieRelease (d : Nat) (s : State) : State :=
  if bootPhase s = 4 ∧ starting s ∧ dieState s d = 1 then
    let s := modTherm d (fun x => { x with rise := List.replicate 2 (odNum s 0x9026) }) s
    let s := modDie (restoreLanes d (rebuildArrays d (chooseCores d (restoreRouters d s)))) d fun x => { x with fwUp := true }
    nextPhases (showRemaps d 1 (showRemaps d 0 s))
  else s

/-- Whether a die is in a stage of a start-up's phase `p`, or of a die reset. -/
def inStage (s : State) (p d : Nat) : Bool := (bootPhase s == p && starting s && decide (dieState s d ≤ 2)) || dieState s d == 3

/-- MEMORY_TRAINING_DONE (R72, R87, Table 3.4): a stack trains, or its die takes the configured reaction. In a die reset the internal
links retrain during the fill that follows. -/
def trainingDone (d stack : Nat) (pass : Bool) (s : State) : State :=
  if inStage s 5 d ∧ stack < 2 then
    if pass then
      let s := fset (fset s (dieB d) F.MEMC_STAT_TRAINED 1 stack) (dieB d) F.MEMC_STAT_FILLING 1 stack
      let s := modDie s d fun x => { x with trained := if x.trained.contains stack then x.trained else x.trained ++ [stack] }
      if dieState s d = 3 ∧ (dieOf s d).trained.length = 2 then startInternal d s else nextPhases s
    else nextPhases (fault 0x0605 d stack 0 s)
  else s

/-- CORE_SELF_TEST_DONE (R76, R87, Table 3.4): a failing core is fenced and the next usable spare enabled. -/
def selfTestDone (d c : Nat) (pass : Bool) (s : State) : State :=
  if inStage s 6 d then
    let s := modDie s d fun x => { x with tested := if x.tested.contains c then x.tested else x.tested ++ [c] }
    nextPhases (if pass then s else fault 0x0103 d c 0 s)
  else s

/-- MEMORY_FILL_DONE (R77): every folio is zero with check symbols; the die's cores are released. -/
def fillDone (d : Nat) (s : State) : State :=
  if inStage s 6 d ∧ (dieOf s d).trained.length = 2 then
    let s := stackFilled d 1 (stackFilled d 0 s)
    let s := modDie (mzero s (dramAddr d 0) (dramAddr d (2 ^ 48))) d fun x => { x with filled := true }
    nextPhases (if dieState s d = 1 then setDieState d 2 s else s)
  else s

/-- A die whose work of phases 0x04 to 0x06 has not ended when their longest time, 800 ms from t0 (Table 3.2), has passed does not reach
phase 0x07 and takes the configured reaction (Table 3.4). (DESIGN CHOICE: notes/assumptions/72.md.) -/
def diesLate (s : State) : State :=
  if starting s ∧ 4 ≤ bootPhase s ∧ bootPhase s ≤ 6 ∧ s.sys.t0 + 800000 < hubTime s then
    nextPhases (dieList.foldl (fun s d =>
      if starting s && decide (dieState s d ≤ 2) && !dieFilled s d then fault 0x0607 d 0 0 s else s) s)
  else s

/-- MODULE_ASSAY_DONE (R78, R80, R81): with every die's assay ended, phase 0x08; sticky bits become records; Service, or Stopped under
STOP_N or OD 0x2045. -/
def assayDone (s : State) : State :=
  if bootPhase s = 7 ∧ starting s ∧ diesReady s (dieAssayed s) then
    let s := fset (setPhase 8 s) hubB F.HUB_BOOTSTAT_STOPPHASE 0
    let s := odSet s 0x2043 0 ((s.sys.hubTime - s.sys.t0) / 1000)
    let s := { s with sys := { s.sys with resetting := false }, care := { s.care with cycle := dieList } }
    let s := setModState 4 s
    tryService (flushSticky (fun _ => true) true false (tripRecords s))
  else s

/-- STARTUP_WATCHDOG_EXPIRY (R83): F3 0x0B04; it does not run in Recovery. -/
def startupWatchdog (s : State) : State :=
  if starting s ∧ bootPhase s ≠ 9 then fault 0x0B04 hubDie 0 0 s else s

/-! ### Resets -/

/-- A module reset carried out (R86): orderly stop, tails, reset, start-up from phase 0x02. -/
def moduleReset (s : State) : State :=
  let s := if modState s = 2 then abandonWhere .stop (fun _ => true) s else abandonWhere .other (fun _ => true) s
  countStart (moduleResetNow (stopIdleCores s))

/-- A write to OD 0x2040 (R86): rejected in F4 and before phase 0x03; one accepted while a module reset runs merges with it.
(DEDUCED: notes/assumptions/29.md.) -/
def writeModuleReset (w : Writer) (v : OdVal) (s : State) : State :=
  let permit := modState s != 6 && decide (bootPhase s ≥ 3)
  let t := odWrite w 0x2040 0 v permit accept s
  if odCheck w 0x2040 0 v permit s = 0 && !s.sys.resetting then respond 0 [] (moduleReset t) else t

/-- A write to OD 0x3010 + n (R87, R84, R484): rejected in start-up; it ends a die fence. A die already resetting goes on. -/
def writeDieReset (w : Writer) (n : Nat) (v : OdVal) (s : State) : State :=
  odWrite w (0x3010 + n) 0 v (modState s != 1 && dieState s n != 5)
    (fun s => (0, if dieState s n = 3 then s else resetDieLinks n s)) s

/-- The re-tempering trigger that R87 and R89 compare a start-up or die-reset deviation with: 0.6 %. -/
def overTrigger (s : State) (key : Nat) : Bool := decide ((accOf s key).dev2 * 10000 > 36 / 100)

/-- A full core assay before a core's tiles serve, where the witness sweep of a die reset found a deviation above 0.6 % (R87). -/
def assayDeviant (d : Nat) (s : State) : State :=
  coreList.foldl (fun s c =>
    if (sweptArrays s d).any fun k => k / 512 % 72 == c && overTrigger s k then askAssay d c 2 s else s) s

/-- DIE_RESET_DONE (R87, R479): its stages ended, the die returns; its settings and assay tables are restored, its external ports start
and its sticky bits are recorded. -/
def dieResetDone (d : Nat) (s : State) : State :=
  if dieState s d = 3 ∧ dieFilled s d ∧ dieSwept s d then
    let s := setDieState d 2 s
    let s := coreList.foldl (fun s c => applySettings d c s) (restoreRouters d (assayDeviant d s))
    flushSticky (fun x => x == d) true false (startExternal d s)
  else s

/-- The bytes of an address range copied to another. -/
def mcopy (lo hi dst : Nat) (s : State) : State :=
  (s.mem.filter fun p => decide (lo ≤ p.1) && decide (p.1 < hi)).foldl (fun s p => mput s (dst + (p.1 - lo)) p.2)
    (mzero s dst (dst + (hi - lo)))

/-- A die's golden slots and parts copied from their mirror on the partner die, and the partner's mirror rebuilt (R359).
(DESIGN CHOICE: notes/assumptions/68.md.) -/
def fromMirror (d : Nat) (s : State) : State :=
  let p := d ^^^ 1
  let s := mcopy (dramAddr p mirrorBase) (dramAddr p (mirrorBase + goldenSize)) (dramAddr d goldenBase) s
  let s := mcopy (dramAddr p goldenBase) (dramAddr p (goldenBase + goldenSize)) (dramAddr d mirrorBase) s
  s.models.parts.foldl (fun s x =>
    if x.die = d then mcopy (dramAddr p x.twin) (dramAddr p (x.twin + x.len)) (dramAddr d x.addr) s
    else if x.die = p then mcopy (dramAddr p x.addr) (dramAddr p (x.addr + x.len)) (dramAddr d x.twin) s else s) s

/-- The folios with errors in a range of a die's DRAM read by the hub: whether none is uncorrectable; those that are wait for their re-read
(R337). -/
def readRegion (d lo hi : Nat) (s : State) : Bool × State :=
  ([0, 1].flatMap fun st => ((memcOf s d st).bad.map fun e => (st, e.phi)).eraseDups).foldl (fun (a : Bool × State) p =>
    let off := 2048 * folioAt p.1 p.2
    if off < lo ∨ hi ≤ off then a
    else match fetchFolio d p.1 p.2 0 a.2 with
      | (some _, s) => (a.1, s)
      | (none, s) => (false, needReread d p.1 p.2 0 .none s)) (true, s)

/-- What restoring a die reads of its partner: the mirror of its golden slots and parts, and the partner's own. -/
def readMirror (d : Nat) (s : State) : Bool × State :=
  let p := d ^^^ 1
  let l := [(mirrorBase, goldenSize), (goldenBase, goldenSize)] ++ s.models.parts.filterMap fun x =>
    if x.die = d then some (x.twin, x.len) else if x.die = p then some (x.addr, x.len) else none
  l.foldl (fun (a : Bool × State) r => let q := readRegion p r.1 (r.1 + r.2) a.2; (a.1 && q.1, q.2)) (true, s)

/-- Whether a die's sections of every generation are resident. -/
def sectionsHeld (s : State) (d : Nat) : Bool := s.models.gens.all fun g => (genSections g d).all fun x => !g.missing.contains x

/-- GOLDEN_RESTORE_DONE (R359, R87): the die's golden slots and parts are restored from their mirror, and steps of the bindings on it
may form again. What is missing waits for the host's PUT. An uncorrectable folio of the mirror leaves it waiting for the re-read, which
may reset the partner. (DESIGN CHOICE: notes/assumptions/68.md.) -/
def goldenRestored (d : Nat) (s : State) : State :=
  let w := (dieOf s d).goldenWait
  if !w || dieState s d != 2 || !sectionsHeld s d then s
  else if s.models.mirror ∧ dieState s (d ^^^ 1) = 2 then
    if rereadDue s (d ^^^ 1) .none then s
    else
      let (ok, s) := readMirror d s
      if ok then modDie (fromMirror d s) d fun x => { x with goldenWait := false } else s
  else modDie s d fun x => { x with goldenWait := false }

/-! ### The commands -/

/-- START_MOMENT (R71). -/
def execStartMoment (s : State) : Host.Outcome State Fault Refusal := .next (startMoment s)
/-- RAILS_IN_WINDOW (R72). -/
def execRailsInWindow (s : State) : Host.Outcome State Fault Refusal := .next (railsInWindow s)
/-- BOOT_IMAGE_VERIFY (R74). -/
def execBootImageVerify (slot : Nat) (s : State) : Host.Outcome State Fault Refusal := .next (bootVerify slot s)
/-- HUB_FIRMWARE_STARTED (R72). -/
def execHubFirmwareStarted (s : State) : Host.Outcome State Fault Refusal := .next (firmwareStarted s)
/-- DIE_RELEASE (R76). -/
def execDieRelease (d : Nat) (s : State) : Host.Outcome State Fault Refusal := .next (dieRelease d s)
/-- MEMORY_TRAINING_DONE (R72). -/
def execMemoryTrainingDone (d stack : Nat) (pass : Bool) (s : State) : Host.Outcome State Fault Refusal :=
  .next (trainingDone d stack pass s)
/-- CORE_SELF_TEST_DONE (R76). -/
def execCoreSelfTestDone (d c : Nat) (pass : Bool) (s : State) : Host.Outcome State Fault Refusal :=
  .next (selfTestDone d c pass s)
/-- MEMORY_FILL_DONE (R77). -/
def execMemoryFillDone (d : Nat) (s : State) : Host.Outcome State Fault Refusal := .next (fillDone d s)
/-- MODULE_ASSAY_DONE (R80). -/
def execModuleAssayDone (s : State) : Host.Outcome State Fault Refusal := .next (assayDone s)
/-- STARTUP_WATCHDOG_EXPIRY (R83). -/
def execStartupWatchdogExpiry (s : State) : Host.Outcome State Fault Refusal := .next (startupWatchdog s)
/-- MODULE_RESET_REQUEST (R86). -/
def execModuleResetRequest (w : Writer) (v : OdVal) (s : State) : Host.Outcome State Fault Refusal :=
  .next (writeModuleReset w v s)
/-- DIE_RESET_REQUEST (R87). -/
def execDieResetRequest (w : Writer) (n : Nat) (v : OdVal) (s : State) : Host.Outcome State Fault Refusal :=
  .next (writeDieReset w n v s)
/-- DIE_RESET_DONE (R87). -/
def execDieResetDone (d : Nat) (s : State) : Host.Outcome State Fault Refusal := .next (dieResetDone d s)
/-- GOLDEN_RESTORE_DONE (R359). -/
def execGoldenRestoreDone (d : Nat) (s : State) : Host.Outcome State Fault Refusal := .next (goldenRestored d s)
/-- DIE_WATCHDOG_EXPIRY (R85). -/
def execDieWatchdogExpiry (d : Nat) (s : State) : Host.Outcome State Fault Refusal := .next (fault 0x0606 d 0 0 s)
/-- HUB_HARDWARE_FAULT (R82). -/
def execHubHardwareFault (s : State) : Host.Outcome State Fault Refusal := .next (fault 0x0B03 hubDie 0 0 s)

end Sys2Proof.Machine
end

