-- ==== Sys2Proof/Machine/FaultCmds.lean ====
section
/-! DEFINITION. Acknowledging, test mode, forcing, unfencing (spec/19_faults.md, R488–R492). -/

namespace Sys2Proof.Machine

/-- Whether a role may acknowledge a class (R488): the operator F0–F2, the others every class. (DEDUCED: notes/assumptions/56.md.) -/
def mayAck (role cls : Nat) : Bool := role != 1 || decide (cls ≤ 2)

/-- ACK set on the records that a condition names, and their open faults closed (R488); an acknowledged 0x0905 frees
its binding (R506). -/
def ackWhere (p : LedgerRec → Bool) (s : State) : State :=
  let hit := (s.faults.modLedger.filter fun r => p r && !r.ack).map fun r => r.seq
  let f (r : LedgerRec) : LedgerRec := if hit.contains r.seq then { r with ack := true } else r
  let s : State := { s with faults := { s.faults with
    modLedger := s.faults.modLedger.map f, dieLedgers := s.faults.dieLedgers.map fun q => (q.1, q.2.map f) } }
  let held := (s.faults.modLedger.filter fun r => hit.contains r.seq && (r.code == 0x0905 || (r.code == 0x0904 && decide (r.cls ≥ 2)))).map fun r => r.inst
  let s := held.foldl (fun s b => modBind s b fun x => { x with auditHeld := false }) s
  closeFaults (fun o => o.seq != 0 && hit.contains o.seq) s

/-- A write to OD 0x8002 (R488). (DEDUCED: notes/assumptions/56.md.) -/
def writeAck (w : Writer) (v : OdVal) (s : State) : State :=
  odWrite w 0x8002 0 v true (fun s =>
    if v.nat = 0xFFFFFFFF then (0, ackWhere (fun r => mayAck w.role r.cls) s)
    else if s.faults.modLedger.any fun r => r.seq == v.nat && !r.ack && mayAck w.role r.cls then
      (0, ackWhere (fun r => r.seq == v.nat) s)
    else (0x06, s)) s

/-- The ladder and the silent-defence checks of every core enabled, as they are outside test mode (R156, R513). -/
def enableChecks (s : State) : State :=
  allCores.foldl (fun s k => fset (fset s (coreB k.1 k.2) F.CORE_LADCTRL_EN 1) (coreB k.1 k.2) F.CORE_SEDCTL_RESID_EN 1) s

/-- A write to OD 0x8020 (R490): 0xA5C3 enters test mode, in Stopped only; 0x5A3C leaves it. -/
def writeTestMode (w : Writer) (v : OdVal) (s : State) : State :=
  odWrite w 0x8020 0 v (v.nat != 0xA5C3 || modState s == 4) (fun s =>
    if v.nat = 0xA5C3 then
      (0, if odNum s 0x8021 = 1 then s else auditTest w (odSet s 0x8021 0 1))
    else (0, if odNum s 0x8021 = 1 then tryService (enableChecks (leaveTest w s)) else s)) s

/-- A write to OD 0x8030 (R491): one occurrence of a code at a die and instance, treated as a real one.
(DEDUCED: notes/assumptions/26.md.) -/
def writeForce (w : Writer) (v : OdVal) (s : State) : State :=
  let x := v.nat
  let code := natBits x 0 16
  let inst := natBits x 16 16
  let die := natBits x 32 4
  odWrite w 0x8030 0 v (odNum s 0x8021 == 1 && (decide (8 ≤ die) || dieState s die != 3)) (fun s =>
    if x ≥ 2 ^ 36 ∨ (8 ≤ die ∧ die ≠ 15) then (0x02, s)
    else
      match sourceOf code with
      | none => (0x06, s)
      | some r => if (r.makerOnly && w.role != 3) || !placeOk code die inst then (0x06, s) else (0, forceFault code die inst s)) s

/-- Whether a core has an unacknowledged record of F2 or above whose INSTANCE names it. -/
def coreUnacked (s : State) (d c : Nat) : Bool :=
  s.faults.modLedger.any fun r => !r.ack && decide (r.cls ≥ 2) && r.die == d && r.inst == c && ([1, 3, 4, 5, 7].contains (r.code / 256) || r.code == 0x0901 || r.code == 0x0902)

/-- A write to OD 0x8040 (Table 19.5): the core is reset, tested and assayed; passing, it leaves the fence record and becomes a
usable spare, failing it raises 0x0103. (DEDUCED: notes/assumptions/56.md.) -/
def writeUnfence (w : Writer) (v : OdVal) (test assay : Bool) (s : State) : State :=
  let d := natBits v.nat 0 3
  let c := natBits v.nat 3 7
  odWrite w 0x8040 0 v (coreFenced s d c && !coreUnacked s d c && dieState s d == 2) (fun s =>
    if v.nat ≥ 2 ^ 10 then (0x02, s)
    else if c ≥ 72 then (0x06, s)
    else
      let s := coreReset d c s
      if test && assay then
        let s := fset (setFenced d c false s) (coreB d c) F.CORE_ID_ENABLED 0
        let keep (l : List Nat) : List Nat := l.filter fun k => k != coreKey d c
        (0, { s with flash := { s.flash with fences := keep s.flash.fences, routerFences := keep s.flash.routerFences } })
      else (0, fault 0x0103 d c 0 s)) s

/-- SAFE_STATE_CORE_STOP_TIMEOUT (R486): a core that has not stopped within 20 µs of safe-state entry is reset. -/
def safeTimeout (d c : Nat) (s : State) : State :=
  if halted s ∧ !(coreOf s d c).stopped then resetStopped d c s else s

/-- FAULT_ACKNOWLEDGE (R488). -/
def execFaultAcknowledge (w : Writer) (v : OdVal) (s : State) : Host.Outcome State Fault Refusal := .next (writeAck w v s)
/-- TEST_MODE_ENTER (R490). -/
def execTestModeEnter (w : Writer) (v : OdVal) (s : State) : Host.Outcome State Fault Refusal := .next (writeTestMode w v s)
/-- TEST_MODE_LEAVE (R490). -/
def execTestModeLeave (w : Writer) (v : OdVal) (s : State) : Host.Outcome State Fault Refusal := .next (writeTestMode w v s)
/-- FAULT_FORCE (R491). -/
def execFaultForce (w : Writer) (v : OdVal) (s : State) : Host.Outcome State Fault Refusal := .next (writeForce w v s)
/-- CORE_UNFENCE (R489). -/
def execCoreUnfence (w : Writer) (v : OdVal) (test assay : Bool) (s : State) : Host.Outcome State Fault Refusal :=
  .next (writeUnfence w v test assay s)
/-- SAFE_STATE_CORE_STOP_TIMEOUT (R486). -/
def execSafeStateCoreStopTimeout (d c : Nat) (s : State) : Host.Outcome State Fault Refusal := .next (safeTimeout d c s)

end Sys2Proof.Machine
end

