-- ==== Sys2Proof/Machine/HostIf.lean ====
section
/-! DEFINITION. The host interface: doorbells, fetching, admin queues, ring commands, interrupts
(spec/24_host_interface.md, R568–R590). -/

namespace Sys2Proof.Machine

/-! ### Doorbells (R572, R573, R584) -/

/-- A doorbell write discarded (R573): HUB_HIFQERR, its cause, an F0 notice, and OD 0x1061.09. (DESIGN CHOICE: notes/assumptions/23.md.) -/
def discardBell (admin : Bool) (q reason v : Nat) (s : State) : State :=
  let s := fset s hubB F.HUB_HIFQERR_QUEUE (if admin then q % 16 else q)
  let s := fset s hubB F.HUB_HIFQERR_ADMIN (b2n admin)
  let s := fset s hubB F.HUB_HIFQERR_REASON reason
  let s := hifCause F.HUB_HIFCAUSE_QERR (fset s hubB F.HUB_HIFQERR_VALID 1)
  odInc (hubNotice v s) 0x1061 9

/-- The entries that a head write releases: from the head to before the named index. -/
def released (r : Ring) (head v : Nat) : Nat := (v + r.size - head) % r.size

/-- A submission tail taken (R572). -/
def takeSqTail (admin : Bool) (q v : Nat) (s : State) : State :=
  if admin then
    let x := adminOf s q
    if !x.enable || x.disabling then discardBell true q 2 v s
    else if v ≥ x.sq.size then discardBell true q 1 v s
    else setAdmin s q { x with sq := { x.sq with tail := v } }
  else
    match ringsOf s q with
    | none => discardBell false q 2 v s
    | some r =>
      if r.clearing.isSome then discardBell false q 2 v s
      else if v ≥ r.sq.size then discardBell false q 1 v s
      else setRings s q (some { r with sq := { r.sq with tail := v } })

/-- A completion head taken: the entries before it are released, and held events follow (R572, R576).
(DEDUCED: notes/assumptions/40.md.) -/
def takeCqHead (admin : Bool) (q v : Nat) (s : State) : State :=
  if admin then
    let x := adminOf s q
    if !x.enable then discardBell true q 2 v s
    else if v ≥ x.cq.size then discardBell true q 1 v s
    else
      let n := released x.cq x.cq.head v
      if n > x.cqEntries.length then discardBell true q 3 v s
      else setAdmin s q { x with cq := { x.cq with head := v }, cqEntries := x.cqEntries.drop n }
  else
    match ringsOf s q with
    | none => discardBell false q 2 v s
    | some r =>
      if r.clearing.isSome then discardBell false q 2 v s
      else if v ≥ r.cq.size then discardBell false q 1 v s
      else
        let n := released r.cq r.cq.head v
        if n > r.cqEntries.length then discardBell false q 3 v s
        else flushHeld 66 q (setRings s q (some { r with cq := { r.cq with head := v }, cqEntries := r.cqEntries.drop n }))

/-- An output head taken: the records before it are released; ignored for admin queues (Table 24.3). -/
def takeOqHead (admin : Bool) (q v : Nat) (s : State) : State :=
  if admin then s
  else
    match ringsOf s q with
    | none => discardBell false q 2 v s
    | some r =>
      if r.clearing.isSome then discardBell false q 2 v s
      else if v ≥ r.oq.size then discardBell false q 1 v s
      else
        let n := released r.oq r.oq.head v
        if n > r.oqEntries.length then discardBell false q 3 v s
        else setRings s q (some { r with oq := { r.oq with head := v }, oqEntries := r.oqEntries.drop n })

/-- The key of a kept doorbell value: queue and which of the three. -/
def bellKey (admin : Bool) (q which : Nat) : Nat := (if admin then 2 ^ 24 else 0) + 4 * q + which

/-- A doorbell served while EN is in force and the module is not halted; else its value is kept (R584, Table 24.14). There are 262,144 serving
queues and 16 admin queues (Table 24.2). -/
def bell (take : Bool → Nat → Nat → State → State) (admin : Bool) (q which v : Nat) (s : State) : State :=
  let v := v % 65536
  if s.hif.d3hot || !s.power.rails || fget s hubB F.HUB_SIGSTAT_PERST_IN == 1 || decide (q ≥ if admin then 16 else 2 ^ 18) then s
  else if ringsLive s then take admin q v s
  else { s with hif := { s.hif with bells := tset (fun _ => 65536) s.hif.bells (bellKey admin q which) v } }

/-- The kept doorbells taken when EN becomes 1. -/
def takeBells (s : State) : State :=
  let l := s.hif.bells
  l.foldl (fun s p =>
    let admin := decide (p.1 ≥ 2 ^ 24)
    let k := p.1 % 2 ^ 24
    match k % 4 with
    | 0 => takeSqTail admin (k / 4) p.2 s
    | 1 => takeCqHead admin (k / 4) p.2 s
    | _ => takeOqHead admin (k / 4) p.2 s) { s with hif := { s.hif with bells := [] } }

/-- A write to HUB_HIFCTRL.EN (R584): kept doorbells take effect, and events held meanwhile are written. After an endpoint reset the cores that its stop had halted run again. -/
def hifEnable (en : Bool) (s : State) : State :=
  let was := fget s hubB F.HUB_HIFCTRL_EN
  let s := fset s hubB F.HUB_HIFCTRL_EN (b2n en)
  if en && was == 0 then
    let s := if s.sys.epStop then
        let s := { s with sys := { s.sys with epStop := false } }
        if modState s = 2 then releaseCores s else s
      else s
    if ringsLive s then (s.hif.rings.map fun p => p.1).foldl (fun s q => flushHeld 66 q s) (takeBells s) else s
  else s

/-! ### Fetching (R575, R578, R579) -/

/-- The reason of Table 24.6 for which a header is rejected; 0 where it passes. The checks stand in R579's order.
(DEDUCED: notes/assumptions/41.md.) -/
def headerReason (admin : Bool) (role : Nat) (e : List Byte) : Nat :=
  let cls := leAt e 1 1
  if leAt e 0 1 / 16 ≠ 1 then 1
  else if cls = 0 ∨ cls > 3 then 2
  else if (cls = 2) = admin then 3
  else if cls = 3 ∧ role ≠ 1 then 4
  else if cls = 1 ∧ role ≠ 1 ∧ ¬ (role = 2 ∧ leAt e 8 1 = 0x08 ∧ leAt e 32 2 = 0) then 4
  else if leAt e 4 4 ≠ 0 then 5
  else 0

/-- Whether the OP of an admin queue's entry is an operation of its class (Tables 14.8, 24.10). -/
def adminOpOk (e : List Byte) : Bool :=
  let op := leAt e 8 1
  decide (1 ≤ op) && decide (op ≤ if leAt e 1 1 = 1 then 0x0A else 0x02)

/-- Whether an admin queue has an entry that the hub can fetch: it serves one command at a time (R575). -/
def adminFetchable (x : AdminQ) : Bool :=
  x.enable && !x.disabling && x.sq.head != x.sq.tail && x.cqReserved == 0 && decide (freeCq x.cq x.cqEntries x.cqReserved > 0)

/-- Whether a serving queue has an entry that the hub can fetch (R575). -/
def queueFetchable (r : Rings) : Bool :=
  r.clearing.isNone && r.sq.head != r.sq.tail && decide (freeCq r.cq r.cqEntries r.cqReserved > 0)

/-- The serving queue whose turn it is (R575): round robin in ascending order, at most 8 entries a visit, and none while an admin queue has an
entry. (DEDUCED: notes/assumptions/41.md.) -/
def fetchTurn (s : State) : Option Nat :=
  if s.hif.admin.any fun p => adminFetchable p.2 then none
  else
    let l := (s.hif.rings.filter fun p => match p.2 with | some r => queueFetchable r | none => false).map fun p => p.1
    if l.contains s.hif.visit.1 && decide (s.hif.visit.2 < 8) then some s.hif.visit.1
    else (l.find? fun q => decide (q > s.hif.visit.1)).orElse fun _ => l.head?

/-- An entry of a queue counted in the hub's visit to it. -/
def countVisit (q : Nat) (s : State) : State :=
  let n := if s.hif.visit.1 = q ∧ s.hif.visit.2 < 8 then s.hif.visit.2 + 1 else 1
  { s with hif := { s.hif with visit := (q, n) } }

/-- SUBMISSION_FETCH (R575): where an entry waits and a completion slot is free, the slot is reserved, the head advances and
the header is checked; a header that fails completes with KIND 0x02, and a reserved OP with its chapter's status.
(DEDUCED: notes/assumptions/41.md.) -/
def fetch (admin : Bool) (q : Nat) (e : List Byte) (s : State) : State :=
  if !ringsLive s then s
  else if admin then
    let x := adminOf s q
    if adminFetchable x then
      let s := setAdmin s q { x with sq := { x.sq with head := (x.sq.head + 1) % x.sq.size }, cqReserved := 1 }
      let r := headerReason true x.role e
      if r ≠ 0 then completeAdmin q 2 r (leAt e 2 2) 0 s
      else if !adminOpOk e then completeAdmin q 1 (if leAt e 1 1 = 1 then 0x10 else 0x01) (leAt e 2 2) 0 s
      else s
    else s
  else
    match ringsOf s q with
    | none => s
    | some r =>
      if queueFetchable r && fetchTurn s == some q then
        let s := setRings (countVisit q s) q (some { r with sq := { r.sq with head := (r.sq.head + 1) % r.sq.size }, cqReserved := r.cqReserved + 1 })
        let k := headerReason false 0 e
        if k ≠ 0 then cqWrite q 2 k (leAt e 2 2) 0 0 true false s
        else if leAt e 8 1 = 0 ∨ leAt e 8 1 > 8 then completeServing q 0x20 (leAt e 2 2) 0 s
        else s
      else s

/-- Whether an entry fetched from an admin queue is this operation's: it passed its header and holds the reserved completion slot (R575).
(DEDUCED: notes/assumptions/41.md.) -/
def adminTook (s : State) (a cls op : Nat) (e : List Byte) : Bool :=
  let x := adminOf s a
  ringsLive s && headerReason true x.role e == 0 && leAt e 1 1 == cls && leAt e 8 1 == op && x.enable && x.cqReserved == 1

/-! ### Ring commands (R582) -/

/-- Whether bytes are all zero. -/
def zeroBytes (e : List Byte) (i n : Nat) : Bool := leAt e i n == 0

/-- A LOG2 in its range. -/
def log2Ok (x : Nat) : Bool := decide (4 ≤ x) && decide (x ≤ 16)

/-- The status of a RINGSET body (Table 24.11). -/
def ringsetStatus (s : State) (e : List Byte) : Nat :=
  let q := leAt e 12 4
  if !(zeroBytes e 9 3 && decide (q < 2 ^ 18) && zeroBytes e 43 1 && decide (leAt e 44 2 < 2048) && decide (leAt e 46 2 < 2048) &&
      zeroBytes e 54 10 && log2Ok (leAt e 40 1) && log2Ok (leAt e 41 1) && log2Ok (leAt e 42 1)) then 1
  else if leAt e 16 8 % 4096 ≠ 0 ∨ leAt e 24 8 % 4096 ≠ 0 ∨ leAt e 32 8 % 4096 ≠ 0 then 2
  else if (ringsOf s q).isSome then 3
  else if leAt e 44 2 = 0 ∨ leAt e 46 2 = 0 then 4
  else 0

/-- RINGSET (R582): the queue's three rings are set. -/
def ringset (a : Nat) (e : List Byte) (s : State) : State :=
  let took := adminTook s a 3 1 e
  let st := ringsetStatus s e
  let s := if took ∧ st = 0 then
      let sq := Ring.fresh (leAt e 16 8) (leAt e 40 1) 0 0 0
      let cq := Ring.fresh (leAt e 24 8) (leAt e 41 1) (leAt e 44 2) (leAt e 48 1) (leAt e 50 2)
      let oq := Ring.fresh (leAt e 32 8) (leAt e 42 1) (leAt e 46 2) (leAt e 49 1) (leAt e 52 2)
      setRings s (leAt e 12 4) (some ⟨sq, cq, [], 0, oq, [], 0, [], 0, none⟩)
    else s
  if took then completeAdmin a 1 st (leAt e 2 2) 0 s else s

/-- Whether a RINGCLR's reserved fields are zero, and its bases 0 (Table 24.10). -/
def ringclrOk (e : List Byte) : Bool :=
  zeroBytes e 9 3 && decide (leAt e 12 4 < 2 ^ 18) && zeroBytes e 16 24 && zeroBytes e 43 1 && decide (leAt e 44 2 < 2048) &&
    decide (leAt e 46 2 < 2048) && zeroBytes e 54 10

/-- RINGCLR (R582): fetching stops; the completion waits for RINGCLR_COMPLETE. (DEDUCED: notes/assumptions/43.md.) -/
def ringclr (a : Nat) (e : List Byte) (s : State) : State :=
  let q := leAt e 12 4
  if !adminTook s a 3 2 e then s
  else if !ringclrOk e then completeAdmin a 1 1 (leAt e 2 2) 0 s
  else
    match ringsOf s q with
    | none => completeAdmin a 1 3 (leAt e 2 2) 0 s
    | some r =>
      if r.clearing.isSome then completeAdmin a 1 3 (leAt e 2 2) 0 s
      else setRings s q (some { r with clearing := some (a, leAt e 2 2) })

/-- Whether a step in flight holds a context of a queue. (DEDUCED: notes/assumptions/43.md.) -/
def queueStepping (s : State) (q : Nat) : Bool := s.serve.steps.any fun t => t.rows.any fun r => r.queue == q

/-- RINGCLR_COMPLETE (R582): with no step of the queue in flight the rings are gone and RINGCLR completes.
(DEDUCED: notes/assumptions/43.md.) -/
def ringclrComplete (q : Nat) (s : State) : State :=
  match ringsOf s q with
  | none => s
  | some r =>
    match r.clearing with
    | none => s
    | some (a, cid) => if queueStepping s q then s else completeAdmin a 1 0 cid 0 (setRings s q none)

/-! ### Admin queues (R581) -/

/-- The status of an admin record write beyond the dictionary's own checks, in R554's order: an enabled record not being cleared
(0x0C), reserved fields, version and alignment (0x02), LOG2 and vector (0x06). -/
def adminStatus (x : AdminQ) (e : List Byte) : Nat :=
  if x.enable ∧ leAt e 1 1 % 2 = 1 then 0x0C
  else if leAt e 0 1 / 16 ≠ 1 ∨ leAt e 1 1 > 1 ∨ leAt e 4 2 ≥ 2048 ∨ leAt e 7 1 ≠ 0 ∨ leAt e 26 2 ≠ 0 ∨ leAt e 30 34 ≠ 0 ∨
      leAt e 8 8 % 4096 ≠ 0 ∨ leAt e 16 8 % 4096 ≠ 0 then 0x02
  else if leAt e 1 1 = 1 ∧ (!log2Ok (leAt e 2 1) ∨ !log2Ok (leAt e 3 1) ∨ leAt e 4 2 = 0) then 0x06
  else 0

/-- An admin queue's record (Table 24.9): as last written, with ENABLE as it stands. (DESIGN CHOICE: notes/assumptions/48.md.) -/
def adminRecord (x : AdminQ) : List Byte :=
  if x.record.isEmpty then leBytes 64 0 else x.record.take 1 ++ leBytes 1 (b2n x.enable) ++ (x.record.drop 2).take 62

/-- A record as the hub keeps it: ROLE and KEYIDX are the hub's. -/
def keepRecord (e : List Byte) (role keyidx : Nat) : List Byte := sliceBytes e 0 28 ++ leBytes 1 role ++ leBytes 1 keyidx ++ leBytes 34 0

/-- ADMIN_QUEUE_RECORD_WRITE (R581): a write of OD 0x1060.02 for the queue that OD 0x1060.01 selects. -/
def writeAdmin (w : Writer) (v : OdVal) (s : State) : State :=
  odWriteOver (.bytes (adminRecord (adminOf s (odNum s 0x1060 1)))) w 0x1060 2 v true (fun s =>
    let a := odNum s 0x1060 1
    let x := adminOf s a
    let e := v.bytesOf
    let st := adminStatus x e
    if st ≠ 0 then (st, s)
    else if leAt e 1 1 = 1 then
      (0, setAdmin s a ⟨true, w.role, w.entry, Ring.fresh (leAt e 8 8) (leAt e 2 1) 0 0 0,
        Ring.fresh (leAt e 16 8) (leAt e 3 1) (leAt e 4 2) (leAt e 6 1) (leAt e 24 2), [], 0, false, keepRecord e w.role w.entry⟩)
    else (0, adminSettle a (setAdmin s a { x with disabling := true, record := keepRecord e 0 0 }))) s

/-! ### Interrupts (R583) -/

/-- INTERRUPT_TIMER_EXPIRY (R583): a ring with an unsignalled entry signals its vector. `which`: 0 completion ring of a
serving queue, 1 its output ring, 2 completion ring of an admin queue. -/
def timerExpiry (which q : Nat) (s : State) : State :=
  match which with
  | 2 =>
    let x := adminOf s q
    if x.enable && decide (x.cq.unsig > 0) && x.cq.itime != 0 then
      sendVec x.cq.vec (setAdmin s q { x with cq := { x.cq with unsig := 0 } })
    else s
  | 1 =>
    match ringsOf s q with
    | none => s
    | some r =>
      if r.oq.unsig > 0 ∧ r.oq.itime ≠ 0 then sendVec r.oq.vec (setRings s q (some { r with oq := { r.oq with unsig := 0 } })) else s
  | _ =>
    match ringsOf s q with
    | none => s
    | some r =>
      if r.cq.unsig > 0 ∧ r.cq.itime ≠ 0 then sendVec r.cq.vec (setRings s q (some { r with cq := { r.cq with unsig := 0 } })) else s

/-- MSIX_UNMASK (R583): a pending vector sends its message when it is unmasked. (DEDUCED: notes/assumptions/42.md.) -/
def msixUnmask (v : Nat) (s : State) : State :=
  let e := tget (fun _ => MsixEnt.off) s.hif.msix v
  let s := { s with hif := { s.hif with msix := tset (fun _ => MsixEnt.off) s.hif.msix v { e with masked := false, pend := false } } }
  if e.pend then sendVec v s else s

/-! ### The commands -/

/-- DOORBELL_SQTAIL (R572). -/
def execDoorbellSqtail (admin : Bool) (q v : Nat) (s : State) : Host.Outcome State Fault Refusal :=
  .next (bell takeSqTail admin q 0 v s)
/-- DOORBELL_CQHEAD (R572). -/
def execDoorbellCqhead (admin : Bool) (q v : Nat) (s : State) : Host.Outcome State Fault Refusal :=
  .next (bell takeCqHead admin q 1 v s)
/-- DOORBELL_OQHEAD (R572). -/
def execDoorbellOqhead (admin : Bool) (q v : Nat) (s : State) : Host.Outcome State Fault Refusal :=
  .next (bell takeOqHead admin q 2 v s)
/-- SUBMISSION_FETCH (R575). -/
def execSubmissionFetch (admin : Bool) (q : Nat) (e : List Byte) (s : State) : Host.Outcome State Fault Refusal :=
  .next (fetch admin q e s)
/-- RINGSET (R582). -/
def execRingset (aq : Nat) (e : List Byte) (s : State) : Host.Outcome State Fault Refusal := .next (ringset aq e s)
/-- RINGCLR (R582). -/
def execRingclr (aq : Nat) (e : List Byte) (s : State) : Host.Outcome State Fault Refusal := .next (ringclr aq e s)
/-- RINGCLR_COMPLETE (R582). -/
def execRingclrComplete (q : Nat) (s : State) : Host.Outcome State Fault Refusal := .next (ringclrComplete q s)
/-- ADMIN_QUEUE_RECORD_WRITE (R581). -/
def execAdminQueueRecordWrite (w : Writer) (v : OdVal) (s : State) : Host.Outcome State Fault Refusal := .next (writeAdmin w v s)
/-- INTERRUPT_TIMER_EXPIRY (R583). -/
def execInterruptTimerExpiry (which q : Nat) (s : State) : Host.Outcome State Fault Refusal := .next (timerExpiry which q s)
/-- MSIX_UNMASK (R583). -/
def execMsixUnmask (vec : Nat) (s : State) : Host.Outcome State Fault Refusal := .next (msixUnmask vec s)
/-- HIF_ENABLE (R584). -/
def execHifEnable (en : Bool) (s : State) : Host.Outcome State Fault Refusal := .next (hifEnable en s)

end Sys2Proof.Machine
end

