-- ==== Sys2Proof/Machine/Image.lean ====
section
/-! DEFINITION. The pattern image: its header, roles, lists and checks, and the neighbours that a role needs
(spec/11_patterns.md R277–R281, R285–R294). -/

namespace Sys2Proof.Machine

/-- The bytes of a command body, by ENGINE (R259); a reserved ENGINE's body is skipped as 16 B. -/
def bodyLen (eng : Nat) : Nat :=
  if eng = 2 ∨ eng = 4 ∨ eng = 5 then 32 else if 6 ≤ eng ∧ eng ≤ 9 then 64 else 16

/-- A length at the next multiple of 16. -/
def up16 (n : Nat) : Nat := (n + 15) / 16 * 16

/-- A role entry (Table 11.2) with the image it lies in. -/
structure RoleEnt where
  block : Nat
  streamLen : Nat
  ngate : Nat
  npatch : Nat
  ndslot : Nat
  adj : Nat
  nidle : Nat
  alt : Nat
  twin : Nat
  pwin : Nat
  swin : Nat
  nmanif : Nat
  deriving DecidableEq, Repr

/-- Roles and alternates of an image (Table 11.1). -/
def patRoles (img : List Byte) : Nat := leAt img 64 2
/-- Alternate roles of an image. -/
def patAlts (img : List Byte) : Nat := leAt img 66 2
/-- MAXPOS of an image. -/
def patMaxpos (img : List Byte) : Nat := leAt img 72 4
/-- The bytes that an image's signature covers. -/
def patSig (img : List Byte) : Nat := leAt img 84 4

/-- Entry `i` of an image's role table. -/
def roleAt (img : List Byte) (i : Nat) : RoleEnt :=
  let o := leAt img 80 4 + 32 * i
  ⟨leAt img o 4, leAt img (o + 4) 4, leAt img (o + 8) 2, leAt img (o + 10) 2, leAt img (o + 12) 1 % 64, leAt img (o + 13) 1 % 16,
   leAt img (o + 14) 2, leAt img (o + 16) 2, leAt img (o + 18) 2 % 512, leAt img (o + 20) 2 % 512, leAt img (o + 22) 2 % 512,
   leAt img (o + 24) 2⟩

/-- Where a role block's gate list starts in the image. -/
def RoleEnt.gateOff (r : RoleEnt) : Nat := up16 (r.block + r.streamLen)
/-- Where its patch list starts. -/
def RoleEnt.patchOff (r : RoleEnt) : Nat := up16 (r.gateOff + 8 * r.ngate)
/-- Where its data-slot definitions start. -/
def RoleEnt.slotOff (r : RoleEnt) : Nat := up16 (r.patchOff + 8 * r.npatch)
/-- Where its idle declarations start. -/
def RoleEnt.idleOff (r : RoleEnt) : Nat := up16 (r.slotOff + 8 * r.ndslot)
/-- Where its manifest starts. -/
def RoleEnt.manifOff (r : RoleEnt) : Nat := up16 (r.idleOff + 8 * r.nidle)
/-- Where its block ends. -/
def RoleEnt.stop (r : RoleEnt) : Nat := r.manifOff + 16 * r.nmanif

/-- The entries of a list of 8-byte entries, as numbers. -/
def list8 (img : List Byte) (off n : Nat) : List Nat := (List.range n).map fun i => leAt img (off + 8 * i) 8

/-- The data slots of a role, as base and length (R285). -/
def roleSlots (img : List Byte) (r : RoleEnt) : List (Nat × Nat) :=
  (list8 img r.slotOff r.ndslot).map fun x => (natBits x 0 21, natBits x 24 21)

/-- The manifest of a role: source VA, offset in the shared window, length. -/
def roleManif (img : List Byte) (r : RoleEnt) : List (Nat × Nat × Nat) :=
  (List.range r.nmanif).map fun i =>
    let o := r.manifOff + 16 * i
    (leAt img o 6, leAt img (o + 8) 4 % 2 ^ 21, leAt img (o + 12) 4)

/-- The idle declarations of a role: FROM, TO, LANES (R292). -/
def roleIdles (img : List Byte) (r : RoleEnt) : List (Nat × Nat × Nat) :=
  (list8 img r.idleOff r.nidle).map fun x => (natBits x 0 20, natBits x 24 20, natBits x 48 16)

/-- Whether numbers never fall. -/
def rising : List Nat → Bool
  | a :: b :: l => decide (a ≤ b) && rising (b :: l)
  | _ => true

/-- Whether the data slots of a role meet R285: aligned, inside the task window, slot 0 the parameter block, none overlapping. -/
def slotsOk (twin : Nat) (l : List (Nat × Nat)) : Bool :=
  l.head? == some (0, 256) &&
  (l.all fun p => p.1 % 16 == 0 && p.2 % 16 == 0 && decide (16 ≤ p.2) && decide (p.2 ≤ 2 ^ 20) && decide (p.1 + p.2 ≤ 4096 * twin)) &&
  (l.zipIdx).all fun p => (l.zipIdx).all fun q =>
    p.2 == q.2 || decide (p.1.1 + p.1.2 ≤ q.1.1) || decide (q.1.1 + q.1.2 ≤ p.1.1)

/-- Whether a gate entry is well formed (R287): FILL 0 for RELEASE, a data slot of the role, an entry of the stream. Its reserved bits are
ignored (R8). -/
def gateOk (r : RoleEnt) (g : Nat) : Bool :=
  (!natBit g 20 || natBits g 32 8 == 0) &&
  decide (natBits g 24 5 < r.ndslot) && decide (g % 2 ^ 20 < r.streamLen)

/-- Whether a patch entry is well formed (R290): bytes wholly inside the body of its entry. Its reserved bits are ignored (R8). -/
def patchOk (img : List Byte) (r : RoleEnt) (g : Nat) : Bool :=
  let e := g % 2 ^ 20
  let by_ := natBits g 20 7
  decide (e < r.streamLen) && decide (16 ≤ by_) &&
  decide (by_ + natBits g 27 3 + 1 ≤ 16 + bodyLen (leAt img (r.block + e + 1) 1))

/-- Whether a role entry and its block are well formed (check 0x09). Reserved fields are ignored (R8). -/
def roleOk (img : List Byte) (i : Nat) : Bool :=
  let r := roleAt img i
  r.block % 16 == 0 && r.streamLen % 16 == 0 && decide (r.ngate ≤ 8192) && decide (r.npatch ≤ 4096) && decide (1 ≤ r.ndslot) &&
  decide (r.ndslot ≤ 32) && decide (r.nmanif ≤ 1024) &&
  decide (1 ≤ r.twin) && decide (r.twin ≤ 256) && decide (1 ≤ r.pwin) && decide (r.pwin ≤ 256) && decide (r.swin ≤ 256) &&
  decide (r.stop ≤ patSig img) &&
  decide (up16 (r.streamLen + 8 * r.ngate) + 8 * r.npatch ≤ 4096 * r.pwin) &&
  (r.alt == 0xFFFF || (decide (patRoles img ≤ r.alt) && decide (r.alt < patRoles img + patAlts img))) &&
  rising ((list8 img r.gateOff r.ngate).map fun g => g % 2 ^ 20) && (list8 img r.gateOff r.ngate).all (gateOk r) &&
  rising ((list8 img r.patchOff r.npatch).map fun g => g % 2 ^ 20) && (list8 img r.patchOff r.npatch).all (patchOk img r) &&
  slotsOk r.twin (roleSlots img r) &&
  (roleManif img r).all fun m => decide (m.2.1 + m.2.2 ≤ 4096 * r.swin)

/-- Whether an image as a whole is well formed: its header's fields in range, all offsets inside it. -/
def imageFormed (img : List Byte) : Bool :=
  leAt img 4 4 == img.length && patSig img + 96 == img.length && patSig img % 16 == 0 && leAt img 80 4 % 16 == 0 &&
  decide (1 ≤ patRoles img) && decide (patRoles img ≤ 512) &&
  decide (patAlts img ≤ 512) && decide (1 ≤ leAt img 68 4) && decide (1 ≤ patMaxpos img) && decide (patMaxpos img ≤ 2 ^ 20) &&
  decide (leAt img 80 4 + 32 * (patRoles img + patAlts img) ≤ patSig img) &&
  (List.range (patRoles img + patAlts img)).all (roleOk img)

/-! ### Roles and cores -/

/-- Whether a core has a usable neighbour in a direction: on its die, enabled, not fenced, its router Forwarding. -/
def usableNeighbour (s : State) (k dir : Nat) : Bool :=
  match neighbour (k % 72) dir with
  | some c => coreEnabled s (k / 72) c && !coreFenced s (k / 72) c && !(dieOf s (k / 72)).outRouters.contains c
  | none => false

/-- Whether a core has a usable neighbour in every direction that a role names (R294). -/
def adjMet (s : State) (r : RoleEnt) (k : Nat) : Bool := (List.range 4).all fun dir => !natBit r.adj dir || usableNeighbour s k dir

/-! ### Alternate roles (R294) -/

/-- The pattern image that a new step of a generation binds for its bucket (R281, R377). -/
def patternFor (s : State) (g : Gen) (maxpos : Nat) : Option (List Byte) :=
  (s.models.pats.find? fun p => p.binding == g.binding && p.gen == g.gen && p.obj == 0 && p.maxpos == maxpos && !p.old).map fun p => p.bytes

/-- The cores of this module that lack a usable neighbour of the role they would run in a step formed now: each runs its role's alternate
in that step (R294). (DEDUCED: notes/assumptions/19.md.) -/
def altCores (s : State) (g : Gen) (maxpos : Nat) : List Nat :=
  match patternFor s g maxpos with
  | none => []
  | some img => (List.range 576).filter fun k =>
    let h := coverSource s (k / 72) (k % 72)
    match (genCores g).idxOf? (coreKey h.1 h.2) with
    | some i => !adjMet s (roleAt img i) k
    | none => false

end Sys2Proof.Machine
end

