-- ==== Sys2Proof/Machine/Philox.lean ====
section
/-! DEFINITION. Philox4x32-10, as its authors published it (R385, R501). -/

namespace Sys2Proof.Machine

/-- Four counter words. -/
structure Quad where
  a : Nat
  b : Nat
  c : Nat
  d : Nat
  deriving DecidableEq, Repr

/-- One round with key words `k0`, `k1`. -/
def philoxRound (k0 k1 : Nat) (q : Quad) : Quad :=
  let p0 := 0xD2511F53 * q.a
  let p1 := 0xCD9E8D57 * q.c
  ⟨(p1 / 2 ^ 32) ^^^ q.b ^^^ k0, p1 % 2 ^ 32, (p0 / 2 ^ 32) ^^^ q.d ^^^ k1, p0 % 2 ^ 32⟩

/-- `n` rounds, the key words advancing by the Weyl constants between rounds. -/
def philoxRounds : Nat → Nat → Nat → Quad → Quad
  | 0, _, _, q => q
  | n + 1, k0, k1, q =>
    philoxRounds n ((k0 + 0x9E3779B9) % 2 ^ 32) ((k1 + 0xBB67AE85) % 2 ^ 32) (philoxRound k0 k1 q)

/-- Word 0 of Philox4x32-10 under a 64-bit key whose low half is key word 0. -/
def philox (key a b c d : Nat) : Nat :=
  (philoxRounds 10 (key % 2 ^ 32) (key / 2 ^ 32 % 2 ^ 32) ⟨a % 2 ^ 32, b % 2 ^ 32, c % 2 ^ 32, d % 2 ^ 32⟩).a

/-- u as a whole number of 2^−24 (R385, R501). (DEDUCED: notes/assumptions/37.md.) -/
def philoxU24 (key a b c d : Nat) : Nat := philox key a b c d / 256

end Sys2Proof.Machine
end

