-- ==== Sys2Proof/Machine/Dispatcher.lean ====
section
/-! DEFINITION. Forming a step (R375–R378, R404, R419, R501). -/

namespace Sys2Proof.Machine

/-! ### Budgets (R465, R466) -/

/-- A tenant. -/
def tenantOf (s : State) (t : Nat) : Option Tenant := tget (fun _ => none) s.tenants t

/-- A tenant stored. -/
def setTenant (s : State) (t : Nat) (x : Option Tenant) : State := { s with tenants := tset (fun _ => none) s.tenants t x }

/-- Whether every limited dimension has a balance above zero. -/
def balancesOk : List Nat → List Int → Bool
  | b :: bs, x :: xs => (b == unlimited || decide (x > 0)) && balancesOk bs xs
  | _, _ => true

/-- Whether a queue may be taken as far as enabling, budgets and rings go (R375, R466). -/
def queueEligible (s : State) (q : Nat) : Bool :=
  let x := queueOf s q
  let r := ringsOf s q
  x.enable && balancesOk x.budget x.bal && r.isSome && !(match r with | some r => r.clearing.isSome | none => false) &&
  (match tenantOf s x.tenant with | some t => t.st == 1 && balancesOk t.budget t.bal | none => false)

/-! ### Generations and buckets (R377) -/

/-- The Current generation of a binding. -/
def currentGen (s : State) (b : Nat) : Option Gen := s.models.gens.find? fun g => g.binding == b && g.st == 3

/-- The generation that a step of a binding binds (R377): the newest that has reached Current here and that every follower has accepted by
SWITCH. -/
def formGen (s : State) (b : Nat) (accepted : List Nat) : Option Gen :=
  if (bindOf s b).modules ≤ 1 then currentGen s b
  else match currentGen s b with
    | some g => if accepted.contains g.gen then some g
      else (s.models.gens.filter fun g => g.binding == b && g.st == 4 && accepted.contains g.gen).getLast?
    | none => none

/-- The smallest MAXPOS that covers positions up to `top`. -/
def bucketFor (s : State) (b g top : Nat) : Option Nat :=
  (buckets s b g).foldl (fun a m => if top ≤ m then (match a with | none => some m | some x => some (min x m)) else a) none

/-! ### What a context takes -/

/-- Whether a context decodes speculatively (R392). -/
def Ctx.speculates (c : Ctx) : Bool := c.appr != 0 && decide (c.kcur > 0)

/-- The prefill chunk of a queue (Table 15.3). -/
def chunkOf (s : State) (q : Nat) : Nat := let k := (queueOf s q).chunk; if k = 0 then odNum s 0x7022 else k

/-- Positions that a context takes: one, KCUR + 1, or a prefill chunk (R375). -/
def ctxCost (s : State) (c : Ctx) : Nat :=
  if c.pending > 0 then min c.pending (chunkOf s c.queue) else if c.speculates then c.kcur + 1 else 1

/-- Whether a chunk is the last of a prompt that draws the first token (R375). -/
def drawsFirst (s : State) (c : Ctx) : Bool := decide (c.pending ≤ chunkOf s c.queue) && c.generate && decide (c.maxnew > 0)

/-- Tokens that a context could yield in the step. -/
def ctxYield (s : State) (c : Ctx) : Nat :=
  if c.pending > 0 then (if drawsFirst s c then 1 else 0)
  else if c.speculates then c.kcur + 1 else 1

/-- The role of its row (Table 15.7). -/
def ctxRole (s : State) (c : Ctx) : Nat :=
  if c.pending > 0 then (if drawsFirst s c then 2 else 1) else if c.speculates then 3 else 0

/-- The Runnable contexts of a queue in the order in which they became Runnable, of one pass (0 decode, 1 prefill). -/
def runnable (s : State) (q pass : Nat) : List Nat :=
  let l := s.serve.ctxs.filter fun p => p.2.st == 2 && p.2.queue == q && decide ((p.2.pending > 0) = (pass = 1))
  (l.mergeSort fun a b => decide (a.2.order ≤ b.2.order)).map fun p => p.1

/-- Whether a queue has a Runnable context. -/
def anyRunnable (s : State) (q : Nat) : Bool := s.serve.ctxs.any fun p => p.2.st == 2 && p.2.queue == q

/-! ### Frames (R404, R419) -/

/-- The page indices that positions F to F + T − 1 enter. -/
def pageRange (f t : Nat) : List Nat := if t = 0 then [] else (List.range ((f + t - 1) / 64 + 1)).filter fun i => decide (f / 64 ≤ i)

/-- The page indices that new positions enter for the first time. -/
def newPages (c : Ctx) (f t : Nat) : List Nat := (pageRange f t).filter fun i => tget (fun _ => 0) c.pages i == 0

/-- The page indices of positions that enter a frame which others share (R419). -/
def sharedPages (s : State) (c : Ctx) (f t : Nat) : List Nat :=
  (pageRange f t).filter fun i => decide ((groupOf s (tget (fun _ => 0) c.pages i - 1)).refs > 1) && tget (fun _ => 0) c.pages i != 0

/-- Whether every new frame of a context's positions can be allocated, those of copies of shared ones included: room in each die's pool,
and its tenant not over quota (R404, R419, R421). (DESIGN CHOICE: notes/assumptions/38.md.) -/
def framesOk (s : State) (b : Nat) (c : Ctx) (t : Nat) : Bool :=
  let l := newPages c c.length t
  let noFrames := match tenantOf s c.tenant with | some t => t.noFrames | none => false
  (l.isEmpty || !noFrames) &&
  dieList.all fun d =>
    decide (heldFrames s d + frameSet s b * ((l ++ sharedPages s c c.length t).filter fun i => pageDie s b i == d).length ≤ poolFrames s d)

/-- A new page group for a page index of a tenant: the lowest free frames of its die, and how many it answers to.
(DESIGN CHOICE: notes/assumptions/38.md.) -/
def newGroup (b tenant i : Nat) (s : State) : Nat × State :=
  let g := s.serve.nextGroup
  let d := pageDie s b i
  let home := if d < 8 then freeFrames (frameSet s b) (takenRanges s d) else []
  let pg : PageGroup := ⟨d, frameSet s b, 1, tenant, b, 0, false, false, home⟩
  (g, { s with serve := { s.serve with nextGroup := g + 1, groups := tset (fun _ => PageGroup.free) s.serve.groups g pg } })

/-- A group's frames mapped at a page index of a range, readable and written by released appends alone (R403). -/
def mapGroup (b kvva i g : Nat) (s : State) : State := mapPages (groupOf s g).die (b, 0) (pageVa s b kvva i) true true true (groupOf s g).home s

/-- A page index of a context given frames, and mapped. (DESIGN CHOICE: notes/assumptions/38.md.) -/
def allocPage (b x : Nat) (i : Nat) (s : State) : State :=
  let (g, s) := newGroup b (ctxOf s x).tenant i s
  mapGroup b (ctxOf s x).kvva i g (modCtx s x fun c => { c with pages := tset (fun _ => 0) c.pages i (g + 1) })

/-- A copy begun for a page that others share (R419). -/
def beginCow (b num x i : Nat) (s : State) : State :=
  let (g, s) := newGroup b (ctxOf s x).tenant i s
  let w : Cow := ⟨x, b, num, i, g, false⟩
  { s with serve := { s.serve with cows := s.serve.cows ++ [w] } }

/-- The frames of a row's new positions allocated, and copies begun where they enter a shared frame. -/
def takeFrames (b num x f t : Nat) (s : State) : State :=
  let c := ctxOf s x
  let s := (newPages c f t).foldl (fun s i => allocPage b x i s) s
  (sharedPages s c f t).foldl (fun s i => beginCow b num x i s) s

/-! ### The algorithm (R376) -/

/-- A step being formed: its rows in order, contexts and positions taken, its bucket, and whether it holds an isolated context
alone. -/
structure Forming where
  rows : List Row
  ctxs : Nat
  pos : Nat
  bucket : Option Nat
  alone : Bool
  deriving DecidableEq, Repr

/-- What is held back for bulk queues while bulk work is Runnable (R376): an eighth, rounded down. -/
def heldBack (bulkWork latency : Bool) (n : Nat) : Nat := if bulkWork && latency then n / 8 else 0

/-- Whether an adapter or apprentice handle is one of a tenant and binding (Table 15.6, status 0x25). -/
def handleOk (s : State) (kind b tenant h : Nat) : Bool :=
  match tget (fun _ => none) s.models.objs h with
  | some o => o.kind == kind && (o.tenant == tenant || o.tenant == 0) && o.binding == b && !o.closing
  | none => false

/-- Whether a context is passed over and keeps its place: its positions need a larger bucket (R377), a frame is wanting (R404),
or it must stand alone and the step holds others (R381). (DEDUCED: notes/assumptions/36.md.) -/
def passedOver (s : State) (b g : Nat) (w : Forming) (c : Ctx) : Bool :=
  let t := ctxCost s c
  let cover := match w.bucket with
    | some m => decide (c.length + t ≤ m)
    | none => (bucketFor s b g (c.length + t)).isSome
  !cover || !framesOk s b c t || (decide (c.retry ≥ odNum s 0x7025) && w.ctxs != 0)

/-- Room for a context in the step: SEQMAX, POSMAX, isolation and ring records (R375, R376). -/
def roomFor (s : State) (latency bulkWork : Bool) (w : Forming) (c : Ctx) : Bool :=
  decide (w.ctxs + 1 ≤ odNum s 0x7020 - heldBack bulkWork latency (odNum s 0x7020)) &&
  decide (w.pos + ctxCost s c ≤ odNum s 0x7021 - heldBack bulkWork latency (odNum s 0x7021)) && !w.alone &&
  (match ringsOf s c.queue with | some r => decide (ctxYield s c ≤ freeOq r) | none => false)

/-- A context taken into the step: Stepping, its ring records reserved, its frames allocated, its row built (R375, R404). -/
def takeCtx (b g num x : Nat) (w : Forming) (s : State) : Forming × State :=
  let c := ctxOf s x
  let t := ctxCost s c
  let role := ctxRole s c
  let y := ctxYield s c
  let inputs := if c.pending > 0 then c.toks.take t else [c.nextTok]
  let kv := c.kvva
  let row : Row := ⟨x, c.tenant, c.queue, role, if role = 3 then c.kcur else 0, c.length, t, kv, inputs, c.seed,
    if c.greedy then 0 else c.temp, c.topp, c.topk, c.adapt, y⟩
  let s := takeFrames b num x c.length t (reserveOq c.queue y s)
  let s := modCtx s x (fun c => { c with st := 3 })
  let q := queueOf s c.queue
  let s := setQueue s c.queue { q with deficit := q.deficit - t }
  let bucket := match w.bucket with | some m => some m | none => bucketFor s b g (c.length + t)
  (⟨w.rows ++ [row], w.ctxs + 1, w.pos + t, bucket, decide (c.retry ≥ odNum s 0x7025)⟩, s)

/-- A context whose adapter has been closed: Idle, with a DROPPED event (Table 15.13). -/
def dropAdapter (x : Nat) (h : Nat) (s : State) : State :=
  let q := (ctxOf s x).queue
  postEvent q ⟨6, 0x25, x, h⟩ (modCtx s x (fun c => { c with st := 1 }))

/-- The contexts of one queue taken, in order, while their cost is within its deficit and there is room. A context that finds no
frame is counted (OD 0x7066). (DEDUCED: notes/assumptions/36.md.) -/
def takeQueue (b g num : Nat) (latency bulkWork : Bool) : List Nat → Forming → State → Forming × State
  | [], w, s => (w, s)
  | x :: l, w, s =>
    let c := ctxOf s x
    match c.adapt.find? fun h => !handleOk s 2 b c.tenant h with
    | some h => takeQueue b g num latency bulkWork l w (dropAdapter x h s)
    | none =>
      let s := if c.appr != 0 && !handleOk s 3 b c.tenant c.appr then modCtx s x (fun c => { c with kcur := 0 }) else s
      let c := ctxOf s x
      let s := if framesOk s b c (ctxCost s c) then s else odInc s 0x7066 0
      if passedOver s b g w c then takeQueue b g num latency bulkWork l w s
      else if ctxCost s c ≤ (queueOf s c.queue).deficit ∧ roomFor s latency bulkWork w c then
        let r := takeCtx b g num x w s
        takeQueue b g num latency bulkWork l r.1 r.2
      else (w, s)

/-- The queues of a binding and class, round robin from a cursor (R376). -/
def roundRobin (s : State) (b : Nat) (bulk : Bool) (cursor : Nat) : List Nat :=
  let l := (s.serve.queues.filter fun p => p.2.binding == b && p.2.bulk == bulk && p.2.enable).map fun p => p.1
  (l.filter fun q => decide (cursor ≤ q)) ++ l.filter fun q => decide (q < cursor)

/-- The queues of one pass and class visited in turn; the cursor answered is the queue after the last one taken from. -/
def visitQueues (b g num pass : Nat) (latency bulkWork : Bool) : List Nat → Nat → Forming → State → Nat × Forming × State
  | [], cur, w, s => (cur, w, s)
  | q :: l, cur, w, s =>
    if queueEligible s q then
      let x := queueOf s q
      let s := setQueue s q { x with deficit := min (x.deficit + 64 * x.weight) 16384 }
      let r := takeQueue b g num latency bulkWork (runnable s q pass) w s
      let s := r.2
      let s := if anyRunnable s q then s else setQueue s q { queueOf s q with deficit := 0 }
      visitQueues b g num pass latency bulkWork l (if r.1.ctxs > w.ctxs then q + 1 else cur) r.1 s
    else
      let x := queueOf s q
      let broke := !balancesOk x.budget x.bal || (match tenantOf s x.tenant with | some t => !balancesOk t.budget t.bal | none => false)
      visitQueues b g num pass latency bulkWork l cur w (if broke then odInc s 0x7083 0 else s)

/-- Whether a binding has Runnable bulk work. -/
def bulkRunnable (s : State) (b : Nat) : Bool :=
  s.serve.queues.any fun p => p.2.binding == b && p.2.bulk && queueEligible s p.1 && anyRunnable s p.1

/-- One pass and class of the visit, its cursor kept in the binding. (DEDUCED: notes/assumptions/36.md.) -/
def visit (b g num pass : Nat) (bulk : Bool) (r : Forming × State) : Forming × State :=
  let i := 2 * pass + b2n bulk
  let cur := (bindOf r.2 b).cursors.getD i 0
  let v := visitQueues b g num pass (!bulk) (bulkRunnable r.2 b) (roundRobin r.2 b bulk cur) cur r.1 r.2
  (v.2.1, modBind v.2.2 b fun x => { x with cursors := x.cursors.set i v.1 })

/-- Whether a core that a binding uses waits for a poisoned line of its shared window to be reloaded (R251). -/
def awaitsReload (s : State) (b : Nat) : Bool :=
  s.cores.any fun p =>
    let d := p.1 / 72
    let c := p.1 % 72
    let lo := fget s (coreB d c) F.CORE_SHWIN_SBASE * 64
    let n := fget s (coreB d c) F.CORE_SHWIN_SLEN * 64
    p.2.poisoned.any (fun k => decide (lo ≤ k) && decide (k < lo + n)) && bindingOnCore s b d c

/-- Whether a fenced core is covered (R482). -/
def coreCovered (s : State) (d c : Nat) : Bool :=
  dieList.any fun h => (List.range 8).any fun k => fget s (dieB h) F.FLT_COVER_VALID k == 1 &&
    fget s (dieB h) F.FLT_COVER_SOURCE k == c && fget s (dieB h) F.FLT_COVER_SDIE k == d &&
    (careOf s h (fget s (dieB h) F.FLT_COVER_HOST k)).assay == 0

/-- Whether a core keeps a generation's steps from forming (R87, R240, R359, R482): its die not in work or without golden copies or
routes, a fenced core without cover, a logic test or full core assay past its deadline. -/
def coreBlocks (s : State) (k : Nat) : Bool :=
  let d := k / 72
  let c := k % 72
  let x := careOf s d c
  dieState s d != 2 || (dieOf s d).goldenWait || fget s (dieB d) F.MESH_ROUTE_BUSY == 1 ||
  (coreFenced s d c && !coreCovered s d c) || decide (x.test ≥ 2) || decide (x.assay ≥ 2)

/-- Whether the placement of a generation keeps its steps from forming. -/
def genBlocked (s : State) (g : Gen) : Bool := (genCores g).any (coreBlocks s) || g.whole.any fun p => (dieOf s p.2).goldenWait

/-- Whether every module of a binding's placement is reachable (R438). -/
def placementReached (s : State) (b : Nat) : Bool :=
  let l := reachOf s (dieNum s 0)
  (List.range (bindOf s b).modules).all fun m => (List.range 8).all fun i => (distOf l ((gridOf s).dieAt (Config.placeModule b m) i)).isSome

/-- Whether every copy that a step waits for has ended, and no entry of its contexts' pages awaits its invalidation (R334, R419). -/
def copiesDone (s : State) (t : Step) : Bool :=
  !s.serve.cows.any fun w => w.binding == t.binding && (w.step == t.num || t.rows.any fun r => r.ctx == w.ctx)

/-- The audit run of a step on a generation of a binding (R502–R504): its rows, read at addresses moved by `shift`; in DIGITAL mode every layer
starts at P16, which the storm cap exempts as a floor (R503). -/
def auditRunOf (s : State) (t : Step) (g : Gen) (shift : Nat) (digital : Bool) : Step :=
  { t with
    num := t.num + runBit, binding := g.binding, gen := g.gen, lead := true, phase := 0, rows := t.rows.map fun r => { r with kvva := r.kvva + shift }
    ready := [], done := [], failed := false, firstFail := 0, ladder := [], results := [], use := [0, 0, 0, 0], tuse := [], kv := []
    levels := if digital then List.replicate g.nl 2 else t.levels, floor := if digital then 2 else t.floor
    audited := false, auditOf := some (t.binding, t.num), analog := false, deg := false, adapt := [], alts := altCores s g t.bucket
    prepared := false, partner := none, unaud := false, maps := [] }

/-- The audit run of a step given to the binding of this module that audits it (R502). -/
def askRun (t : Step) (s : State) : State :=
  match localPartner s t with
  | none => s
  | some p => match currentGen s p with
    | some h => modBind s p fun x => { x with auditDue := x.auditDue ++ [auditRunOf s t h (2 ^ 47) false] }
    | none => s

/-- PREPARE sent for every step that no copy holds back (Table 15.8, R419, R502). -/
def sendPrepares (s : State) : State :=
  let due (t : Step) : Bool := t.lead && t.phase == 0 && !t.prepared && copiesDone s t
  let s := (s.serve.steps.filter due).foldl (fun s t => askRun t (hubMsg t 1 0 s)) s
  { s with serve := { s.serve with steps := s.serve.steps.map fun t => if due t then { t with prepared := true } else t } }

/-- Whether fewer than INFLIGHT steps of a binding are in flight, the audit runs for other placements included (R375, R502). -/
def leadsFewer (s : State) (b : Nat) : Bool :=
  decide ((s.serve.steps.filter fun t => t.binding == b && t.lead && (t.auditOf.all fun p => p.1 != b)).length < odNum s 0x7023)

/-- Whether a step in flight holds the area of another number (R500). -/
def areaBusy (s : State) (b num : Nat) : Bool := s.serve.steps.any fun t => t.binding == b && stepArea b t.num == stepArea b num

/-- Whether a step of a binding and generation may be formed now: Service, the binding led here and not held, no core or die of
it waiting for its golden slots or for new routes (R310), fewer than INFLIGHT steps in flight, none that holds the area of the next
(R500; notes/assumptions/75.md), and with a placement over modules a
fabric that is discovered and whole (R375, R58, R87, R438, R490, R506). -/
def mayForm (s : State) (b : Nat) (g : Gen) : Bool :=
  modState s == 2 && !s.sys.epStop && odNum s 0x8021 == 0 && (bindOf s b).lead && !(bindOf s b).auditHeld &&
  leadsFewer s b && !areaBusy s b ((bindOf s b).stepNum + 1) && !genBlocked s g &&
  !(dieList.any fun d => bindingOnDie s b d && ((dieOf s d).goldenWait || dieState s d != 2 || fget s (dieB d) F.MESH_ROUTE_BUSY == 1)) && !awaitsReload s b &&
  (decide ((bindOf s b).modules ≤ 1) || (fabricState s != 1 && placementReached s b))

/-- Whether the partner of a binding can audit a step of it in the bucket of MAXPOS `k` (R502): a partner on this module has a
Current generation of the same image on dies of its own and a pattern image of that MAXPOS and bucket index, and audits no held binding. What the
hub of another module answers is not restrained here. (DESIGN CHOICE: notes/assumptions/68.md.) -/
def partnerOk (s : State) (b k : Nat) : Bool :=
  let v := odNum s (0x8070 + b) 3
  let p := natBits v 11 2
  let held := (List.range 4).any fun x => (bindOf s x).auditHeld && odNum s (0x8070 + x) 3 == v
  !held && (v % 2 ^ 11 != odNum s 0x6002 ||
    (match currentGen s b, currentGen s p with
     | some g, some h =>
       p != b && g.digest == h.digest && (buckets s p h.gen).contains k && !(bindOf s p).auditHeld &&
         bucketOf s p h.gen ((buckets s b g.gen).filter fun m => decide (m < k)).length == k &&
         (genCores g).all (fun c => !(genCores h).any fun e => e / 72 == c / 72)
     | _, _ => false))

/-- The audit choice of a step (R501): 0 not selected, 1 selected and possible, 2 selected and impossible. A step that re-forms one
whose audit timed out is not audited (R507). (DEDUCED: notes/assumptions/37.md.) -/
def auditChoice (s : State) (b num k : Nat) : Nat :=
  let e := 0x8070 + b
  let frac := odNum s e 1
  let mode := odNum s e 2
  let x := bindOf s b
  let hit := decide (philoxU24 s.serve.auditKey b (num % 2 ^ 32) (num / 2 ^ 32) 0 * 1000 < frac * 2 ^ 24) && decide (frac > 0)
  if !x.auditSkip && (hit || (x.auditRetry && odNum s 0x8062 == 1) || x.auditNext) then
    if mode = 0 then 0
    else if odNum s e 10 ≠ 1 then 2
    else if mode = 1 then (if partnerOk s b k then 1 else 2)
    else 1
  else 0

/-- The level one rung below a promoted one: lean layers go from P16 to P4. -/
def rungDown (lean : Bool) (level : Nat) : Nat := if lean then 0 else level - 1

/-- Whether the next step formed is the trial step of a layer (R148). -/
def Promo.due (p : Promo) : Bool := p.trial && p.tstep.isNone

/-- The start level of each layer (R147–R149): its promotion, one rung lower for its trial step, not below the precision floor. -/
def startLevels (s : State) (b : Nat) : List Nat :=
  (List.range (bindOf s b).nl).map fun l =>
    let p := tget (fun _ => Promo.none) (bindOf s b).promo l
    max (odNum s 0x4106) (if p.due then rungDown ((bindOf s b).wcls == 0) p.level else p.level)

/-- The layers whose trial is due taken to be tried by a step. -/
def noteTrial (num : Nat) (l : Tab Promo) : Tab Promo := l.map fun p => if p.2.due then (p.1, { p.2 with tstep := some num }) else p

/-- A step put in flight (R377): its number, generation, bucket, rows and audit. -/
def launch (b : Nat) (g : Gen) (w : Forming) (confirm : Bool) (s : State) : State :=
  let num := (bindOf s b).stepNum + 1
  let a := if confirm then 1 else auditChoice s b num (w.bucket.getD 0)
  let drafts := w.rows.foldl (fun m r => max m r.drafts) 0
  let levels := if confirm then List.replicate (bindOf s b).nl 2 else startLevels s b
  let e := 0x8070 + b
  let part := if a == 1 && odNum s e 2 == 1 && (!confirm || partnerOk s b (w.bucket.getD 0)) then some (odNum s e 3) else none
  let t : Step := ⟨num, b, g.gen, w.bucket.getD 0, decide (drafts > 0), drafts, true, 0, w.rows, [], [], false, 0, [], [],
    [0, 0, 0, 0], [], [], levels, if confirm then 2 else odNum s 0x4106, a == 1, confirm, none, false, false, [],
    altCores s g (w.bucket.getD 0), false, part, a == 2, []⟩
  let s := { s with serve := { s.serve with steps := s.serve.steps ++ [t] } }
  sendPrepares <| modBind s b fun x => { x with
    stepNum := num, auditNext := false, auditRetry := false, auditSkip := false, confirmRows := []
    promo := if confirm then x.promo else noteTrial num x.promo }

/-! ### Forming an audit run (R502) -/

/-- The dies of a generation's placement. -/
def genDies (g : Gen) : List Nat := dieList.filter fun d => (genCores g).any fun k => k / 72 == d

/-- What the hub maps for an audit run on another placement (R502): a die, a virtual page, and the die number and offset of the frame of the
primary's: KV frames, input tokens with the adapter lists, adapter sections. -/
def runLeaves (s : State) (r : Step) : List (Nat × Nat × Nat × Nat) :=
  match r.auditOf, genOf s r.binding r.gen with
  | some (b, num), some h =>
    if b = r.binding then []
    else if b ≥ 4 then (Config.primaryLeaves r.binding num).flatMap fun x => (genDies h).map fun d => (d, x.1, x.2.1, x.2.2)
    else
      let kv := r.rows.flatMap fun w => (ctxOf s w.ctx).pages.flatMap fun p =>
        let g := groupOf s (p.2 - 1)
        if p.2 = 0 ∨ pageDie s r.binding p.1 ≥ 8 then []
        else g.home.zipIdx.map fun f => (pageDie s r.binding p.1, pageVa s r.binding w.kvva p.1 / 65536 + f.2, dieNum s g.die, f.1)
      let d0 := match (s.serve.steps.find? (isStep b num)).bind (fun t => genOf s b t.gen) with | some g => (genDies g).headD 0 | none => 0
      let toks := (genDies h).flatMap fun d => (List.range 4).map fun i =>
        (d, runTokVa r.binding r.num / 65536 + i, dieNum s d0, stepTableAt s d0 b num + 65536 * i)
      let adapters := (s.models.parts.filter fun p => p.gen == 0 && r.rows.any fun w => w.adapt.contains p.obj).flatMap fun p =>
        p.offs.zipIdx.flatMap fun f => (genDies h).map fun d => (d, p.va / 65536 + f.2, dieNum s p.die, f.1)
      kv ++ toks ++ adapters
  | _, _ => []

/-- An audit run put in flight, with what it reads mapped read-only in its binding's translation context. What lies in its own range of
addresses is unmapped when it ends. (DESIGN CHOICE: notes/assumptions/68.md.) -/
def launchRun (r : Step) (s : State) : State :=
  let l := runLeaves s r
  let s := l.foldl (fun s x => mapLeaf x.1 (r.binding, 0) (65536 * x.2.1) false (leafEntry true false false x.2.2.1 x.2.2.2) s) s
  let maps := (l.filter fun x => decide (x.2.1 ≥ 2 ^ 31)).map fun x => (⟨x.1, r.binding, x.2.1, [x.2.2.2], r.binding, 0, .none⟩ : Unmap)
  sendPrepares { s with serve := { s.serve with steps := s.serve.steps ++ [{ r with maps := maps }] } }

/-- Whether an audit run that waits may be formed now: in Service, its generation Current still and its placement at work, room among the
steps in flight, and its area and addresses free. -/
def mayRun (s : State) (r : Step) : Bool :=
  modState s == 2 && !s.sys.epStop && odNum s 0x8021 == 0 && !(bindOf s r.binding).auditHeld && leadsFewer s r.binding && !areaBusy s r.binding r.num &&
  !(s.serve.unmaps.any fun u => u.binding == r.binding && decide (u.page ≥ 2 ^ 31)) &&
  (match currentGen s r.binding with | some h => h.gen == r.gen && !genBlocked s h | none => false)

/-- STEP_FORMATION (R375, R376): an audit run that waits goes ahead of every queue (R502); else the binding's next step formed from its Runnable contexts; a confirming step takes the rows of
the step it confirms (R506). `accepted` holds the generations that every follower has accepted. Nothing is formed where no context can
be taken. (DESIGN CHOICE: notes/assumptions/68.md.) -/
def formStep (b : Nat) (accepted : List Nat) (s : State) : State :=
  let s := mapParts (stepBoundary b s)
  match (bindOf s b).auditDue.find? (mayRun s), formGen s b accepted with
  | some r, _ => launchRun r (modBind s b fun x => { x with auditDue := x.auditDue.erase r })
  | none, none => s
  | none, some g =>
    if !mayForm s b g then s
    else
      let num := (bindOf s b).stepNum + 1
      let w0 : Forming := ⟨[], 0, 0, none, false⟩
      let again := (bindOf s b).confirmRows.filter fun r => (ctxOf s r.ctx).st == 2
      if again.isEmpty then
        let r := visit b g.gen num 0 false (w0, s)
        let r := visit b g.gen num 0 true r
        let r := visit b g.gen num 1 false r
        let r := visit b g.gen num 1 true r
        if r.1.rows.isEmpty then r.2 else launch b g r.1 false r.2
      else
        let r := again.foldl (fun r x => takeCtx b g.gen num x.ctx r.1 r.2) (w0, s)
        launch b g r.1 true r.2

/-- STEP_FORMATION (R375). -/
def execStepFormation (b : Nat) (accepted : List Nat) (s : State) : Host.Outcome State Fault Refusal := .next (formStep b accepted s)

end Sys2Proof.Machine
end

