-- ==== Sys2Proof/Machine/Walk.lean ====
section
/-! DEFINITION. The page walk (spec/13_memory_and_translation.md R330–R333). -/

namespace Sys2Proof.Machine

/-- What a page walk finds: a leaf (whether of 2 MiB, the entry), or a fault with its kind and level. -/
inductive WalkOut where
  | leaf (big : Bool) (pte : Nat)
  | bad (kind level : Nat)
  deriving DecidableEq, Repr

/-- A leaf checked (Table 13.4): reserved SPACE, bits below its page size, and its offset. -/
def leafCheck (big : Bool) (level e : Nat) : WalkOut :=
  let sp := natBits e 4 2
  let a := pteAddr e
  if sp ≥ 2 ∨ a % (if big then 2 ^ 21 else 2 ^ 16) ≠ 0 then .bad 3 level
  else if sp = 0 ∧ a ≥ 0x1800000000 then .bad 4 level
  else if sp = 1 ∧ a / 2 ^ 21 ≥ 72 then .bad 4 level
  else .leaf big e

/-- The bits of an address that index the tables of levels 1 to `level`. -/
def walkBits (level va : Nat) : Nat := if level = 4 then va / 2 ^ 16 % 2 ^ 32 else natBits va (48 - 9 * level) (9 * level)

/-- How a walk reads DRAM: offset and length; none where a folio is uncorrectable. -/
abbrev DramRead := Nat → Nat → State → Option (List Byte) × State

/-- What a walk comes to: none where a table folio has to be re-read; else its outcome, and the entries of levels 1–3 read on the way. -/
abbrev Walked := Option (WalkOut × List PwcEnt) × State

/-- An entry of a table, from the page-walk cache (levels 1–3) or from DRAM. -/
def tableEntry (rd : DramRead) (d tctx level table va : Nat) (s : State) : Option Nat × State :=
  match (dieOf s d).pwc.find? fun e => e.tctx == tctx && e.level == level && e.vbits == walkBits level va with
  | some e => (some e.pte, s)
  | none => let r := rd (table + 8 * levelIndex level va) 8 s; (r.1.map leNat, r.2)

/-- The walk from a table. -/
def walkFrom (rd : DramRead) (d tctx va : Nat) : Nat → Nat → Nat → State → Walked
  | 0, level, _, s => (some (.bad 3 level, []), s)
  | k + 1, level, table, s =>
    match tableEntry rd d tctx level table va s with
    | (none, s) => (none, s)
    | (some e, s) =>
      let note : List PwcEnt := if level ≤ 3 then [⟨tctx, level, walkBits level va, e⟩] else []
      if !natBit e 0 then (some (.bad 1 level, []), s)
      else if natBit e 1 then (some (if level ≤ 2 then (.bad 3 level, []) else (leafCheck (level == 3) level e, note)), s)
      else if level = 4 then (some (.bad 3 level, []), s)
      else if natBits e 4 2 ≠ 0 ∨ natBit e 6 then (some (.bad 3 level, []), s)
      else if natBits e 48 14 ≠ dieNum s d then (some (.bad 6 level, []), s)
      else
        let r := walkFrom rd d tctx va k (level + 1) (pteAddr e) s
        (r.1.map fun x => (x.1, note ++ x.2), r.2)

/-- A page walk of a task's context (R330, R331). -/
def walkWith (rd : DramRead) (d tctx tenant va : Nat) (s : State) : Walked :=
  match rd (fget s (dieB d) F.MEMC_CTXBASE_BASE * 2 ^ 20 + 16 * tctx) 16 s with
  | (none, s) => (none, s)
  | (some ent, s) =>
    if !natBit (leAt ent 1 1) 0 ∨ leAt ent 2 2 ≠ tenant then (some (.bad 5 0, []), s)
    else walkFrom rd d tctx va 4 1 (leAt ent 4 6 % 2 ^ 36 * 4096) s

/-- What the tables that the hub has written give for an address. -/
def pageWalk (s : State) (d tctx tenant va : Nat) : WalkOut :=
  ((walkWith (fun a n s => (some (mread s (dramAddr d a) n), s)) d tctx tenant va s).1.map fun x => x.1).getD (.bad 1 1)

/-- The page walk of a unit, each table read a folio read (R333). -/
def unitWalk (d c u tctx tenant va : Nat) (s : State) : Walked :=
  walkWith (fun a n s => readDram d a n 3 (.unit d c u) s) d tctx tenant va s

end Sys2Proof.Machine
end

