-- ==== Sys2Proof/Machine/Start.lean ====
section
/-! DEFINITION. What the hub writes at the start of a step: the step table on each die and the parameter block of each task
(spec/15_serving.md R378, R380; spec/11_patterns.md R291). -/

namespace Sys2Proof.Machine

/-- A step in flight. -/
def stepOf (s : State) (b num : Nat) : Option Step := s.serve.steps.find? (isStep b num)

/-! ### The geometry that a step is bound to (R22) -/

/-- The layers of a step's generation. -/
def stepNl (s : State) (t : Step) : Nat :=
  match genOf s t.binding t.gen with | some g => g.nl | none => (bindOf s t.binding).nl

/-- Whether a step's generation is in lean mode. -/
def stepLean (s : State) (t : Step) : Bool :=
  match genOf s t.binding t.gen with | some g => g.mode == 1 | none => (bindOf s t.binding).wcls == 0

/-! ### The step table (Table 15.7) -/

/-- Whether a step is an audit run on another placement than its step's (R502). -/
def Step.remoteRun (t : Step) : Bool := match t.auditOf with | some p => p.1 != t.binding | none => false

/-- A row of the step table: the input tokens of all rows follow the rows, and the adapter lists follow those.
(DESIGN CHOICE: notes/assumptions/75.md.) -/
def stepRow (t : Step) (i : Nat) (r : Row) : List Byte :=
  let before := t.rows.take i
  let toks := (if t.remoteRun then runTokVa t.binding t.num else tableVa t.binding t.num) + 256 + 64 * t.rows.length
  let lists := toks + 4 * (t.rows.map fun r => r.inputs.length).sum
  leBytes 4 r.ctx ++ leBytes 2 r.tenant ++ leBytes 1 (r.role + 4 * r.drafts) ++ leBytes 1 0 ++ leBytes 4 r.first ++ leBytes 4 r.count ++
  leBytes 6 r.kvva ++ leBytes 2 0 ++ leBytes 8 (toks + 4 * (before.map fun r => r.inputs.length).sum) ++ leBytes 8 r.seed ++ leBytes 4 r.temp ++
  leBytes 4 r.topp ++ leBytes 1 r.topk ++ leBytes 1 r.adapt.length ++ leBytes 6 (lists + 4 * (before.map fun r => r.adapt.length).sum) ++ leBytes 8 0

/-- The positions of a step. -/
def stepPositions (t : Step) : Nat := (t.rows.map fun r => r.count).sum

/-- The step table: its header and its rows; after them the input tokens and the adapter handles of the rows, four bytes each; an audit run
on another placement reads those of its step (R502). -/
def stepTable (t : Step) : List Byte :=
  leBytes 1 0x10 ++ leBytes 1 (if t.spec then 2 else 1) ++ leBytes 2 t.rows.length ++ leBytes 4 (stepPositions t) ++ leBytes 1 t.drafts ++
  leBytes 1 t.gen ++ leBytes 6 0 ++ leBytes 64 ((t.levels.take 256).reverse.foldl (fun a l => 4 * a + l % 4) 0) ++ leBytes 176 0 ++
  (t.rows.zipIdx.flatMap fun p => stepRow t p.2 p.1) ++
  if t.remoteRun then [] else (t.rows.flatMap fun r => r.inputs.flatMap (leBytes 4)) ++ t.rows.flatMap fun r => r.adapt.flatMap (leBytes 4)

/-- The step table's address of a slot (R423). -/
def stabVa (s : State) (d c t : Nat) : Nat :=
  fget s (coreB d c) F.ATTN_KVSTAB_VA_LO t + 2 ^ 32 * fget s (coreB d c) F.ATTN_KVSTABH_VA_HI t

/-- A step's signature area mapped write-only on a die (R500): 16 MiB in pages of 2 MiB, in DRAM of die 0 of the module that leads the
run. -/
def mapSignatures (d : Nat) (t : Step) (s : State) : State :=
  let at_ := if t.lead then sigAt s t.binding t.num + 2 ^ 48 * dieNum s 0 else Config.leadSigArea t.binding t.num / 2 ^ 24 * 2 ^ 24
  (List.range 8).foldl (fun s i =>
    mapLeaf d (t.binding, 0) (sigVa t.binding t.num + i * 2 ^ 21) true (leafEntry false true false 0 (at_ + i * 2 ^ 21)) s) s

/-- What the hub writes on a die before the task slots of a step there are made VALID (Table 15.8, R378, R500): the step table, mapped
read-only in the binding's translation context, and the mapping of the signature area. (DESIGN CHOICE: notes/assumptions/75.md.) -/
def writeStepTable (b num d : Nat) (s : State) : State :=
  match stepOf s b num with
  | some t =>
    let a := stepTableAt s d b num
    mapSignatures d t (mapPages d (b, 0) (tableVa b num) true false false ((List.range 4).map fun i => a + 65536 * i) (dramWrite d a (stepTable t) s))
  | none => s

/-! ### The parameter block (Table 15.9) -/

/-- AUDROLE (Table 20.4). -/
def audRole (t : Step) : Nat := if t.confirm then 3 else if t.auditOf.isSome then 2 else b2n t.audited

/-- The parameter block of a task of a step; parameters 5–31 are zero. (DESIGN CHOICE: notes/assumptions/75.md.) -/
def paramBlock (s : State) (d c u : Nat) (t : Step) : List Byte :=
  leBytes 8 (t.num % runBit) ++ leBytes 2 t.rows.length ++ leBytes 2 (stepPositions t - 1) ++ leBytes 1 t.drafts ++ leBytes 1 (bucketIndex s t) ++ leBytes 2 0 ++
  leBytes 8 (stabVa s d c u) ++ leBytes 1 t.gen ++ leBytes 1 t.binding ++ leBytes 6 0 ++
  leBytes 1 (audRole t) ++ leBytes 1 0 ++ leBytes 6 (sigVa t.binding t.num) ++ leBytes 216 0

/-- The task slots of this module that run a step: die, core, slot. -/
def stepSlots (s : State) (b num : Nat) : List (Nat × Nat × Nat) :=
  s.cores.flatMap fun p => (p.2.tasks.filter fun q =>
    q.2.binding == b && q.2.step == num && fget s (coreB (p.1 / 72) (p.1 % 72)) F.CORE_TCTL_VALID q.1 == 1).map fun q => (p.1 / 72, p.1 % 72, q.1)

/-- Whether every core of a step's placement on this module has a VALID slot for it (R291). -/
def slotsValid (s : State) (t : Step) : Bool :=
  match genOf s t.binding t.gen with
  | none => true
  | some g => (genCores g).all fun k => (stepSlots s t.binding t.num).any fun p => coreKey p.1 p.2.1 == k || coverSource s p.1 p.2.1 == (k / 72, k % 72)

/-- READY sent by a follower once the slots of a step are VALID (Table 15.8). -/
def sendReady (b num : Nat) (s : State) : State :=
  match stepOf s b num with
  | some t =>
    if !t.lead && t.phase == 0 && t.ready.isEmpty && slotsValid s t then
      let f (x : Step) : Step := if isStep b num x then { x with ready := [0] } else x
      hubMsg t 2 0 { s with serve := { s.serve with steps := s.serve.steps.map f } }
    else s
  | none => s

/-- The parameter blocks of a step put on their way, each in one piece, to data slot 0 of its task (R291, R380). -/
def writeParams (t : Step) (s : State) : State :=
  (stepSlots s t.binding t.num).foldl (fun s p =>
    let (d, c, u) := p
    let b := coreB d c
    let r : Remote := ⟨2 ^ 21 + coreKey d c, d, c, fget s b F.CORE_TCTL_TENANT u, fget s b F.CORE_TTAG_TASKTAG u, 0, paramBlock s d c u t, 0, []⟩
    { s with wire := s.wire ++ [r] }) s

end Sys2Proof.Machine
end

