-- ==== Sys2Proof/Machine/Units.lean ====
section
/-! DEFINITION. The fixed function units of the vector and attention engines (R263): square root, exponential, power, σ, tanh,
sine and cosine of FP32 operands, each correctly rounded. A function is formed in fixed point to 400 fraction bits, far beyond
what the rounding of any FP32 operand needs, and rounded once. -/

namespace Sys2Proof.Machine

/-- Fraction bits of the fixed-point values below. -/
def uP : Nat := 400

/-- One, in fixed point. -/
def uOne : Int := 2 ^ uP

/-- π to 512 fraction bits. -/
def piBits : Nat :=
  0x3243f6a8885a308d313198a2e03707344a4093822299f31d0082efa98ec4e6c89452821e638d01377be5466cf34e90c6cc0ac29b7c97c50dd3f84d5b5b5470917

/-- ln 2 to 512 fraction bits. -/
def ln2Bits : Nat :=
  0xb17217f7d1cf79abc9e3b39803f2f6af40f343267298b62d8a0d175b8baafa2be7b876206debac98559552fb4afa1b10ed2eae35c138214427573b291169b825

/-- ln 2 in fixed point. -/
def uLn2 : Int := (ln2Bits / 2 ^ (512 - uP) : Nat)

/-- An exact number in fixed point with `p` fraction bits. -/
def Dy.fix (p : Nat) (x : Dy) : Int := (x.scale p).floor

/-- A fixed-point product. -/
def uMul (a b : Int) : Int := a * b / uOne

/-- The sum of `n` terms of a power series: `t` is the present term, `step k t` the next. -/
def series (step : Nat → Int → Int) : Nat → Nat → Int → Int
  | 0, _, _ => 0
  | n + 1, k, t => t + series step n (k + 1) (step k t)

/-- exp of a fixed-point number. -/
def uExp (x : Int) : Dy :=
  let k := x / uLn2
  let r := x - k * uLn2
  ⟨series (fun k t => uMul t r / (k + 1)) 90 0 uOne, k - uP⟩

/-- ln of a positive exact number, in fixed point. -/
def uLn (x : Dy) : Int :=
  let l := Nat.log2 x.m.natAbs
  let f := x.m * 2 ^ uP / 2 ^ l
  let z := (f - uOne) * uOne / (f + uOne)
  let zz := uMul z z
  let s := (series (fun k t => uMul t zz * (2 * k + 1) / (2 * k + 3)) 140 0 z)
  2 * s + ((l : Int) + x.e) * uLn2

/-- Sine and cosine of a small fixed-point number. -/
def uSinCos (r : Int) : Int × Int :=
  let rr := uMul r r
  (series (fun k t => -(uMul t rr) / ((2 * k + 2) * (2 * k + 3))) 60 0 r,
   series (fun k t => -(uMul t rr) / ((2 * k + 1) * (2 * k + 2))) 60 0 uOne)

/-- Sine and cosine of a finite exact number. -/
def dySinCos (x : Dy) : Dy × Dy :=
  let X := x.fix 512
  let h : Int := (piBits / 2 : Nat)
  let k := (2 * X + h) / (2 * h)
  let r := (X - k * h) / 2 ^ (512 - uP)
  let (s, c) := uSinCos r
  let d (v : Int) : Dy := ⟨v, -(uP : Int)⟩
  match (k % 4).toNat with
  | 0 => (d s, d c)
  | 1 => (d c, d (-s))
  | 2 => (d (-s), d (-c))
  | _ => (d (-c), d s)

/-- The integer square root, bit by bit from bit `k`. -/
def isqrtFrom (n : Nat) : Nat → Nat → Nat
  | 0, r => r
  | k + 1, r => let r' := r + 2 ^ k; isqrtFrom n k (if r' * r' ≤ n then r' else r)

/-- The integer square root. -/
def isqrt (n : Nat) : Nat := isqrtFrom n (Nat.log2 n / 2 + 1) 0

/-- FP32 square root. -/
def f32Sqrt (a : Nat) : Nat :=
  match read32 a with
  | .nan => fmt32.nan
  | .inf s => if s then fmt32.nan else fmt32.write (.inf false)
  | .fin s m e =>
    if m = 0 then (if s then 0x80000000 else 0)
    else if s then fmt32.nan
    else
      let k : Nat := 80 + (if (e - 80) % 2 = 0 then 0 else 1)
      let n := m * 2 ^ k
      let r := isqrt n
      fmt32.write (.fin false (2 * r + (if r * r = n then 0 else 1)) ((e - k) / 2 - 1))

/-- FP32 exponential. (DEDUCED: notes/assumptions/11.md.) -/
def f32Exp (a : Nat) : Nat :=
  match read32 a with
  | .nan => fmt32.nan
  | .inf s => if s then 0 else fmt32.write (.inf false)
  | .fin s m e =>
    let x : Dy := ⟨signed s m, e⟩
    if x.lt ⟨-200, 0⟩ then 0
    else if (Dy.mk 200 0).lt x then fmt32.write (.inf false)
    else dyF32 (uExp (x.fix uP))

/-- FP32 logistic function σ. (DEDUCED: notes/assumptions/11.md.) -/
def f32Sigma (a : Nat) : Nat :=
  match read32 a with
  | .nan => fmt32.nan
  | .inf s => if s then 0 else 0x3F800000
  | .fin s m e =>
    let x : Dy := ⟨m, e⟩
    if (Dy.mk 200 0).lt x then (if s then 0 else 0x3F800000)
    else
      let E := (uExp (x.fix uP)).fix uP
      dyF32 ⟨(if s then uOne else E) * 2 ^ 800 / (uOne + E), -800⟩

/-- FP32 hyperbolic tangent. (DEDUCED: notes/assumptions/11.md.) -/
def f32Tanh (a : Nat) : Nat :=
  match read32 a with
  | .nan => fmt32.nan
  | .inf s => if s then 0xBF800000 else 0x3F800000
  | .fin s m e =>
    let x : Dy := ⟨2 * (m : Int), e⟩
    if m = 0 then a
    else if (Dy.mk 200 0).lt x then (if s then 0xBF800000 else 0x3F800000)
    else
      let E := (uExp (x.fix uP)).fix uP
      let q := (E - uOne) * 2 ^ 800 / (E + uOne)
      dyF32 ⟨if s then -q else q, -800⟩

/-- FP32 sine. -/
def f32Sin (a : Nat) : Nat :=
  match read32 a with
  | .fin s m e => if m = 0 then a else dyF32 (dySinCos ⟨signed s m, e⟩).1
  | _ => fmt32.nan

/-- FP32 cosine. -/
def f32Cos (a : Nat) : Nat :=
  match read32 a with
  | .fin s m e => if m = 0 then 0x3F800000 else dyF32 (dySinCos ⟨signed s m, e⟩).2
  | _ => fmt32.nan

/-- FP32 power `a^b` of a base that is not negative; a negative base gives a NaN unless the exponent is zero. -/
def f32Pow (a b : Nat) : Nat :=
  match read32 b with
  | .nan => fmt32.nan
  | .inf t =>
    match read32 a with
    | .nan => fmt32.nan
    | .inf s => if s then fmt32.nan else if t then 0 else fmt32.write (.inf false)
    | .fin s m e =>
      if s && m != 0 then fmt32.nan
      else if Dy.eq ⟨m, e⟩ ⟨1, 0⟩ then 0x3F800000
      else if (Dy.mk (m : Int) e).lt ⟨1, 0⟩ = t then fmt32.write (.inf false) else 0
  | .fin t n f =>
    if n = 0 then 0x3F800000
    else
      match read32 a with
      | .nan => fmt32.nan
      | .inf s => if s then fmt32.nan else if t then 0 else fmt32.write (.inf false)
      | .fin s m e =>
        if m = 0 then (if t then fmt32.write (.inf false) else 0)
        else if s then fmt32.nan
        else
          let y : Dy := ⟨signed t n, f⟩
          let p := (y.mul ⟨uLn ⟨m, e⟩, -(uP : Int)⟩)
          if p.lt ⟨-200, 0⟩ then 0
          else if (Dy.mk 200 0).lt p then fmt32.write (.inf false)
          else dyF32 (uExp (p.fix uP))

end Sys2Proof.Machine
end

