-- ==== Sys2Proof/Machine/Gate.lean ====
section
/-! DEFINITION. Starting a step on every module, the commit gate and what a commit does (R378–R383, R392–R394, R147, R148). -/

namespace Sys2Proof.Machine

/-- A step in flight changed. -/
def modStep (s : State) (b num : Nat) (f : Step → Step) : State :=
  { s with serve := { s.serve with steps := s.serve.steps.map fun t => if isStep b num t then f t else t } }

/-- A step taken out of flight. -/
def retireStep (b num : Nat) (s : State) : State :=
  stepGone b { s with serve := { s.serve with steps := s.serve.steps.filter fun t => !isStep b num t } }

/-! ### PREPARE, READY, GO (R379) -/

/-- The frames that a follower gives to a row's new positions on its own dies, and maps (R369, R404). (DESIGN CHOICE: notes/assumptions/38.md.) -/
def followFrames (b : Nat) (r : Row) (s : State) : State :=
  (pageRange r.first r.count).foldl (fun s i =>
    let d := pageDie s b i
    if d ≥ 8 then s
    else match pageWalk s d b 0 (pageVa s b r.kvva i) with
      | .leaf _ _ => s
      | .bad _ _ =>
        let (g, s) := newGroup b r.tenant i s
        mapGroup b r.kvva i g s) s

/-- HUBMSG_PREPARE: a follower holds the step, with frames for its new positions, and answers READY. To the lead of another placement it asks
for the audit run of another module's step (R502), whose binding is written 4. -/
def prepare (b num gen bucket audrole : Nat) (levels : List Nat) (rows : List Row) (s : State) : State :=
  if (stepOf s b num).isSome then s
  else if (bindOf s b).lead then
    match currentGen s b with
    | some h =>
      let drafts := rows.foldl (fun m r => max m r.drafts) 0
      let t : Step := ⟨num, 4, h.gen, bucketOf s b h.gen bucket, decide (drafts > 0), drafts, true, 0, rows, [], [], false, 0, [], [], [0, 0, 0, 0], [], [],
        levels, if audrole = 3 then 2 else odNum s 0x4106, false, decide (audrole = 3), none, false, false, [], [], false, none, false, []⟩
      if audrole ≥ 2 then modBind s b fun x => { x with auditDue := x.auditDue ++ [auditRunOf s t h (2 ^ 47) false] } else s
    | none => s
  else
    let drafts := rows.foldl (fun m r => max m r.drafts) 0
    let maxpos := bucketOf s b gen bucket
    let t : Step := ⟨num, b, gen, maxpos, decide (drafts > 0), drafts, false, 0, rows, [], [], false, 0, [], [], [0, 0, 0, 0], [], [],
      levels, if audrole ≥ 2 then 2 else odNum s 0x4106, decide (audrole = 1 ∨ audrole = 3) && decide (num < runBit), decide (audrole = 3),
      if num < runBit then none else some (4, num - runBit), false, false, [],
      match genOf s b gen with | some g => altCores s g maxpos | none => [], true, none, false, []⟩
    let s := if num < runBit then rows.foldl (fun s r => followFrames b r s) (mapParts s) else s
    { s with serve := { s.serve with steps := s.serve.steps ++ [t] } }

/-- HUBMSG_READY: a module is ready once its task slots are VALID; this module is module 0 of what it leads. With READY from every module
of the placement the lead writes its parameter blocks and sends GO. -/
def ready (b num m : Nat) (s : State) : State :=
  match stepOf s b num with
  | none => s
  | some t =>
    if t.lead && t.phase == 0 && decide (m < stepModules s t) && copiesDone s t && (m != 0 || slotsValid s t) then
      let r := if t.ready.contains m then t.ready else t.ready ++ [m]
      if r.length ≥ stepModules s t then hubMsg t 3 0 (writeParams t (modStep s b num fun t => { t with ready := r, phase := 1 }))
      else modStep s b num fun t => { t with ready := r }
    else s

/-- HUBMSG_GO: a follower, whose task slots are VALID since it sent READY, writes its parameter blocks. -/
def go (b num : Nat) (s : State) : State :=
  match stepOf s b num with
  | none => s
  | some t => if !t.lead && t.phase == 0 && slotsValid s t then writeParams t (modStep s b num fun t => { t with phase := 1 }) else s

/-- PREPTO_EXPIRY (R379): the step is abandoned before any task has run; RETRY is not counted. -/
def prepTo (b num : Nat) (s : State) : State :=
  match stepOf s b num with
  | none => s
  | some t => if t.lead && t.phase == 0 then abandonStep .free t s else s

/-! ### Releasing appends (R269, R381) -/

/-- The global ranges that SCATTER descriptors at work name on this module (R297): each element's address as its context maps it. -/
def scatterRanges (s : State) : List (Nat × Nat) :=
  s.cores.flatMap fun p => p.2.runs.flatMap fun u => match u.2 with
    | some r =>
      let d := p.1 / 72
      let b := coreB d (p.1 % 72)
      if u.1 < 4 ∧ leAt r.q.body 1 1 = 3 then
        r.list.filterMap fun va =>
          match pageWalk s d (fget s b F.CORE_TTAG_TCTX r.q.slot) (fget s b F.CORE_TCTL_TENANT r.q.slot) (va % 2 ^ 48) with
          | .leaf big pte =>
            some (natBits pte 48 14 * 2 ^ 50 + natBits pte 4 2 * 2 ^ 48 + pteAddr pte + va % (if big then 2 ^ 21 else 2 ^ 16), leAt r.q.body 24 4 % 2 ^ 28)
          | .bad _ _ => none
      else []
    | none => []

/-- One append written; where a SCATTER at work names an address of it, what lands is a free value (Table 10.10, R297).
(DEDUCED: notes/assumptions/12.md.) -/
def writeAppend (a : Append) (l : List (Nat × Nat)) (w : Nat × List Byte) (s : State) : State :=
  let hit := l.any fun r => decide (r.1 < w.1 + w.2.length) && decide (w.1 < r.1 + r.2)
  let (b, s) := if hit then takeBytes w.2.length s else (w.2, s)
  (putGlobal a.die 0 0 a.tenant a.tag w.1 b s).2

/-- The writes of an append that a commit keeps (R393): of a KV-form append those of positions below the LENGTH that their row's context takes. -/
def keptWrites (lens : List Nat) (a : Append) : List (Nat × List Byte) :=
  if a.elems.isEmpty then a.writes
  else ((a.writes.zip a.elems).filter fun p => decide (p.2.2 < lens.getD p.2.1 (2 ^ 21))).map fun p => p.1

/-- The held appends of a step written, core by core in issue order, and taken out of the buffers (R269); `lens` holds the LENGTH that each
row's context takes. -/
def releaseAppends (b num : Nat) (lens : List Nat) (s : State) : State :=
  let l := s.cores.flatMap fun p => (p.2.appends.filter fun a => a.binding == b && a.step == num).mergeSort fun a c => decide (a.no ≤ c.no)
  let r := scatterRanges s
  dropAppends b num (l.foldl (fun s a => (keptWrites lens a).foldl (fun s w => writeAppend a r w s) s) s)

/-! ### Promotion (R147, R148) -/

/-- The default HOLD (OD 0x4105) where a layer's own is not set. -/
def holdOf (s : State) (p : Promo) : Nat := if p.hold = 0 then odNum s 0x4105 else p.hold

/-- The level one rung above a start level: lean layers rise from P4 to P16. -/
def rungUp (lean : Bool) (start : Nat) : Nat := if lean then 2 else min 2 (start + 1)

/-- A layer's entry of the promotion table after a committed step that bound the start level `start` (R147, R148): promoted where
X > PROMO × B. A step that bound a lower level than the layer has since reached changes the level only upwards and takes nothing off its hold.
A trial step that promotes the layer again doubles its HOLD; one that does not leaves the layer a rung lower at the default HOLD. Only
committed steps count toward HOLD. (DESIGN CHOICE: notes/assumptions/76.md.) -/
def promoNext (s : State) (lean : Bool) (num start : Nat) (bx : Nat × Nat) (p : Promo) : Promo :=
  let up := decide (bx.2 * 100 > odNum s 0x4104 * bx.1)
  if p.tstep = some num then
    if up then
      let h := min 1024 (2 * holdOf s p)
      ⟨max p.level (rungUp lean start), h, h, false, none⟩
    else
      let lvl := rungDown lean p.level
      ⟨lvl, 0, if lvl = 0 then 0 else odNum s 0x4105, false, none⟩
  else if up ∧ rungUp lean start > p.level then ⟨rungUp lean start, holdOf s p, holdOf s p, false, none⟩
  else if p.level > 0 ∧ start ≥ p.level then { p with left := p.left - 1 }
  else p

/-- The promotion table after a committed step: that of the binding's Current generation alone, since the table of an older generation has
gone with it (R148, Table 5.11). -/
def promote (t : Step) (s : State) : State :=
  match currentGen s t.binding with
  | some g =>
    if g.gen ≠ t.gen then s
    else
      (List.range (stepNl s t)).foldl (fun s l =>
        let bx := tget (fun _ => (0, 0)) t.ladder l
        let p := tget (fun _ => Promo.none) (bindOf s t.binding).promo l
        let p' := promoNext s (stepLean s t) t.num (max t.floor (t.levels.getD l 0)) bx p
        modBind s t.binding (fun x => { x with promo := tset (fun _ => Promo.none) x.promo l p' })) s
  | none => s

/-- PROMOTION_HOLD_EXPIRY (R148): the layer starts one rung lower for one trial step, the next that is formed. -/
def holdExpiry (b l : Nat) (s : State) : State :=
  let p := tget (fun _ => Promo.none) (bindOf s b).promo l
  if p.level > 0 ∧ p.left = 0 ∧ !p.trial then
    modBind s b (fun x => { x with promo := tset (fun _ => Promo.none) x.promo l { p with trial := true, tstep := none } })
  else s

/-! ### Committing a row (R383, R385, R393, R394) -/

/-- The draft length after a committed step (Table 15.11). (DEDUCED: notes/assumptions/35.md.) -/
def adapt (role drafts accepted : Nat) (c : Ctx) : Ctx :=
  if role = 3 then
    if accepted ≥ drafts then { c with rej := 0, kcur := min (drafts + 1) c.kmax }
    else if accepted ≥ 1 then { c with rej := 0, kcur := accepted }
    else
      let r := satAdd 8 1 c.rej
      if r < 4 then { c with rej := r, kcur := max 1 (drafts - 1) } else { c with rej := r, kcur := 0, probe := 64 }
  else if c.kcur = 0 ∧ c.probe > 0 then
    if c.probe = 1 then { c with probe := 0, kcur := min 1 c.kmax } else { c with probe := c.probe - 1 }
  else c

/-- The END of a token (Table 24.8): stop token, MAXNEW reached, MAXLEN reached, in that order. -/
def endOf (c : Ctx) (pos tok left : Nat) : Nat :=
  if c.stop.contains tok && tok != 0xFFFFFFFF then 1 else if left = 0 then 2 else if pos ≥ c.maxlen then 3 else 0

/-- The token records of a row: POS, token, TAIL, END, whether it was an accepted draft. No token follows one that ends the
work. `left` counts MAXNEW down. -/
def rowTokens (c : Ctx) (accepted : Nat) : List (Nat × Nat) → Nat → Nat → Nat → List (Nat × Nat × Nat × Nat × Bool)
  | [], _, _, _ => []
  | (tok, tail) :: l, pos, left, i =>
    let e := endOf c pos tok (left - 1)
    let r := (pos, tok, tail, e, decide (i < accepted))
    if e = 0 then r :: rowTokens c accepted l (pos + 1) (left - 1) (i + 1) else [r]

/-- The token records of a row that commits, and the LENGTH that its context takes (R383, R393). -/
def rowOut (c : Ctx) (r : Row) (x : RowResult) : List (Nat × Nat × Nat × Nat × Bool) × Nat :=
  let draws := if r.role = 1 then [] else if r.role = 3 then x.toks.take (r.drafts + 1) else x.toks.take 1
  let first := if r.role = 3 then r.first + 1 else r.first + r.count
  let recs := rowTokens c (if r.role = 3 then x.accepted else 0) draws first c.maxnew 0
  (recs, if r.role = 3 then r.first + recs.length else r.first + r.count)

/-- The LENGTH that the context of each row of a step takes. -/
def rowLens (s : State) (t : Step) (results : List RowResult) : List Nat :=
  t.rows.zipIdx.map fun p => (rowOut (ctxOf s p.1.ctx) p.1 (results.getD p.2 RowResult.none)).2

/-- A row committed: its context's record, its token records in ascending POS, and what was latched for the gate. The degraded mark is
that of the step (R152); the class is D where no tile of the step was analogue and the context's KV is Class D (Table 1.3). -/
def commitRow (t : Step) (r : Row) (x : RowResult) (s : State) : State :=
  let c := ctxOf s r.ctx
  if c.st ≠ 3 then unreserveOq r.queue r.reserved s
  else
    let (recs, len) := rowOut c r x
    let s := unreserveOq r.queue r.reserved s
    let n := recs.length
    let cancelled := !c.cancelCid.isEmpty
    let s := (recs.zipIdx).foldl (fun s p =>
      let (pos, tok, tail, e, d) := p.1
      let k : TokRec := ⟨true, t.deg, !t.analog && !c.analog, e, d, cancelled && p.2 + 1 == n, r.ctx, pos, tok, tail, t.num⟩
      oqWrite r.queue k s) s
    let s := odInc s 0x7050 0 n
    let s := if r.role = 3 then odInc (odInc s 0x7053 0 r.drafts) 0x7054 0 (min x.accepted n) else s
    let used := if r.role = 1 ∨ r.role = 2 then r.count else 0
    let stopped := recs.any fun p => p.2.2.2.1 == 1
    let s := { s with serve := { s.serve with tokUsed := s.serve.tokUsed - used } }
    let s := modCtx s r.ctx (fun c =>
      let c := { c with length := len, pending := c.pending - used, toks := c.toks.drop used, maxnew := c.maxnew - n }
      let c := { c with nextTok := (match recs.getLast? with | some p => p.2.1 | none => c.nextTok), retry := 0, stepnum := t.num }
      let c := { c with touched := hubTime s, generate := c.generate && !stopped, analog := c.analog || t.analog }
      takeParams (adapt r.role r.drafts x.accepted c))
    afterGate r.ctx (runOrIdle r.ctx s)

/-- A step committed everywhere: records, tokens, counters, promotion (R381). (DEDUCED: notes/assumptions/64.md.) -/
def finishCommit (t : Step) (s : State) : State :=
  let s := (t.rows.zipIdx).foldl (fun s p => commitRow t p.1 (tget (fun _ => RowResult.none) t.results p.2) s) (chargeStep t s)
  let s := modBind (odInc (finc s hubB F.HUB_GATESTAT_COMMITS) 0x7051 0) t.binding fun b => { b with committed := t.num }
  retireStep t.binding t.num (promote t s)

/-- With DONE from every module the lead finishes the commit. (DEDUCED: notes/assumptions/64.md.) -/
def tryFinish (b num : Nat) (s : State) : State :=
  match stepOf s b num with
  | none => s
  | some t => if t.lead && t.phase == 2 && decide (t.done.length ≥ stepModules s t) then finishCommit t s else s

/-! ### The decision (R381, R501–R507) -/

/-- A failed audit comparison (R506): F1 0x0904, ABANDON, and the same rows as a confirming step; a confirming step whose runs
disagree holds the binding with F2 0x0905. -/
def auditFailed (t : Step) (s : State) : State :=
  let s := odInc s (0x8070 + t.binding) 7
  if t.confirm then
    let s := abandonStep .item t (closeF1 0x0904 hubDie t.binding s)
    fault 0x0905 hubDie t.binding t.num (modBind s t.binding fun b => { b with auditHeld := true, confirmRows := [] })
  else
    let s := fault 0x0904 hubDie t.binding t.num s
    if s.serve.steps.any (isStep t.binding t.num) then modBind (abandonStep .item t s) t.binding fun b => { b with confirmRows := t.rows } else s

/-- The hidden state of a signature record (Table 20.5): its BF16 elements as FP32. -/
def sigState (r : List Byte) : List Nat := (leChunks 2 ((r.length - 32) / 2) (r.drop 32)).map bf16To32

/-- A signature record without its reserved bytes. -/
def sigFields (r : List Byte) : List Nat :=
  [leAt r 0 1, leAt r 1 1 % 8, leAt r 2 2, leAt r 4 4 % 2 ^ 20, leAt r 8 4 % 2 ^ 21, leAt r 12 4]

/-- ‖x‖₂ in FP32, the squares summed in ascending order. -/
def norm32 (l : List Nat) : Nat := f32Sqrt (l.foldl (fun a x => f32Add a (f32Mul x x)) 0)

/-- The distance d of R505 between the audit's hidden state and the primary's; 0 where both are zero. -/
def sigDistance (p a : List Nat) : Nat :=
  let z (l : List Nat) : Bool := l.all fun x => x % 2 ^ 31 == 0
  if z p && z a then 0 else f32Div (norm32 ((a.zip p).map fun q => f32Add q.1 (q.2 ^^^ 2 ^ 31))) (norm32 p)

/-- Whether a row's primary and audit records pass (R505); `tol` is AUDTOL in percent. -/
def sigPasses (tol : Nat) (q : List Byte × List Byte) : Bool :=
  let bit (r : List Byte) (i : Nat) : Bool := natBit (leAt r 1 1) i
  if bit q.1 0 && bit q.2 0 then sigFields q.1 == sigFields q.2 && q.1.drop 32 == q.2.drop 32
  else
    let d := sigDistance (sigState q.1) (sigState q.2)
    !bit q.1 2 && !bit q.2 2 && f32Fin d && decide ((f32Dy d).rat * 100 ≤ (f32Dy tol).rat)

/-- Rows that pass with differing first tokens. -/
def tokenFlips (sigs : List (List Byte × List Byte)) : Nat := (sigs.filter fun q => leAt q.1 12 4 != leAt q.2 12 4).length

/-- What the followers delivered to the gate taken into the step (R147, R381). -/
def gather (b num : Nat) (reports : List ModReport) (s : State) : State :=
  reports.foldl (fun s r => modStep s b num fun t => { t with
    failed := t.failed || r.failed, firstFail := if r.failed && !t.failed then r.stitch else t.firstFail
    analog := t.analog || r.analog, deg := t.deg || r.deg
    ladder := r.ladder.foldl (fun l q => tmod (fun _ => (0, 0)) l q.1 fun v => (v.1 + q.2.1, v.2 + q.2.2)) t.ladder }) s

/-- Whether every task of a step on this module has delivered its last stitch check: its stream has ended and it is in no stitch. -/
def tasksOver (s : State) (b num : Nat) : Bool :=
  (stepSlots s b num).all fun p =>
    let k := coreB p.1 p.2.1
    fget s k F.CORE_TCTL_ENDED p.2.2 == 1 && !(fget s k F.CORE_STAT_SLOT == p.2.2 && fget s k F.CORE_STAT_BOUNDARY == 0)

/-- SIGLEN of a model of width `w` (R500). -/
def sigLen (w : Nat) : Nat := 64 * ((32 + 2 * w + 63) / 64)

/-- The signature records of a run that this module leads, row by row, as they stand in its area (R500). -/
def sigRecords (s : State) (t : Step) : List (List Byte) :=
  let w := match genOf s t.binding t.gen with | some g => Config.modelWidth g.digest | none => 0
  (List.range t.rows.length).map fun r => mread s (dramAddr 0 (sigAt s t.binding t.num + r * sigLen w)) (32 + 2 * w)

/-- The audit run of a step on this module. -/
def auditRun (s : State) (t : Step) : Option Step := s.serve.steps.find? fun r => r.auditOf == some (t.binding, t.num) && r.lead

/-- Whether a run has delivered its last stitch check to the gate. -/
def runOver (s : State) (r : Step) : Bool := r.phase == 3 || (r.phase == 1 && decide (stepModules s r ≤ 1) && tasksOver s r.binding r.num)

/-- The two signature records of each row of an audited step, once its audit run has ended (R505): those of another module's run are `away`.
A run whose placement has switched its generation is not compared (Table 20.10). -/
def recordPairs (s : State) (t : Step) (away : List (List Byte)) : Option (List (List Byte × List Byte)) :=
  match auditRun s t with
  | some r =>
    if runOver s r && (currentGen s r.binding).any (fun h => h.gen == r.gen || r.binding == t.binding) then some ((sigRecords s t).zip (sigRecords s r))
    else none
  | none => if t.partner.isSome && (localPartner s t).isNone && away.length == t.rows.length then some ((sigRecords s t).zip away) else none

/-- A step held at its gate for its audit, which in DIGITAL mode is formed now (R503). -/
def holdForAudit (t : Step) (s : State) : State :=
  let s := modStep s t.binding t.num fun t => { t with phase := 3 }
  if t.partner.isSome ∨ (auditRun s t).isSome then s
  else match genOf s t.binding t.gen with
    | some g => launchRun (auditRunOf s t g 0 true) s
    | none => s

/-- Every item of a step has passed (R381): COMMIT, this module's appends released and its DONE counted. Its audit runs end (R504). -/
def commitStep (t : Step) (results : List RowResult) (s : State) : State :=
  let e := 0x8070 + t.binding
  let s := if t.unaud then odInc s e 9 else s
  let s := if t.confirm then closeF1 0x0904 hubDie t.binding s else s
  let res := (results.zipIdx).foldl (fun m p => tset (fun _ => RowResult.none) m p.2 p.1) []
  let s := modStep s t.binding t.num (fun t => { t with phase := 2, results := res, done := [0] })
  let s := if t.audited then modBind s t.binding (fun x => { x with expiries := 0 }) else s
  tryFinish t.binding t.num (hubMsg t 4 0 (releaseAppends t.binding t.num (rowLens s t results) (endRuns t.binding t.num s)))

/-- COMMIT_DECISION (R381): every item must have passed. ABANDON on a failed item, of the step or of its audit run, or on a failed comparison
(R505, R506): `sigs` holds the signature records that another module's audit run wrote. A step whose audit run has not ended waits; otherwise
COMMIT. A run decides nothing (R504). (DEDUCED: notes/assumptions/37.md.) -/
def decideStep (b num : Nat) (reports : List ModReport) (results : List RowResult) (sigs : List (List Byte)) (s : State) : State :=
  match stepOf (gather b num reports s) b num with
  | none => s
  | some t =>
    let s := gather b num reports s
    if !t.lead || (t.phase != 1 && t.phase != 3) || modState s != 2 then s
    else if t.auditOf.isSome then
      if tasksOver s b num && decide (stepModules s t ≤ reports.length + 1) then modStep s b num fun t => { t with phase := 3 } else s
    else if t.failed || (auditRun s t).any (fun r => r.failed) then modBind (abandonStep .item t s) b fun x => { x with auditRetry := true }
    else if t.phase == 1 && (!tasksOver s b num || decide (reports.length + 1 < stepModules s t)) then s
    else if !t.audited then commitStep t results s
    else
      match recordPairs s t sigs with
      | none => holdForAudit t s
      | some l =>
        let e := 0x8070 + b
        let s := odInc s e 6
        if l.all (sigPasses (odNum s e 4)) then commitStep t results (odInc s e 8 (tokenFlips l)) else auditFailed t s

/-- The audit run here of another module's step, which that module has decided (R504). -/
def endAway (b num : Nat) (s : State) : State :=
  let s := modBind s b fun x => { x with auditDue := x.auditDue.filter fun r => r.auditOf != some (4, num) }
  match s.serve.steps.find? fun r => r.binding == b && r.lead && r.auditOf == some (4, num) with
  | some r => endRun r s
  | none => s

/-- HUBMSG_COMMIT (R381): a follower releases the step's held appends, charges its own use and sends DONE. `lens` is the LENGTH that each
row's context takes at the lead, below which K/V is kept (R393). -/
def commitMsg (b num : Nat) (lens : List Nat) (s : State) : State :=
  if (bindOf s b).lead then endAway b num s
  else match stepOf s b num with
  | none => s
  | some t => modBind (retireStep b num (chargeStep t (releaseAppends b num lens (hubMsg t 6 0 s)))) b fun x => { x with committed := num }

/-- HUBMSG_ABANDON (R381): a follower discards the step's appends; no tenant pays where the cause charges none (R464). -/
def abandonMsg (b num cause : Nat) (s : State) : State :=
  if (bindOf s b).lead then endAway b num s
  else match stepOf s b num with
  | none => s
  | some t =>
    if t.auditOf.isSome then endRun t s
    else
      let s := hubMsg t 6 0 (dropAppends b num s)
      retireStep b num (if cause = 2 ∨ cause = 3 then odInc s 0x7082 0 t.coreNs else chargeStep t s)

/-- HUBMSG_DONE (R381). -/
def doneMsg (b num m : Nat) (s : State) : State :=
  match stepOf s b num with
  | none => s
  | some t =>
    if t.lead && t.phase == 2 && decide (m < stepModules s t) then
      tryFinish b num (modStep s b num (fun t => { t with done := if t.done.contains m then t.done else t.done ++ [m] }))
    else s

/-- The lowest die behind one position's modules, which a fault about a follower is given against (Table 19.3). -/
def lowestDieAt (s : State) (pos : Nat) : Nat :=
  ((List.range 8).map ((gridOf s).dieAt pos)).foldl min ((gridOf s).dieAt pos 0)

/-- GATETO_EXPIRY (R382): the step's contexts become Lost, its token records are not written, and an F2 is recorded against
the follower's link. -/
def gateTo (b num m : Nat) (s : State) : State :=
  match stepOf s b num with
  | none => s
  | some t =>
    if t.lead && t.phase == 2 && !t.done.contains m then
      let s := chargeStep t (retireStep b num s)
      let s := t.rows.foldl (fun s r => loseCtx 2 r.ctx (unreserveOq r.queue r.reserved s)) s
      fault 0x0804 hubDie m (lowestDieAt s (Config.placeModule b m)) s
    else s

/-- AUDTO_EXPIRY (R507), measured from the step's last stitch check: the step is abandoned and re-formed unaudited; three in a row suspend auditing. -/
def audTo (b num : Nat) (s : State) : State :=
  match stepOf s b num with
  | none => s
  | some t =>
    if t.lead && t.audited && t.phase == 3 then
      let s := abandonStep .other t (notice 0x0906 hubDie b num (if t.confirm then closeF1 0x0904 hubDie b s else s))
      let s := modBind s b (fun x => { x with auditRetry := false, auditSkip := true, expiries := x.expiries + 1, confirmRows := [] })
      if (bindOf s b).expiries ≥ 3 then
        modBind (odSet (notice 0x0907 hubDie b 0 s) (0x8070 + b) 10 2) b (fun x => { x with expiries := 0 })
      else s
    else s

/-- AUDIT_REQUEST (R501): the next step formed is audited. -/
def writeAuditRequest (w : Writer) (b : Nat) (v : OdVal) (s : State) : State :=
  odWrite w (0x8070 + b) 11 v true (fun s => (0, modBind s b (fun x => { x with auditNext := true }))) s

/-! ### The commands -/

/-- HUBMSG_PREPARE (R379). -/
def execHubmsgPrepare (b num gen bucket audrole : Nat) (levels : List Nat) (rows : List Row) (s : State) : Host.Outcome State Fault Refusal :=
  .next (prepare b num gen bucket audrole levels rows s)
/-- HUBMSG_READY (R379). -/
def execHubmsgReady (b num m : Nat) (s : State) : Host.Outcome State Fault Refusal := .next (ready b num m s)
/-- HUBMSG_GO (R379). -/
def execHubmsgGo (b num : Nat) (s : State) : Host.Outcome State Fault Refusal := .next (go b num s)
/-- PREPTO_EXPIRY (R379). -/
def execPreptoExpiry (b num : Nat) (s : State) : Host.Outcome State Fault Refusal := .next (prepTo b num s)
/-- COMMIT_DECISION (R381). -/
def execCommitDecision (b num : Nat) (reports : List ModReport) (results : List RowResult) (sigs : List (List Byte))
    (s : State) : Host.Outcome State Fault Refusal :=
  .next (decideStep b num reports results sigs s)
/-- HUBMSG_COMMIT (R381). -/
def execHubmsgCommit (b num : Nat) (lens : List Nat) (s : State) : Host.Outcome State Fault Refusal := .next (commitMsg b num lens s)
/-- HUBMSG_ABANDON (R381). -/
def execHubmsgAbandon (b num cause : Nat) (s : State) : Host.Outcome State Fault Refusal := .next (abandonMsg b num cause s)
/-- HUBMSG_DONE (R381). -/
def execHubmsgDone (b num m : Nat) (s : State) : Host.Outcome State Fault Refusal := .next (doneMsg b num m s)
/-- GATETO_EXPIRY (R382). -/
def execGatetoExpiry (b num m : Nat) (s : State) : Host.Outcome State Fault Refusal := .next (gateTo b num m s)
/-- PROMOTION_HOLD_EXPIRY (R148). -/
def execPromotionHoldExpiry (b layer : Nat) (s : State) : Host.Outcome State Fault Refusal := .next (holdExpiry b layer s)
/-- AUDTO_EXPIRY (R507). -/
def execAudtoExpiry (b num : Nat) (s : State) : Host.Outcome State Fault Refusal := .next (audTo b num s)
/-- AUDIT_REQUEST (R501). -/
def execAuditRequest (w : Writer) (b : Nat) (v : OdVal) (s : State) : Host.Outcome State Fault Refusal :=
  .next (writeAuditRequest w b v s)

end Sys2Proof.Machine
end

