-- ==== Sys2Proof/Machine/Scratch.lean ====
section
/-! DEFINITION. The scratchpad of a core: windows, poisoned lines, debug tags, data slots and gates (R247–R258, R285–R289,
R295, R296). Every engine reads and writes the scratchpad through these operations. -/

namespace Sys2Proof.Machine

/-! ### Tasks and stitch checks -/

/-- An address field of 21 bits in three bytes. -/
def addr21 (b : List Byte) (i : Nat) : Nat := leAt b i 3 % 2 ^ 21

/-- The task of a slot. -/
def taskOf (s : State) (d c t : Nat) : Task := tget (fun _ => Task.none) (coreOf s d c).tasks t

/-- A slot's task changed. -/
def modTask (d c t : Nat) (f : Task → Task) (s : State) : State :=
  modCore s d c fun x => { x with tasks := tmod (fun _ => Task.none) x.tasks t f }

/-- A task's stitch check failed for the current stitch. -/
def failStitch (d c t : Nat) (s : State) : State :=
  modCore s d c fun x => { x with failed := if x.failed.contains t then x.failed else x.failed ++ [t] }

/-- An item of a step's gate failed (R381): the step number of the first failure is kept. -/
def failStep (b num stitch : Nat) (s : State) : State :=
  modStep s b num fun t => if t.failed then t else { t with failed := true, firstFail := stitch }

/-- Use of a task charged (R463, R464): the slot's metering counter, which saturates, and the step that the task belongs to; the
use of a task whose TENANT is not 0 is kept by tenant. Dimensions: 0 core ns, 1 array operations, 2 DRAM lines of 64 B, 3 link
lines of 64 B. -/
def meter (d c t dim n : Nat) (s : State) : State :=
  let f := [F.CORE_MTIME_NS, F.CORE_MARR_OPS, F.CORE_MDRAM_LINES, F.CORE_MLINK_LINES].getD dim F.CORE_MTIME_NS
  let s := fincSat s (coreB d c) f n t
  let k := taskOf s d c t
  let ten := fget s (coreB d c) F.CORE_TCTL_TENANT t
  let u := (List.range 4).map fun i => if i = dim then (if dim ≥ 2 then 64 * n else n) else 0
  modStep s k.binding k.step fun p =>
    if ten = 0 then { p with use := addLists p.use u }
    else { p with tuse := tmod (fun _ => []) p.tuse ten (addLists u) }

/-- Bytes read of an adapter (R192, R464): a task of tenant 0 charges them to the rows that share the adapter. -/
def meterAdapter (d c t h n : Nat) (s : State) : State :=
  if fget s (coreB d c) F.CORE_TCTL_TENANT t ≠ 0 then meter d c t 2 n s
  else
    let k := taskOf s d c t
    modStep (fincSat s (coreB d c) F.CORE_MDRAM_LINES n t) k.binding k.step fun p => { p with adapt := tmod (fun _ => 0) p.adapt h fun x => x + 64 * n }

/-! ### Windows (R255, R256) -/

/-- The physical offset of a relative address range, `none` where it is not valid (Table 10.3). -/
def relMap (s : State) (d c t a n : Nat) (write : Bool) : Option Nat :=
  let b := coreB d c
  if a < 2 ^ 20 then
    if a + n ≤ fget s b F.CORE_TWIN_LEN t * 4096 then some (fget s b F.CORE_TWIN_BASE t * 4096 + a) else none
  else if write then none
  else if a < 2 ^ 21 ∧ a - 2 ^ 20 + n ≤ fget s b F.CORE_SHWIN_SLEN * 4096 then some (fget s b F.CORE_SHWIN_SBASE * 4096 + (a - 2 ^ 20))
  else none

/-- An access that is not valid (R256): F0 notice, count, and the stitch check fails. -/
def boundBreak (d c t a : Nat) (s : State) : State :=
  let s := odInc (finc s (coreB d c) F.SPAD_CNT_BOUND_COUNT) (0x3030 + d) 3
  failStitch d c t (notice 0x0400 d c a s)

/-! ### Lines and words -/

/-- The lines that a physical range touches. -/
def linesOf (a n : Nat) : List Nat := if n = 0 then [] else (List.range ((a + n - 1) / 64 + 1 - a / 64)).map fun i => a / 64 + i

/-- The words that a physical range touches. -/
def wordsOf (a n : Nat) : List Nat := if n = 0 then [] else (List.range ((a + n - 1) / 4 + 1 - a / 4)).map fun i => a / 4 + i

/-- Ranges of words without those from `lo` to before `hi`. -/
def cutWords (lo hi : Nat) (l : List (Nat × Nat)) : List (Nat × Nat) :=
  l.flatMap fun r => ([(r.1, min r.2 lo), (max r.1 hi, r.2)] : List (Nat × Nat)).filter fun q => decide (q.1 < q.2)

/-- Whether a word lies in one of the ranges. -/
def inWords (l : List (Nat × Nat)) (w : Nat) : Bool := l.any fun r => decide (r.1 ≤ w) && decide (w < r.2)

/-- Bytes written at a physical offset: a line written whole is no longer poisoned (R251), a word written has its parity generated anew (R250),
loses its tag (R296), and its contents are no longer open. -/
def spWrite (d c a : Nat) (l : List Byte) (s : State) : State :=
  let n := l.length
  let whole (k : Nat) : Bool := decide (a ≤ 64 * k) && decide (64 * k + 64 ≤ a + n)
  let x := coreOf s d c
  let s := if n = 0 || (x.poisoned.isEmpty && x.upsets.isEmpty && x.tags.isEmpty && x.unfilled.isEmpty) then s
    else
      let lo := a / 4
      let hi := (a + n - 1) / 4 + 1
      let out (k : Nat) : Bool := decide (k < lo) || decide (hi ≤ k)
      modCore s d c fun x => { x with
        poisoned := x.poisoned.filter (fun k => !whole k), upsets := x.upsets.filter (fun u => out u.1), tags := x.tags.filter out,
        unfilled := cutWords lo hi x.unfilled }
  mwrite s (spadAddr d c a) l

/-- Poison and tags of a range of words (R296): each reads 0x7FA5_A5A5 until it is written. -/
def poisonRange (d c a n : Nat) (s : State) : State :=
  let w := wordsOf a n
  let s := w.foldl (fun s k => spWrite d c (4 * k) (leBytes 4 0x7FA5A5A5) s) s
  modCore s d c fun x => { x with tags := x.tags ++ w }

/-- The contents of a range of words open until they are written (R297, R298). (DEDUCED: notes/assumptions/12.md.) -/
def openRange (d c a n : Nat) (s : State) : State :=
  if n = 0 then s else modCore s d c fun x => { x with unfilled := cutWords (a / 4) ((a + n - 1) / 4 + 1) x.unfilled ++ [(a / 4, (a + n - 1) / 4 + 1)] }

/-- A relative range of a task slot open. (DEDUCED: notes/assumptions/12.md.) -/
def openWin (d c t a n : Nat) (s : State) : State :=
  match relMap s d c t a n true with
  | some p => openRange d c p n s
  | none => s

/-- Bytes from offset `a` as a consumer reads them: each byte of an open word is a free value (R298).
(DEDUCED: notes/assumptions/12.md.) -/
def readOpen (u : List (Nat × Nat)) : Nat → List Byte → State → List Byte × State
  | _, [], s => ([], s)
  | a, x :: l, s =>
    let (y, s) := if inWords u (a / 4) then let (w, s) := takeNat s; (BitVec.ofNat 8 w, s) else (x, s)
    let (l, s) := readOpen u (a + 1) l s
    (y :: l, s)

/-- What an F0 unfilled-read notice tells (R296): task tag, relative address, stream entry. (DESIGN CHOICE: notes/assumptions/23.md.) -/
def unfilledDetail (tag rel entry : Nat) : Nat := tag + 2 ^ 16 * rel + 2 ^ 40 * entry

/-! ### Parity (R250, R251) -/

/-- The consumers, by the priority codes of Table 10.1. -/
inductive Port where
  | tally | loom | mender | attention | vector | porter | sequencer
  deriving DecidableEq, Repr

/-- The priority code of a consumer (Table 10.1, Table 10.13). -/
def Port.code : Port → Nat
  | .tally => 2 | .loom => 3 | .mender => 4 | .attention => 5 | .vector => 6 | .porter => 7 | .sequencer => 9

/-- SPAD_PERR (Table 10.13). -/
def notePerr (d c word : Nat) (p : Port) (persist : Bool) (s : State) : State :=
  let b := coreB d c
  let s := fset (fset s b F.SPAD_PERR_ADDR (4 * word)) b F.SPAD_PERR_PERSIST (b2n persist)
  fset (fset s b F.SPAD_PERR_PORT p.code) b F.SPAD_PERR_VALID 1

/-- A transient error: a re-read was clean (R251). -/
def perrClean (d c word : Nat) (p : Port) (s : State) : State :=
  let s := odInc (finc (notePerr d c word p false s) (coreB d c) F.SPAD_CNT_REPLAY_COUNT) (0x3030 + d) 1
  closeF1 0x0401 d c (fault 0x0401 d c (4 * word) s)

/-- A persistent error: every re-read failed (R251). The line is poisoned and the stitch check fails; one that comes after the line has been
written whole since its first is an F2. -/
def perrLost (d c t word : Nat) (p : Port) (s : State) : State :=
  let k := word / 16
  let second := (coreOf s d c).badLines.contains k
  let s := modCore s d c fun x => { x with
    poisoned := x.poisoned ++ [k], upsets := x.upsets.filter (fun u => u.1 / 16 != k), badLines := if second then x.badLines else x.badLines ++ [k] }
  let s := odInc (finc (notePerr d c word p true s) (coreB d c) F.SPAD_CNT_PERSIST_COUNT) (0x3030 + d) 2
  let s := failStitch d c t s
  if second then fault 0x0403 d c (4 * word) s else closeF1 0x0402 d c (fault 0x0402 d c (4 * word) s)

/-- The lines of a read taken by a consumer for slot `t`, in order: whether every word is to be had (R251). A line still poisoned records
the notice; a word whose parity disagrees is re-read up to REPLAYS times. -/
def takeLines (d c t : Nat) (p : Port) (a n : Nat) : List Nat → State → Bool × State
  | [], s => (true, s)
  | k :: l, s =>
    let x := coreOf s d c
    if x.poisoned.contains k then (false, failStitch d c t (notice 0x0400 d c (64 * k) s))
    else
      match x.upsets.filter fun u => u.1 / 16 == k && decide (a / 4 ≤ u.1) && decide (4 * u.1 < a + n) with
      | [] => takeLines d c t p a n l s
      | u :: us =>
        match (u :: us).find? fun v => decide (x.replays ≤ v.2) with
        | some v => (false, perrLost d c t v.1 p s)
        | none =>
          let s := modCore s d c fun x => { x with upsets := x.upsets.filter fun v => !(u :: us).contains v }
          takeLines d c t p a n l (perrClean d c u.1 p s)

/-- A range read by a consumer: whether its words are to be had (R251). -/
def takeRange (d c t : Nat) (p : Port) (a n : Nat) (s : State) : Bool × State :=
  let x := coreOf s d c
  if x.poisoned.isEmpty && x.upsets.isEmpty then (true, s) else takeLines d c t p a n (linesOf a n) s

/-- Bytes read at a physical offset by a consumer of task slot `t`: nothing where a line's parity fails (R251); a tagged word reads
as stored and is reported (R296); any other word whose contents are open reads as free values (R298).
(DESIGN CHOICE: notes/assumptions/32.md.) -/
def spRead (d c t : Nat) (p : Port) (rel entry a n : Nat) (s : State) : Option (List Byte) × State :=
  match takeRange d c t p a n s with
  | (false, s) => (none, s)
  | (true, s) =>
    let x := coreOf s d c
    let tagged := if fget s (coreB d c) F.CORE_PATCTL_POISON == 1 then x.tags else []
    let (b, s) := if x.unfilled.isEmpty then (mread s (spadAddr d c a) n, s)
      else readOpen (tagged.foldl (fun u k => cutWords k (k + 1) u) x.unfilled) a (mread s (spadAddr d c a) n) s
    if fget s (coreB d c) F.CORE_PATCTL_POISON == 1 && (wordsOf a n).any (fun w => x.tags.contains w) then
      let tag := fget s (coreB d c) F.CORE_TTAG_TASKTAG t
      let s := odInc (finc s (coreB d c) F.CORE_CNT_UNFILL_COUNT) (0x3050 + d) 4
      (some b, failStitch d c t (notice 0x0100 d c (unfilledDetail tag rel entry) s))
    else (some b, s)

/-- Bytes read at a relative address: zeros where the range is not valid (R256). -/
def winRead (d c : Nat) (p : Port) (q : Issued) (a n : Nat) (s : State) : Option (List Byte) × State :=
  match relMap s d c q.slot a n false with
  | none => (some (List.replicate n 0), boundBreak d c q.slot a s)
  | some m => spRead d c q.slot p a q.entry m n s

/-- Bytes written at a relative address: discarded where the range is not valid (R256). -/
def winWrite (d c : Nat) (q : Issued) (a : Nat) (l : List Byte) (s : State) : State :=
  match relMap s d c q.slot a l.length true with
  | none => boundBreak d c q.slot a s
  | some p => spWrite d c p l s

/-- The words of a write that fall in a target which a mender result waits to be added to are open: another engine has written it meanwhile
(R196, R297). (DEDUCED: notes/assumptions/12.md.) -/
def openTargets (d c t a n : Nat) (s : State) : State :=
  (coreOf s d c).adds.foldl (fun s p => if p.slot ≠ t then s else p.parts.foldl (fun s q =>
    let lo := max a q.1
    let hi := min (a + n) (q.1 + 16 + 16 * q.2.length)
    if lo < hi then openWin d c t lo (hi - lo) s else s) s) s

/-- Bytes written at a relative address by an engine other than the tally and the mender. -/
def engWrite (d c : Nat) (q : Issued) (a : Nat) (l : List Byte) (s : State) : State := openTargets d c q.slot a l.length (winWrite d c q a l s)

/-- A read that an operation needs: what follows runs on its bytes, and nothing is delivered where they cannot be had (R251). -/
def withRead (d c : Nat) (p : Port) (q : Issued) (a n : Nat) (k : List Byte → State → State) (s : State) : State :=
  match winRead d c p q a n s with
  | (none, s) => s
  | (some b, s) => k b s

/-! ### Data slots and gates (R285–R289) -/

/-- A data slot. -/
def dslotOf (s : State) (d c t n : Nat) : DSlot := tget (fun _ => DSlot.off) (coreOf s d c).ds (32 * t + n)

/-- A data slot changed. -/
def modDslot (d c t n : Nat) (f : DSlot → DSlot) (s : State) : State :=
  modCore s d c fun x => { x with ds := tmod (fun _ => DSlot.off) x.ds (32 * t + n) f }

/-- Whether a gate lets its read proceed (R287). -/
def gateOpen (s : State) (d c t : Nat) (g : Nat × Nat) : Bool :=
  decide (((dslotOf s d c t g.1).fills + 256 - g.2 % 256) % 256 ≤ 127)

/-- The first gate of a command that holds its read. -/
def gateHolds (s : State) (d c : Nat) (q : Issued) : Option (Nat × Nat) := q.gates.find? fun g => !gateOpen s d c q.slot g

/-- A read held at a queue or an addition: counted once. -/
def holdRead (d c key t : Nat) (g : Nat × Nat) (s : State) : State :=
  if (coreOf s d c).held.any fun h => h.key == key then s
  else
    let s := odInc (finc s (coreB d c) F.CORE_CNT_GWAIT_COUNT) (0x3050 + d) 1
    modCore s d c fun x => { x with held := x.held ++ [⟨key, t, g.1, g.2⟩] }

/-- A queue of commands. -/
def queueAt (s : State) (d c key : Nat) : List Issued := tget (fun _ => []) (coreOf s d c).queues key

/-- A queue stored. -/
def setQueueAt (d c key : Nat) (l : List Issued) (s : State) : State :=
  modCore s d c fun x => { x with queues := tset (fun _ => []) x.queues key l }

/-- The front command of a queue taken out of it to run: its hold is over, and the releases it carries are due.
(DEDUCED: notes/assumptions/17.md.) -/
def popQueue (d c key : Nat) (s : State) : State :=
  match queueAt s d c key with
  | [] => s
  | q :: l =>
    modCore (setQueueAt d c key l s) d c fun x => { x with
      held := x.held.filter (fun h => h.key != key), relDue := x.relDue ++ q.rels.map fun r => (q.slot, r) }

/-- The front command of a queue run, where it is wanted and its gates let it start (R287, Table 11.4).
(DEDUCED: notes/assumptions/17.md.) -/
def runFront (d c key : Nat) (want : List Byte → Bool) (act : Issued → State → State) (s : State) : State :=
  match queueAt s d c key with
  | [] => s
  | q :: _ =>
    if !want q.body || coreFenced s d c then s
    else
      match gateHolds s d c q with
      | some g => holdRead d c key q.slot g s
      | none => act q (popQueue d c key s)

/-- A unit at work (0–3 porter channels, 4 attention engine). -/
def runOf (s : State) (d c u : Nat) : Option Run := tget (fun _ => none) (coreOf s d c).runs u

/-- A unit's work stored. -/
def setRun (d c u : Nat) (r : Option Run) (s : State) : State :=
  modCore s d c fun x => { x with runs := tset (fun _ => none) x.runs u r }

/-- A tile operation changed. -/
def modOp (d c no : Nat) (f : TileOp → TileOp) (s : State) : State :=
  modCore s d c fun x => { x with ops := x.ops.map fun o => if o.no = no then f o else o }

/-- The key of the hold of a tile operation's addition (R287: a loom command's gated read is held at the tally addition). -/
def addKey (no : Nat) : Nat := 64 + no

/-- A hold that has lasted FILLWAIT over: counted, with the notice, and the stitch check fails (R289); what the slot holds is
open (R297). -/
def fillTimeout (d c key t ds detail : Nat) (s : State) : State :=
  let z := dslotOf s d c t ds
  let s := openWin d c t z.base z.len s
  let s := modCore s d c fun x => { x with held := x.held.filter fun h => h.key != key }
  let s := odInc (finc s (coreB d c) F.CORE_CNT_FILLTO_COUNT) (0x3050 + d) 2
  failStitch d c t (notice 0x0100 d c detail s)

/-- FILLWAIT_EXPIRY (R289): a held read proceeds with whatever the slot holds; the fill timeout is counted and the stitch check
fails. -/
def fillwait (d c key : Nat) (s : State) : State :=
  if !((coreOf s d c).held.any fun h => h.key == key) then s
  else if key ≥ 64 then
    match (coreOf s d c).ops.find? fun o => addKey o.no == key with
    | none => s
    | some o =>
      match o.gates.find? fun g => !gateOpen s d c o.slot g with
      | none => s
      | some g => fillTimeout d c key o.slot g.1 o.entry (modOp d c o.no (fun o => { o with gates := o.gates.filter fun h => h != g }) s)
  else
    match queueAt s d c key with
    | [] => s
    | q :: l =>
      match gateHolds s d c q with
      | none => s
      | some g =>
        let s := setQueueAt d c key ({ q with gates := q.gates.filter fun h => h != g } :: l) s
        fillTimeout d c key q.slot g.1 (leAt q.body 0 8) s

/-- A data slot emptied: in poison mode each word is poisoned (R296), and a read before it is filled again is an unfilled read,
whose result is open (R297). -/
def emptySlot (d c t : Nat) (z : DSlot) (s : State) : State :=
  match relMap s d c t z.base z.len true with
  | some p => openRange d c p z.len (if fget s (coreB d c) F.CORE_PATCTL_POISON == 1 then poisonRange d c p z.len s else s)
  | none => s

/-- Whether a unit that is at work still reads a data slot that its command releases. -/
def stillReads (s : State) (d c t n : Nat) : Bool :=
  (List.range 5).any fun u => match runOf s d c u with
    | some r => r.q.slot == t && r.q.rels.contains n
    | none => false

/-- DATA_SLOT_RELEASE (R288): a release that is due, of a slot that nothing still reads, clears FULL and empties the slot. -/
def releaseSlot (d c t n : Nat) (s : State) : State :=
  if (coreOf s d c).relDue.contains (t, n) && !stillReads s d c t n then
    let s := modCore s d c fun x => { x with relDue := x.relDue.erase (t, n) }
    emptySlot d c t (dslotOf s d c t n) (modDslot d c t n (fun z => { z with full := false }) s)
  else s

/-- The bytes of a write of `n` bytes at relative `a` that land in a slot's range. -/
def landing (z : DSlot) (a n : Nat) : Nat :=
  if z.defined then min (a + n) (z.base + z.len) - max a z.base else 0

/-- A remote write counted in the data slots that it lands in (R286, R288): fills complete, and bytes that land while FULL is
set are overwrites, which leave what a consumer reads of them open (R297). -/
def landIn (d c t a n : Nat) (s : State) : State :=
  (List.range 32).foldl (fun s i =>
    let z := dslotOf s d c t i
    let k := landing z a n
    if k = 0 then s
    else
      let sum := z.landed + k
      let f := sum / z.len
      let lost := if z.full then k else if f > 0 then sum - z.len else 0
      let s := modDslot d c t i (fun z => { z with fills := (z.fills + f) % 256, full := z.full || decide (f > 0), landed := sum % z.len }) s
      if lost = 0 then s
      else
        let s := odInc (finc s (coreB d c) F.CORE_CNT_OVERWR_COUNT lost) (0x3050 + d) 3 lost
        let s := openWin d c t (min (a + n) (z.base + z.len) - lost) lost s
        if fget s (coreB d c) F.CORE_PATCTL_POISON == 1 then
          let tag := fget s (coreB d c) F.CORE_TTAG_TASKTAG t
          failStitch d c t (notice 0x0100 d c (unfilledDetail tag a 0) s)
        else s) s

/-- The VALID slot of a core with a task tag and tenant (R258). -/
def taskSlot (s : State) (d c tenant tag : Nat) : Option Nat :=
  (List.range 4).find? fun t =>
    fget s (coreB d c) F.CORE_TCTL_VALID t == 1 && fget s (coreB d c) F.CORE_TCTL_TENANT t == tenant &&
    fget s (coreB d c) F.CORE_TTAG_TASKTAG t == tag

/-- The relative ranges of a task window that a unit at work reads or writes: a porter descriptor's local source and destination, an attention
command's blocks and states (R297). -/
def unitRanges (s : State) (d c t u : Nat) : List (Nat × Nat) :=
  match runOf s d c u with
  | none => []
  | some r =>
    if r.q.slot ≠ t then []
    else
      let b := r.q.body
      let f := leAt b 2 1
      if u < 4 then
        let n := if leAt b 1 1 = 1 ∨ leAt b 1 1 = 5 then leAt b 24 4 % 2 ^ 28 else leAt b 24 4 % 2 ^ 28 * leAt b 36 2
        (if natBit f 1 && leAt b 1 1 != 2 then [(leAt b 8 8 % 2 ^ 21, n)] else []) ++
          if natBit f 2 && (leAt b 1 1 == 1 || leAt b 1 1 == 2) then [(leAt b 16 8 % 2 ^ 21, n)] else []
      else
        let q := addr21 b 2
        let h := match relMap s d c t q 16 false with | some m => mread s (spadAddr d c m) 16 | none => []
        let m := leAt h 4 2 * (leAt b 12 1 % 32)
        [(q, 16 + 128 * m), (addr21 b 5, 528 * m), (addr21 b 8, 528 * m)]

/-- What an arrival lands on while a unit at work uses it is open (Table 10.10, R297). (DEDUCED: notes/assumptions/12.md.) -/
def openShared (d c t a n : Nat) (s : State) : State :=
  ((List.range 5).flatMap fun u => unitRanges s d c t u).foldl (fun s q =>
    let lo := max a q.1
    let hi := min (a + n) (q.1 + q.2)
    if lo < hi then openWin d c t lo (hi - lo) s else s) s

/-- A push whose partner has been fenced before it arrives (R272): discarded, with the sender's notice and a failed stitch check. -/
def pushLost (r : Remote) (s : State) : State :=
  let k := (r.unit - 1) / 4
  let s := notice 0x0100 (k / 72) (k % 72) r.rel s
  match taskSlot s (k / 72) (k % 72) r.tenant r.tag with
  | some t => failStitch (k / 72) (k % 72) t s
  | none => s

/-- Whether a write on its way is a neighbour-port push. -/
def isPush (r : Remote) : Bool := decide (2 ^ 20 ≤ r.src) && decide (r.src < 2 ^ 21)

/-- The arrival of a remote write (R258): mapped through the matching slot's task window, or dropped and counted. -/
def arrive (r : Remote) (s : State) : State :=
  let drop (s : State) : State :=
    let s := odInc (finc s (coreB r.die r.core) F.SPAD_CNT_RDROP_COUNT) (0x3030 + r.die) 4
    notice 0x0400 r.die r.core r.rel s
  if isPush r && coreFenced s r.die r.core then pushLost r s
  else
    match taskSlot s r.die r.core r.tenant r.tag with
    | none => drop s
    | some t =>
      match relMap s r.die r.core t r.rel r.bytes.length true with
      | none => drop s
      | some p =>
        let s := landIn r.die r.core t r.rel r.bytes.length (spWrite r.die r.core p r.bytes s)
        openTargets r.die r.core t r.rel r.bytes.length (openShared r.die r.core t r.rel r.bytes.length s)

/-- REMOTE_WRITE_ARRIVAL (R258, R272): a write on its way arrives; writes of one source to one core arrive in order.
(DESIGN CHOICE: notes/assumptions/13.md.) -/
def arrival (i : Nat) (s : State) : State :=
  match s.wire[i]? with
  | none => s
  | some r =>
    if (s.wire.take i).any fun x => x.src == r.src && x.die == r.die && x.core == r.core then s
    else arrive r { s with wire := s.wire.eraseIdx i }

/-- POISONED_LINE_RELOAD (R251): the housekeeping controller rewrites a poisoned line of the shared window. The bytes are those
that the line holds in its DRAM source, the ones it held before the error. -/
def reloadLine (d c line : Nat) (s : State) : State :=
  let b := coreB d c
  let lo := fget s b F.CORE_SHWIN_SBASE * 64
  if (coreOf s d c).poisoned.contains line ∧ lo ≤ line ∧ line < lo + fget s b F.CORE_SHWIN_SLEN * 64 then
    modCore s d c fun x => { x with poisoned := x.poisoned.filter fun k => k != line, upsets := x.upsets.filter fun u => u.1 / 16 != line }
  else s

/-! ### The commands -/

/-- FILLWAIT_EXPIRY (R289). -/
def execFillwaitExpiry (d c key : Nat) (s : State) : Host.Outcome State Fault Refusal := .next (fillwait d c key s)
/-- DATA_SLOT_RELEASE (R288). -/
def execDataSlotRelease (d c slot ds : Nat) (s : State) : Host.Outcome State Fault Refusal := .next (releaseSlot d c slot ds s)
/-- REMOTE_WRITE_ARRIVAL (R258). -/
def execRemoteWriteArrival (i : Nat) (s : State) : Host.Outcome State Fault Refusal := .next (arrival i s)
/-- POISONED_LINE_RELOAD (R251). -/
def execPoisonedLineReload (d c line : Nat) (s : State) : Host.Outcome State Fault Refusal := .next (reloadLine d c line s)

end Sys2Proof.Machine
end

