-- ==== Sys2Proof/Machine/Bodies.lean ====
section
/-! DEFINITION. The fields of engine command bodies and which bodies an engine discards (R9, R122, R252, R263, R264, R266,
R268). -/

namespace Sys2Proof.Machine

/-- Whether a version byte is of major version 1 (R7). -/
def verOk (b : List Byte) : Bool := leAt b 0 1 / 16 == 1

/-! ### Vector commands (Table 10.5) -/

/-- The fields of a vector command. -/
structure VecCmd where
  op : Nat
  a : Nat
  b : Nat
  dst : Nat
  aux : Nat
  n : Nat
  sfmt : Nat
  dfmt : Nat
  mode : Nat
  shift : Int
  param : Nat
  param2 : Nat
  deriving DecidableEq, Repr

/-- A vector command's fields read from its body. -/
def vecOf (b : List Byte) : VecCmd :=
  ⟨leAt b 1 1, addr21 b 2, addr21 b 5, addr21 b 8, addr21 b 11, leAt b 14 2, leAt b 16 1 % 4, leAt b 16 1 / 4 % 4, leAt b 17 1,
    sext 6 (leAt b 18 1), leAt b 20 4, leAt b 24 4⟩

/-- Whether the fields that an operation does not use are zero, and those it uses hold no reserved encoding (R252, R263, R264,
R384). -/
def vecFields (v : VecCmd) : Bool :=
  let z (l : List Nat) : Bool := l.all fun x => x == 0
  let sh := v.shift == 0
  match v.op with
  | 1 => decide (v.n ≤ 512) && decide (v.sfmt < 2) && decide (v.mode < 4) && v.dst % 32 == 0 && z [v.b, v.dfmt, v.param, v.param2]
  | 2 =>
    match v.mode with
    | 0 => sh && z [v.aux, v.param2]
    | 1 => sh && z [v.b, v.aux, v.dfmt, v.param, v.param2]
    | 2 => sh && z [v.param2]
    | _ => false
  | 3 =>
    match v.mode with
    | 0 => sh && z [v.aux, v.param, v.param2]
    | 1 => sh && z [v.b, v.aux, v.param, v.param2]
    | _ => false
  | 4 => decide (1 ≤ v.mode) && decide (v.mode ≤ 128) && sh && z [v.b, v.aux]
  | 5 | 6 => sh && z [v.aux, v.mode, v.param, v.param2]
  | 7 => z [v.b, v.aux, v.mode, v.param, v.param2]
  | 8 =>
    match v.mode with
    | 0 => sh && z [v.b, v.aux, v.sfmt, v.dfmt]
    | 1 => sh && z [v.aux, v.sfmt, v.dfmt, v.param, v.param2]
    | 2 => sh && z [v.b, v.sfmt, v.dfmt, v.param, v.param2]
    | 3 => sh && z [v.sfmt, v.dfmt, v.param, v.param2]
    | _ => false
  | 9 => decide (v.mode < 32) && decide (v.mode % 8 < 6) && !(v.mode % 8 == 5 && natBit v.mode 3) && sh && z [v.b, v.aux, v.sfmt, v.dfmt] &&
    (v.mode % 8 == 4 || v.param2 == 0) && (v.mode % 8 != 5 || v.param == 0)
  | _ => false

/-- Whether the vector engine discards a body. -/
def vecBad (b : List Byte) : Bool := !verOk b || leAt b 14 2 == 0 || !vecFields (vecOf b)

/-- The rows of an outlier list; none where it is malformed (R186, Table 7.2). -/
def outlierRows (addr : Nat) (b : List Byte) : Option (List Nat) :=
  let n := leAt b 1 1
  let rows := (List.range n).map fun m => leAt b (2 + 2 * m) 2
  let asc := (rows.zip (rows.drop 1)).all fun p => decide (p.1 < p.2)
  if addr % 16 ≠ 0 ∨ !verOk b ∨ n > 32 ∨ !asc ∨ !(rows.all fun r => decide (r < 512)) then none else some rows

/-- The bytes of an outlier list read: two, then the rows that its COUNT names (R186). -/
def readList (d c : Nat) (p : Port) (q : Issued) (a : Nat) (s : State) : Option (List Byte) × State :=
  match winRead d c p q a 2 s with
  | (none, s) => (none, s)
  | (some h, s) =>
    let n := leAt h 1 1
    if n = 0 ∨ n > 32 then (some h, s)
    else
      match winRead d c p q (a + 2) (2 * n) s with
      | (none, s) => (none, s)
      | (some r, s) => (some (h ++ r), s)

/-! ### Attention commands (Table 10.8) -/

/-- Whether the attention engine discards a body: a reserved encoding, or a field outside its range. -/
def attnBad (b : List Byte) : Bool :=
  let op := leAt b 1 1
  let h := leAt b 12 1 % 32
  let n := leAt b 28 4 % 2 ^ 22
  !verOk b || op == 0 || decide (op > 3) || h == 0 || decide (h > 16) || decide (leAt b 24 4 % 2 ^ 21 ≥ 2 ^ 20) || n == 0 || decide (n > 2 ^ 20)

/-! ### Porter descriptors (Table 10.9) -/

/-- Whether the porter rejects a descriptor: a reserved operation, a field out of its range, or a non-zero field that must be
0 (R268, R271, R414). -/
def porterBad (b : List Byte) : Bool :=
  let op := leAt b 1 1
  let fl := leAt b 2 1
  let len := leAt b 24 4 % 2 ^ 28
  let cnt := leAt b 36 2
  let dec := natBit fl 0
  let kv := op == 4 && !natBit fl 2 && decide (leAt b 16 8 / 2 ^ 62 = 3)
  let listed := (op == 2 || op == 3 || op == 4) && !kv
  !verOk b || op == 0 || decide (op > 5) || len == 0 || leAt b 28 4 % 2 ^ 28 != 0 ||
  (listed && (len % 64 != 0 || cnt == 0 || decide (cnt > 4096))) ||
  (!listed && (cnt != 0 || addr21 b 32 != 0)) ||
  (kv && (len != 256 || natBit (leAt b 16 8) 13)) ||
  (op != 5 && natBits fl 3 2 != 0) ||
  (dec && (leAt b 8 8 % 4096 != 0 || len % 4096 != 0)) || (!dec && (leAt b 4 2 != 0 || leAt b 40 8 != 0))

/-! ### Loom commands (Table 4.7) -/

/-- Whether the loom discards a body (R122): also one that only the housekeeping controller issues (R121). -/
def loomBad (b : List Byte) : Bool :=
  let op := leAt b 1 1
  !verOk b || op == 0 || decide (op > 2) || (op == 2 && natBit (leAt b 13 1) 0) || leAt b 4 4 % 2 ^ 21 % 32 != 0

/-- Whether the loom discards a housekeeping command of an operation (R121, R122). -/
def probeBad (op : Nat) (b : List Byte) : Bool := !verOk b || leAt b 1 1 != op || leAt b 4 4 % 2 ^ 21 % 32 != 0

/-! ### Tally commands (Table 6.4) -/

/-- The fields of a tally command. -/
structure TallyCmd where
  op : Nat
  a : Nat
  b : Nat
  c : Nat
  post : Int
  n : Nat
  bf16 : Bool
  wsen : Bool
  accum : Bool
  expect : Nat
  deriving DecidableEq, Repr

/-- A tally command's fields read from its body. -/
def tallyOf (b : List Byte) : TallyCmd :=
  ⟨leAt b 1 1, addr21 b 2, addr21 b 5, addr21 b 8, sext 8 (leAt b 11 1), leAt b 12 2, natBit (leAt b 14 1) 0, natBit (leAt b 14 1) 1,
    natBit (leAt b 14 1) 2, leAt b 15 1⟩

/-- Whether the tally discards a body (R169): a reserved OP, a misaligned address, a field that must be 0, a count out of range,
a MERGE whose source and destination overlap. -/
def tallyBad (b : List Byte) : Bool :=
  let t := tallyOf b
  let len := 16 + 16 * t.n
  !verOk b || t.op == 0 || decide (t.op > 3) || t.a % 16 != 0 || t.b % 16 != 0 || t.n == 0 || decide (t.n > 192) ||
  (t.op == 3 && t.b != 0) || (!(t.op == 2 && t.wsen) && t.c != 0) || (t.op != 2 && t.post != 0) ||
  (t.op == 1 && decide (t.a < t.b + len) && decide (t.b < t.a + len))

/-! ### Mender commands (Table 7.5) -/

/-- The fields of a mender command. -/
structure MendCmd where
  op : Nat
  x : Nat
  w : Nat
  out : Nat
  ws : Nat
  l : Nat
  pre : Int
  xbf16 : Bool
  wfmt : Nat
  fp8 : Bool
  wsen : Bool
  adapt : Bool
  k : Nat
  n : Nat
  m : Nat
  xstr : Nat
  ostr : Nat
  tile : Nat
  deriving DecidableEq, Repr

/-- A mender command's fields read from its body. -/
def mendOf (b : List Byte) : MendCmd :=
  let f := leAt b 18 1
  ⟨leAt b 1 1, addr21 b 2, addr21 b 5, addr21 b 8, addr21 b 11, addr21 b 14, sext 6 (leAt b 17 1), natBit f 0, natBits f 1 2,
    natBit f 3, natBit f 4, natBit f 5, leAt b 20 2 % 1024, leAt b 22 1, leAt b 24 1 % 16 + 1, leAt b 26 2, leAt b 28 2, leAt b 30 2⟩

/-- Whether the mender discards a body (R196): a reserved OP or encoding, a field that must be 0, a misaligned target, a count out
of range. -/
def mendBad (b : List Byte) : Bool :=
  let m := mendOf b
  let kBad : Bool := match m.op with
    | 1 | 5 => m.k == 0 || decide (m.k > 512)
    | 2 => m.k == 0 || decide (m.k > 64)
    | 3 => decide (m.k > 32) || (m.l == 0 && m.k != 0)
    | _ => m.k != 0
  !verOk b || m.op == 0 || decide (m.op > 5) || m.out % 16 != 0 || (m.op == 4 && m.w != 0) ||
  (!m.wsen && m.ws != 0) || (m.op != 3 && m.l != 0) || (m.op == 2 && m.pre != 0) || (m.op == 4 && !m.xbf16) || m.wfmt == 3 ||
  (m.fp8 && m.wfmt == 0) || kBad || m.n == 0 || decide (m.n > 192) || (m.op == 1 && decide (m.n > 64)) ||
  ((m.op == 3 || m.op == 4) && m.m != 1) || (m.op != 3 && m.tile != 0)

/-- The targets that a mender command adds to: one for each vector. -/
def mendTargets (m : MendCmd) : List Nat := (List.range m.m).map fun i => m.out + 16 * m.ostr * i

end Sys2Proof.Machine
end

