-- ==== Sys2Proof/Machine/Pattern.lean ====
section
/-! DEFINITION. The role that a core runs in a step, and placing it in the core's windows (spec/11_patterns.md R278, R281, R294). -/

namespace Sys2Proof.Machine

/-- The role that a core runs in a step: its own, or the alternate where a neighbour was missing at the step's boundary (R294).
(DEDUCED: notes/assumptions/19.md.) -/
def roleFor (alts : List Nat) (img : List Byte) (i k : Nat) : RoleEnt :=
  let r := roleAt img i
  if !alts.contains k || r.alt = 0xFFFF then r else roleAt img r.alt

/-- The pattern image of a step in flight: that of its generation and bucket. -/
def stepImage (s : State) (b num : Nat) : Option (Gen × List Byte) :=
  match stepOf s b num with
  | none => none
  | some t =>
    match genOf s b t.gen, s.models.pats.find? (fun p =>
        p.binding == b && p.gen == t.gen && p.obj == 0 && p.maxpos == t.bucket && (!p.old || p.steps.contains num)) with
    | some g, some p => some (g, p.bytes)
    | _, _ => none

/-- The cores that run alternates in a step. -/
def stepAlts (s : State) (b num : Nat) : List Nat := match stepOf s b num with | some t => t.alts | none => []

/-- The role of a core in a step, where an image is loaded that gives one; a cover host runs the role of the core that it covers. (DEDUCED: notes/assumptions/19.md.) -/
def stepRole (s : State) (b num d c : Nat) : Option (List Byte × RoleEnt) :=
  match stepImage s b num with
  | none => none
  | some (g, img) =>
    let k := coverSource s d c
    ((genCores g).idxOf? (coreKey k.1 k.2)).map fun i => (img, roleFor (stepAlts s b num) img i (coreKey d c))

/-- Whether a core lacks a neighbour of its role in a step and the role has no alternate: it is placed nowhere there (R294). -/
def roleBlocked (s : State) (b num d c : Nat) : Bool :=
  match stepRole s b num d c with
  | some (_, r) => (stepAlts s b num).contains (coreKey d c) && r.alt == 0xFFFF && r.adj != 0
  | none => false

/-- `n` bytes at a virtual address that a context maps in its own die's DRAM, page by page; none where a page is not; `k` bounds the
pages. -/
def readMapped (s : State) (d tctx tenant : Nat) : Nat → Nat → Nat → Option (List Byte)
  | 0, _, _ => some []
  | k + 1, va, n =>
    if n = 0 then some []
    else
      let m := min n (2 ^ 16 - va % 2 ^ 16)
      match pageWalk s d tctx tenant va with
      | .leaf big pte =>
        if natBits pte 4 2 = 0 ∧ natBits pte 48 14 = dieNum s d then
          (readMapped s d tctx tenant k ((va + m) % 2 ^ 48) (n - m)).map fun l =>
            mread s (dramAddr d (pteAddr pte + va % (if big then 2 ^ 21 else 2 ^ 16))) m ++ l
        else none
      | .bad _ _ => none

/-- The bytes that a manifest entry's source holds: an image part of the binding mapped at the address (R358), or what the binding's
translation context maps there (R278). -/
def manifBytes (s : State) (gen d tctx tenant va n : Nat) : Option (List Byte) :=
  match s.models.parts.find? fun p => p.gen == gen && p.die == d && decide (p.va ≤ va) && decide (va + n ≤ p.va + p.len) with
  | some p => some (mread s (dramAddr d (p.addr + (va - p.va))) n)
  | none => readMapped s d tctx tenant 18 va n

/-- A role placed on a core: its stream, gate list and patch list in the pattern window from offset 0, and its manifest in the
shared window (R278). What the context does not map leaves its place in the window open (R297). (DEDUCED: notes/assumptions/12.md.) -/
def placeRole (d c pbase gen tctx tenant : Nat) (img : List Byte) (r : RoleEnt) (s : State) : State :=
  let base := pbase * 4096
  let s := spWrite d c base (sliceBytes img r.block r.streamLen) s
  let s := spWrite d c (base + r.streamLen) (sliceBytes img r.gateOff (8 * r.ngate)) s
  let s := spWrite d c (base + up16 (r.streamLen + 8 * r.ngate)) (sliceBytes img r.patchOff (8 * r.npatch)) s
  let b := coreB d c
  let sb := fget s b F.CORE_SHWIN_SBASE * 4096
  let sl := fget s b F.CORE_SHWIN_SLEN * 4096
  (roleManif img r).foldl (fun s m =>
    if m.2.1 + m.2.2 > sl then s
    else
      match manifBytes s gen d tctx tenant m.1 m.2.2 with
      | some l => spWrite d c (sb + m.2.1) l s
      | none => openRange d c (sb + m.2.1) m.2.2 s) s

end Sys2Proof.Machine
end

