-- ==== Sys2Proof/Machine/Drift.lean ====
section
/-! DEFINITION. Drift entries from an array's evaluation, column table and temperature, and their staging
(spec/08_accuracy_and_drift.md R209, R210, spec/07_mender.md R189). -/

namespace Sys2Proof.Machine

/-- A finite FP32 value as a fraction. -/
def f32Rat (x : Nat) : Rat := (f32Dy x).rat

/-- A dictionary entry of type F32 as a fraction. -/
def odRat (s : State) (idx : Nat) (sub : Nat := 0) : Rat := f32Rat (odNum s idx sub)

/-- A fraction rounded to the nearest integer, ties to even (R209). -/
def ratRne (q : Rat) : Int :=
  let f := q.floor
  let r := q - f
  if r < 1 / 2 then f else if r > 1 / 2 then f + 1 else if f % 2 = 0 then f else f + 1

/-- A temperature in units of 2^−6 °C as a fraction of degrees. -/
def degrees (t : Int) : Rat := (t : Rat) / 64

/-- The outputs of an array's mode. -/
def arrOutputs (s : State) (key : Nat) : Nat := if (arrOf s key).mode = 1 then 192 else 128

/-- Column gain and offset of each output; 1 and 0 before the first column table. -/
def colTable (s : State) (key : Nat) : List (Rat × Rat) :=
  let n := arrOutputs s key
  let l := (accOf s key).col.take n
  l ++ List.replicate (n - l.length) (1, 0)

/-- TSTEP and α of an array, which a change meets at the array's next evaluation (R216). -/
def driftCfg (s : State) (d key : Nat) : Rat × Rat := (accOf s key).cfg.getD (odRat s 0x4204, odRat s (0x4240 + d))

/-- The gain ρ′ at the core's present temperature (R209). -/
def rhoNow (s : State) (d c a : Nat) : Rat :=
  let x := accOf s (arrKey d c a)
  x.rho * (1 + (driftCfg s d (arrKey d c a)).2 / 100 * (degrees (junction s d c) - degrees x.tev))

/-- The drift entries of every output before limiting: GAIN and OFFS. -/
def driftRaw (s : State) (d c a : Nat) : List (Int × Int) :=
  let key := arrKey d c a
  let r := rhoNow s d c a
  let dom := (accOf s key).dom
  (colTable s key).map fun p => (ratRne (1024 * (1 / (p.1 * r) - 1)), ratRne (-4 * (p.2 + 128 * dom)))

/-- The magnitude of a fraction. -/
def ratAbs (q : Rat) : Rat := if q < 0 then -q else q

/-- Whether a column gain is further than 8 % from 1 (R225). -/
def gainOff (g : Rat) : Bool := decide (ratAbs (g - 1) > 8 / 100)

/-- Whether a column offset exceeds 24 product units (R225). -/
def offsOff (o : Rat) : Bool := decide (ratAbs o > 24)

/-- A drift entry limited to −128..127. -/
def limit8 (x : Int) : Int := clampInt (-128) 127 x

/-- An array's drift entries put into its staging record, with GCLAMP and OCLAMP as they come out; outputs marked under R225 count as
limited. Both are counted: GCLAMP in OD 0x4210 + n .07 (R209). (DEDUCED: notes/assumptions/52.md.) -/
def putStaged (d c a : Nat) (s : State) : State :=
  let key := arrKey d c a
  let raw := driftRaw s d c a
  let col := colTable s key
  let g := (raw.any fun p => limit8 p.1 != p.1) || (accOf s key).marks.any fun j => gainOff (col.getD j (1, 0)).1
  let o := (raw.any fun p => limit8 p.2 != p.2) || (accOf s key).marks.any fun j => offsOff (col.getD j (1, 0)).2
  let t := junction s d c
  let s := { s with loom := { s.loom with oclamps := tmod (fun _ => 0) s.loom.oclamps d (· + b2n o) } }
  let s := modAcc key (fun x => { x with gclamp := g, oclamp := o, tnext := t }) (odInc s (0x4210 + d) 7 (b2n g))
  modCore s d c fun x => { x with staged := (x.staged.filter fun p => p.1 != a) ++ [(a, raw.map fun p => (limit8 p.1, limit8 p.2))] }

/-- An array's entries staged, or waiting where eight arrays are staged (R189, R210). A temperature update does not replace a staged
record (Table 8.9). -/
def stageDrift (d c a : Nat) (replace : Bool) (s : State) : State :=
  let st := (coreOf s d c).staged
  if st.any fun p => p.1 == a then (if replace then putStaged d c a s else s)
  else if st.length < 8 then putStaged d c a s
  else modCare d c (fun x => { x with stageQ := if x.stageQ.contains a then x.stageQ else (x.stageQ ++ [a]).mergeSort fun i j => decide (i ≤ j) }) s

/-- Arrays that wait staged while there is room, in ascending order; `k` bounds them. -/
def stageWaiting (d c : Nat) : Nat → State → State
  | 0, s => s
  | k + 1, s =>
    match (careOf s d c).stageQ with
    | [] => s
    | a :: l =>
      if (coreOf s d c).staged.length < 8 then stageWaiting d c k (putStaged d c a (modCare d c (fun x => { x with stageQ := l }) s))
      else s

/-- Whether an array's in-force entries lag its core's temperature by more than TSTEP + 1.3 K (R210). -/
def entriesLag (s : State) (d c a : Nat) : Bool :=
  let dt := degrees (junction s d c - (accOf s (arrKey d c a)).ts)
  decide (ratAbs dt > (driftCfg s d (arrKey d c a)).1 + 13 / 10)

end Sys2Proof.Machine
end

