-- ==== Sys2Proof/Machine/Sequencer.lean ====
section
/-! DEFINITION. The sequencer of a core: stream fetch, patches, gates, WAIT, issue to the engine queues, task slots and the stitch
boundary (spec/10_core_and_scratchpad.md R252–R262, spec/11_patterns.md R287–R291). -/

namespace Sys2Proof.Machine

/-! ### Choosing a slot (R260) -/

/-- Whether a slot is one that the sequencer may take: VALID, PREEMPT clear, its stream unfinished, not suspended, not held (R467). -/
def slotReady (s : State) (d c t : Nat) : Bool :=
  let b := coreB d c
  fget s b F.CORE_TCTL_VALID t == 1 && fget s b F.CORE_TCTL_PREEMPT t == 0 && fget s b F.CORE_TCTL_ENDED t == 0 &&
  fget s b F.CORE_TCTL_SUSPENDED t == 0 && !natBit (fget s b F.CORE_MHOLD_HOLD) t && !(taskOf s d c t).leaving

/-- The next ready slot in ascending order after the current one, wrapping round; the current one comes last. -/
def nextSlot (s : State) (d c : Nat) : Option Nat :=
  let cur := fget s (coreB d c) F.CORE_STAT_SLOT
  [(cur + 1) % 4, (cur + 2) % 4, (cur + 3) % 4, cur].find? fun t => slotReady s d c t

/-- The next slot taken by a core that stands at a boundary and has none for its next stitch (R260). -/
def takeSlot (d c : Nat) (s : State) : State :=
  let b := coreB d c
  if fget s b F.CORE_STAT_BOUNDARY == 0 || ((coreOf s d c).taken && slotReady s d c (fget s b F.CORE_STAT_SLOT)) then s
  else
    match nextSlot s d c with
    | some t => modCore (fset s b F.CORE_STAT_SLOT t) d c fun x => { x with taken := true }
    | none => modCore s d c fun x => { x with taken := false }

/-- The slot that issues: the current one during a stitch, and at a boundary where the sequencer has taken it. -/
def issuingSlot (s : State) (d c : Nat) : Option Nat :=
  if fget s (coreB d c) F.CORE_STAT_BOUNDARY == 0 || (coreOf s d c).taken then some (fget s (coreB d c) F.CORE_STAT_SLOT) else none

/-! ### The pattern window -/

/-- The physical offset of a slot's pattern window. -/
def patBase (s : State) (d c t : Nat) : Nat := fget s (coreB d c) F.CORE_TPAT_BASE t * 4096

/-- Bytes of the pattern window. -/
def patRead (s : State) (d c t off n : Nat) : List Byte := mread s (spadAddr d c (patBase s d c t + off)) n

/-- The entries of a list of the pattern window that name an entry offset, each with its own offset. -/
def entriesAt (s : State) (d c t base n pc : Nat) : List (Nat × Nat) :=
  (List.range n).filterMap fun i =>
    let g := leNat (patRead s d c t (base + 8 * i) 8)
    if g % 2 ^ 20 = pc then some (base + 8 * i, g) else none

/-- The gate entries of an entry offset, with where they stand. -/
def gatesAt (s : State) (d c t pc : Nat) : List (Nat × Nat) :=
  let k := taskOf s d c t
  entriesAt s d c t k.streamLen k.ngate pc

/-- The patch entries of an entry offset, with where they stand: the list starts at the next multiple of 16 after the gate list. -/
def patchesAt (s : State) (d c t pc : Nat) : List (Nat × Nat) :=
  let k := taskOf s d c t
  entriesAt s d c t ((k.streamLen + 8 * k.ngate + 15) / 16 * 16) k.npatch pc

/-- The gate entries of an entry offset (R287): KIND, data slot, fill. -/
def gateEntries (s : State) (d c t pc : Nat) : List (Bool × Nat × Nat) :=
  (gatesAt s d c t pc).map fun g => (natBit g.2 20, natBits g.2 24 5, natBits g.2 32 8)

/-- The patch entries of an entry offset (R290): first byte within the entry, width, parameter. -/
def patchEntries (s : State) (d c t pc : Nat) : List (Nat × Nat × Nat) :=
  (patchesAt s d c t pc).map fun g => (natBits g.2 20 7, natBits g.2 27 3 + 1, natBits g.2 32 5)

/-- A body with parameters patched in (R290): parameter p is bytes 8p to 8p + 7 of the parameter block, data slot 0. The sequencer reads
them as any consumer does (R250, R296); none where one is not to be had. -/
def patchBody (d c t pc : Nat) : List (Nat × Nat × Nat) → List Byte → State → Option (List Byte) × State
  | [], b, s => (some b, s)
  | p :: l, b, s =>
    match winRead d c .sequencer ⟨0, t, pc, [], [], [], 0⟩ ((dslotOf s d c t 0).base + 8 * p.2.2) p.2.1 s with
    | (none, s) => (none, s)
    | (some v, s) =>
      let i := p.1 - 16
      patchBody d c t pc l (if 16 ≤ p.1 ∧ i + p.2.1 ≤ b.length then b.take i ++ v ++ b.drop (i + p.2.1) else b) s

/-- Ranges of the pattern window fetched by the sequencer (R251): whether every word is to be had. -/
def fetchOk (d c t : Nat) : List (Nat × Nat) → State → Bool × State
  | [], s => (true, s)
  | (off, n) :: l, s =>
    match takeRange d c t .sequencer (patBase s d c t + off) n s with
    | (false, s) => (false, s)
    | (true, s) => fetchOk d c t l s

/-! ### Queues -/

/-- The queue that a command goes to: a loom command to lane ARRAY[3:0] (R259). -/
def queueKey (eng : Nat) (body : List Byte) : Nat := if eng = 1 then leAt body 2 2 % 16 else 15 + eng

/-- The places of an engine's queue (R259). -/
def queueDepth (eng : Nat) : Nat := if eng = 1 then 4 else if eng = 2 ∨ eng = 3 then 16 else 8

/-- Commands of an engine issued and not completed (bit of WAIT). -/
def outOf (s : State) (d c e : Nat) : Nat := tget (fun _ => 0) (coreOf s d c).out e

/-- Whether bytes that a porter channel has written are still on their way, to a core of its die or of another die of this module (R259).
A write that has left the module is not waited for. (DESIGN CHOICE: notes/assumptions/78.md.) -/
def inFlight (s : State) (u : Nat) : Bool :=
  (s.wire.any fun r => r.unit == u) ||
  s.fab.wire.any fun p => p.2.any fun x => x.typ == 1 && x.reqid == u && dieList.any fun d => dieNum s d == x.src

/-- The number of a porter channel among those of the module, one more than its core's number × 4 + channel.
(DESIGN CHOICE: notes/assumptions/78.md.) -/
def unitOf (d c ch : Nat) : Nat := coreKey d c * 4 + ch + 1

/-- Commands of an engine whose work is not done: queued, or with an addition or an effect still open. Every command of a porter channel
counts while bytes that the channel has written are on their way. (DESIGN CHOICE: notes/assumptions/78.md.) -/
def busyOf (s : State) (d c e : Nat) : Nat :=
  let x := coreOf s d c
  match e with
  | 0 => (x.ops.filter fun o => o.st != 7).length
  | 1 => (queueAt s d c 17).length + x.adds.length
  | 2 | 3 => (queueAt s d c (16 + e)).length
  | 4 => (queueAt s d c 20).length + (if (runOf s d c 4).isSome then 1 else 0)
  | _ =>
    if inFlight s (unitOf d c (e - 5)) then outOf s d c e
    else (queueAt s d c (16 + e)).length + (if (runOf s d c (e - 5)).isSome then 1 else 0)

/-- Whether an engine rejects a body (R259). -/
def bodyBad (eng : Nat) (b : List Byte) : Bool :=
  match eng with
  | 1 => loomBad b
  | 2 => mendBad b
  | 3 => tallyBad b
  | 4 => vecBad b
  | 5 => attnBad b
  | _ => porterBad b

/-- The tally targets that a command names, whose additions take effect in issue order (R168). -/
def targetsOf (eng : Nat) (b : List Byte) : List Nat :=
  match eng with
  | 1 => [leAt b 8 4 % 2 ^ 21]
  | 2 => mendTargets (mendOf b)
  | 3 => let t := tallyOf b; if t.op = 1 then [t.a, t.b] else [t.a]
  | _ => []

/-! ### Tile operations begun (R142, R147) -/

/-- The layer of a task's present stitch. -/
def layerOf (s : State) (d c t : Nat) : Nat := (taskOf s d c t).layers.getD (taskOf s d c t).stitch 0

/-- The start level of a layer in a task's step and the floor that the step bound (R148, R149). -/
def startLevel (s : State) (d c t : Nat) : Nat × Nat :=
  let k := taskOf s d c t
  match stepOf s k.binding k.step with
  | some p => (max p.floor (p.levels.getD (layerOf s d c t) p.floor), p.floor)
  | none => let f := fget s (coreB d c) F.CORE_LADCTRL_FLOOR; (f, f)

/-- A loom command begun as a tile operation. -/
def beginOp (d c : Nat) (q : Issued) (s : State) : State :=
  let b := q.body
  let arr := leAt b 2 2 % 512
  let lv := startLevel s d c q.slot
  let op := leAt b 1 1
  let first := max lv.1 (op - 1)
  let lean := tileLean s d c arr
  let layer := layerOf s d c q.slot
  let o : TileOp := ⟨q.no, q.slot, q.entry, arr % 16, arr, op, leAt b 4 4 % 2 ^ 21, leAt b 8 4 % 2 ^ 21, leAt b 12 1 % 8,
    natBits (leAt b 12 1) 4 3, natBit (leAt b 13 1) 0, natBit (leAt b 13 1) 1, leAt b 14 2, layer, q.gates, q.rels, lean, first,
    decide (lv.2 = 2), 0, 0, 0, false, false, false, false, false, false, none, 0, 0, false, false, 0, 0, [], [], []⟩
  let s := odInc (finc s (coreB d c) F.CORE_LADCNT_BEG_COUNT) 0x4110 0
  modCore s d c fun x => { x with
    ops := x.ops ++ [o], counts := tmod (fun _ => (0, 0)) x.counts layer fun p => (p.1 + 1, p.2) }

/-! ### Issue (R259) -/

/-- The stream stopped (R251, R259): the F2 0x0102 fences the core. -/
def stopStream (d c : Nat) (s : State) : State := fault 0x0102 d c 0 s

/-- The idle slots of the lanes as the sequencer passes an entry (R292): the stretches that end there close, and those that begin there open
for the lanes whose queues are empty. -/
def passIdle (d c t pc : Nat) (s : State) : State :=
  let new := ((taskOf s d c t).idles.filter fun i => i.1 == pc).flatMap fun i =>
    ((List.range 16).filter fun l => natBit i.2.2 l && (queueAt s d c l).isEmpty).map fun l => (l, t, i.2.1)
  modCore s d c fun x => { x with
    idleLanes := (x.idleLanes.filter fun p => !(p.2.1 == t && p.2.2 == pc) && !(new.any fun q => q.1 == p.1)) ++ new }

/-- The entry taken: the stream position moves, stalls clear, idle slots open and close, and LAST and STITCH_END take effect. -/
def passEntry (d c t pc len flags : Nat) (s : State) : State :=
  let b := coreB d c
  let s := passIdle d c t pc (fset (fset s b F.CORE_STAT_STALL_Q 0) b F.CORE_STAT_STALL_W 0)
  let s := if fget s b F.CORE_STAT_BOUNDARY == 1 then modCore s d c fun x => { x with since := hubTime s } else s
  let s := fset (fset (modCore s d c fun x => { x with taken := false }) b F.CORE_STAT_RUNNING 1) b F.CORE_STAT_BOUNDARY 0
  let s := fset s b F.CORE_TPC_PC (pc + len) t
  let s := modTask d c t (fun k => { k with past := decide (pc + len ≥ 2 ^ 20) }) s
  let s := if natBit flags 1 then fset s b F.CORE_TCTL_ENDED 1 t else s
  if natBit flags 0 || natBit flags 1 then modCore s d c fun x => { x with ending := true } else s

/-- A command that an engine has rejected, or that was not put together: its releases are due. -/
def dropIssued (d c t : Nat) (rels : List Nat) (s : State) : State :=
  modCore s d c fun x => { x with relDue := x.relDue ++ rels.map fun r => (t, r) }

/-- The loom command that a TERM names (R191): the task's latest with its TILE_ID in the stitch. -/
def termOp (s : State) (d c t tile : Nat) : Option TileOp :=
  ((coreOf s d c).ops.filter fun o => o.slot == t && o.tile == tile).getLast?

/-- The data slots that an entry releases. -/
def relsAt (s : State) (d c t pc : Nat) : List Nat := ((gateEntries s d c t pc).filter fun x => x.1).map fun x => x.2.1

/-- A body issued to its engine, or rejected by it. -/
def issueBody (d c t pc eng : Nat) (body : List Byte) (s : State) : State :=
  let gates := ((gateEntries s d c t pc).filter fun x => !x.1).map fun x => x.2
  let rels := relsAt s d c t pc
  let detail := leAt body 0 8
  if bodyBad eng body then dropIssued d c t rels (if eng = 1 then notice 0x0200 d (16 * c + queueKey 1 body) detail s else notice 0x0100 d c detail s)
  else
    let isTerm := eng == 2 && leAt body 1 1 == 3
    let m := if isTerm then termOp s d c t (leAt body 30 2) else none
    if isTerm && m.isNone then dropIssued d c t rels (notice 0x0100 d c detail s)
    else
      let no := (coreOf s d c).nextNo
      let q : Issued := ⟨no, t, pc, body, gates, rels, match m with | some o => o.no + 1 | none => 0⟩
      let key := queueKey eng body
      let s := modCore s d c fun x => { x with
        nextNo := no + 1, out := tmod (fun _ => 0) x.out (eng - 1) (· + 1),
        order := if (targetsOf eng body).isEmpty then x.order else x.order ++ [(no, targetsOf eng body)] }
      let s := setQueueAt d c key (queueAt s d c key ++ [q]) s
      if eng = 1 then beginOp d c q s else s

/-- An entry whose header `h` has been fetched: it stalls, is skipped where its ENGINE is reserved, or goes to its engine with its parameters
patched in. Where a parameter is not to be had no command goes out (R251). -/
def issueEntry (d c t pc : Nat) (h : List Byte) (s : State) : State :=
  let b := coreB d c
  let eng := leAt h 1 1
  let len := 16 + bodyLen eng
  let flags := leAt h 2 1
  let ps := patchEntries s d c t pc
  if !ps.isEmpty && (dslotOf s d c t 0).fills == 0 then s
  else if (List.range 9).any fun e => natBit (leAt h 4 2) e && outOf s d c e != 0 then fset s b F.CORE_STAT_STALL_W 1
  else if eng = 0 ∨ eng > 9 then passEntry d c t pc len flags (coreNotice d c (leAt h 0 8) s)
  else
    match patchBody d c t pc ps (patRead s d c t (pc + 16) (bodyLen eng)) s with
    | (none, u) => dropIssued d c t (relsAt u d c t pc) (passEntry d c t pc len flags u)
    | (some body, u) =>
      if (queueAt s d c (queueKey eng body)).length ≥ queueDepth eng then
        fset (fset s b F.CORE_STAT_STALL_W 0) b F.CORE_STAT_STALL_Q 1
      else issueBody d c t pc eng body (passEntry d c t pc len flags u)

/-- The next entry of a slot fetched from its pattern window: the header, then the body and the list entries that name it (R251, R259). An
entry that begins at or ends beyond the window, has an unknown major version or cannot be read stops the stream. -/
def fetchEntry (d c t : Nat) (s : State) : State :=
  let b := coreB d c
  let pc := fget s b F.CORE_TPC_PC t
  let plen := fget s b F.CORE_TPAT_LEN t * 4096
  if pc + 16 > plen || (taskOf s d c t).past then stopStream d c s
  else
    match fetchOk d c t [(pc, 16)] s with
    | (false, s) => stopStream d c s
    | (true, s) =>
      let h := patRead s d c t pc 16
      let n := bodyLen (leAt h 1 1)
      if !verOk h || decide (pc + 16 + n > plen) then stopStream d c s
      else
        match fetchOk d c t ((pc + 16, n) :: (gatesAt s d c t pc ++ patchesAt s d c t pc).map fun g => (g.1, 8)) s with
        | (false, s) => stopStream d c s
        | (true, s) => issueEntry d c t pc h s

/-- SEQUENCER_ISSUE: the next entry of the issuing slot. (DEDUCED: notes/assumptions/17.md.) -/
def issue (d c : Nat) (s : State) : State :=
  let x := coreOf s d c
  if !coreRuns s d c || coreFenced s d c || dieState s d != 2 || x.ending || x.stopped then s
  else if fget s (coreB d c) F.CORE_STAT_BOUNDARY == 1 && stopWanted s then stopCore d c s
  else
    let s := takeSlot d c s
    match issuingSlot s d c with
    | none => s
    | some t => if fget s (coreB d c) F.CORE_TCTL_VALID t == 0 then s else fetchEntry d c t s

/-- SEQUENCER_STALL_END: a stalled sequencer resumes where the place has freed or the WAIT condition holds. -/
def stallEnd (d c : Nat) (s : State) : State :=
  if fget s (coreB d c) F.CORE_STAT_STALL_Q == 1 || fget s (coreB d c) F.CORE_STAT_STALL_W == 1 then issue d c s else s

/-- LANE_QUEUE_PLACE_FREE (R115): the stalled command is accepted where its lane's queue has a place. -/
def laneFree (d c lane : Nat) (s : State) : State :=
  if fget s (coreB d c) F.CORE_STAT_STALL_Q == 1 && decide ((queueAt s d c lane).length < 4) then issue d c s else s

/-- ENGINE_COMMAND_DONE (R259): a command of an engine (bit of WAIT) has completed. -/
def commandDone (d c e : Nat) (s : State) : State :=
  if outOf s d c e > busyOf s d c e then
    let s := modCore s d c fun x => { x with out := tmod (fun _ => 0) x.out e (· - 1) }
    let b := coreB d c
    match e with
    | 1 => finc s b F.MEND_CNT_CMD_COUNT
    | 3 => finc s b F.VEC_CNT_CMD_COUNT
    | 4 => finc s b F.ATTN_CNT_CMD_COUNT
    | 0 | 2 => s
    | _ => finc s b F.PORT_CNT_DESC_COUNT
  else s

/-! ### Task slots (R253, R254, R286) -/

/-- Whether two ranges of 4 KiB units overlap. -/
def overlaps (a la b lb : Nat) : Bool := decide (0 < la) && decide (0 < lb) && decide (a < b + lb) && decide (b < a + la)

/-- Whether a slot's windows meet R254. -/
def windowsOk (s : State) (d c t : Nat) (w : SlotCfg) : Bool :=
  let b := coreB d c
  let sb := fget s b F.CORE_SHWIN_SBASE
  let sl := fget s b F.CORE_SHWIN_SLEN
  decide (w.tlen ≤ 256) && decide (w.plen ≤ 256) && decide (w.tbase + w.tlen ≤ 512) && decide (w.pbase + w.plen ≤ 512) &&
  !overlaps w.tbase w.tlen sb sl && !overlaps w.tbase w.tlen w.pbase w.plen &&
  (List.range 4).all fun u =>
    u == t || fget s b F.CORE_TCTL_VALID u == 0 ||
    (let tb := fget s b F.CORE_TWIN_BASE u
     let tl := fget s b F.CORE_TWIN_LEN u
     let pb := fget s b F.CORE_TPAT_BASE u
     let pl := fget s b F.CORE_TPAT_LEN u
     !overlaps w.tbase w.tlen tb tl && !overlaps w.tbase w.tlen pb pl && !overlaps tb tl w.pbase w.plen)

/-- Whether a slot may take its pattern window: no other VALID slot runs from a window that meets it, but one that runs the same role of the
same image from the same base (R254, R281). (DEDUCED: notes/assumptions/20.md.) -/
def patternOk (s : State) (d c t : Nat) (w : SlotCfg) : Bool :=
  let b := coreB d c
  (List.range 4).all fun u =>
    u == t || fget s b F.CORE_TCTL_VALID u == 0 ||
    !overlaps w.pbase w.plen (fget s b F.CORE_TPAT_BASE u) (fget s b F.CORE_TPAT_LEN u) ||
    (fget s b F.CORE_TPAT_BASE u == w.pbase &&
      stepRole s (taskOf s d c u).binding (taskOf s d c u).step d c == stepRole s w.binding w.step d c)

/-- The shared window made large enough for the role that a slot runs (R278). -/
def growShared (d c : Nat) (w : SlotCfg) (s : State) : State :=
  match stepRole s w.binding w.step d c with
  | some (_, r) => if fget s (coreB d c) F.CORE_SHWIN_SLEN < r.swin then fset s (coreB d c) F.CORE_SHWIN_SLEN r.swin else s
  | none => s

/-- A slot's registers, task and data slots written. -/
def writeSlot (d c t : Nat) (w : SlotCfg) (s : State) : State :=
  let b := coreB d c
  let s := fset (fset (fset s b F.CORE_TCTL_PREEMPT 0 t) b F.CORE_TCTL_SUSPENDED 0 t) b F.CORE_TCTL_ENDED 0 t
  let s := fset (fset (fset s b F.CORE_TCTL_TENANT w.tenant t) b F.CORE_TTAG_TASKTAG w.tag t) b F.CORE_TTAG_TCTX w.tctx t
  let s := fset (fset s b F.CORE_TWIN_BASE w.tbase t) b F.CORE_TWIN_LEN w.tlen t
  let s := fset (fset s b F.CORE_TPAT_BASE w.pbase t) b F.CORE_TPAT_LEN w.plen t
  let s := fset (fset (fset s b F.CORE_TARR_ARR_LO w.arrLo t) b F.CORE_TARR_ARR_HI w.arrHi t) b F.CORE_TARR_ARR_EN (b2n w.arrEn) t
  let s := fset (fset (fset s b F.CORE_TPC_PC 0 t) b F.ATTN_KVSTAB_VA_LO (w.kvstab % 2 ^ 32) t) b F.ATTN_KVSTABH_VA_HI (w.kvstab / 2 ^ 32) t
  let s := fset (fset (fset s b F.ATTN_KVGEOM_D w.kvD t) b F.ATTN_KVGEOM_A w.kvA t) b F.ATTN_KVGEOM_PSTRIDE w.pstride t
  let s := [F.CORE_MTIME_NS, F.CORE_MARR_OPS, F.CORE_MDRAM_LINES, F.CORE_MLINK_LINES].foldl (fun s f => fset s b f 0 t) s
  let idles := match stepRole s w.binding w.step d c with | some (img, r) => roleIdles img r | none => []
  let s := modTask d c t (fun _ => ⟨w.binding, w.step, w.streamLen, w.ngate, w.npatch, false, w.layers, 0, idles, false⟩) s
  let s := modCore s d c fun x => { x with rowBuf := tset (fun _ => []) x.rowBuf t [] }
  (List.range 32).foldl (fun s i => modDslot d c t i (fun _ =>
    match w.dslots[i]? with
    | some p => ⟨p.1, p.2, decide (p.2 > 0), 0, false, 0⟩
    | none => DSlot.off) s) s

/-- The defined data slots of a task slot empty (R286, R296). -/
def emptySlots (d c t : Nat) (s : State) : State :=
  (List.range 32).foldl (fun s i => let z := dslotOf s d c t i; if z.defined then emptySlot d c t z s else s) s

/-- What a step in flight fixes of a slot: the binding's translation context and tenant 0x0000 (R403), the step table's address, and the KV
geometry of an attention die (R405). -/
def forStep (s : State) (d : Nat) (w : SlotCfg) : SlotCfg :=
  match stepOf s w.binding w.step with
  | none => w
  | some _ =>
    let w := { w with tenant := 0, tctx := w.binding, kvstab := tableVa w.binding w.step, pstride := frameSet s w.binding }
    let l := (bindOf s w.binding).attn
    match l.idxOf? d with
    | some a => { w with kvD := l.length, kvA := a }
    | none => { w with kvD := max 1 l.length }

/-- What the role of the step's pattern image fixes of a slot: its windows' sizes, stream length, lists and data slots (R278). A task whose step has no
image here takes what the hub writes. (DEDUCED: notes/assumptions/20.md.) -/
def fromRole (s : State) (d c : Nat) (w : SlotCfg) : SlotCfg :=
  let w := forStep s d w
  match stepRole s w.binding w.step d c with
  | some (img, r) => { w with tlen := r.twin, plen := r.pwin, streamLen := r.streamLen, ngate := r.ngate, npatch := r.npatch, dslots := roleSlots img r }
  | none => w

/-- The role placed in the slot's windows, unless another VALID slot runs from the same pattern window (R254, R281).
(DEDUCED: notes/assumptions/20.md.) -/
def loadRole (d c t : Nat) (w : SlotCfg) (s : State) : State :=
  let b := coreB d c
  let shared := (List.range 4).any fun u => u != t && fget s b F.CORE_TCTL_VALID u == 1 && fget s b F.CORE_TPAT_BASE u == w.pbase
  match stepRole s w.binding w.step d c, stepOf s w.binding w.step with
  | some (img, r), some p => if shared then s else placeRole d c w.pbase p.gen w.tctx w.tenant img r s
  | _, _ => s

/-- TASK_SLOT_VALIDATE (R253, R254): the slot's registers written while VALID is 0, VALID written last where the windows meet the
rules and the core has the neighbours of its role. Nothing of the task has landed yet: what its window holds is open (R297).
(DEDUCED: notes/assumptions/12.md, 20.md.) -/
def validate (d c t : Nat) (w : SlotCfg) (s : State) : State :=
  let b := coreB d c
  if fget s b F.CORE_TCTL_VALID t == 1 then coreNotice d c (0x100 + 0x20 * t) s
  else
    let w := fromRole s d c w
    let g := growShared d c w s
    let s := writeSlot d c t w (if windowsOk g d c t w then g else s)
    if windowsOk s d c t w && patternOk s d c t w && !roleBlocked s w.binding w.step d c then
      let s := writeStepTable w.binding w.step d (loadRole d c t w s)
      sendReady w.binding w.step (takeSlot d c (emptySlots d c t (openWin d c t 0 (4096 * w.tlen) (fset s b F.CORE_TCTL_VALID 1 t))))
    else coreNotice d c (0x100 + 0x20 * t) s

/-- A slot emptied; its step is abandoned (R253, Table 10.10). -/
def leaveSlot (d c t : Nat) (s : State) : State :=
  let k := taskOf s d c t
  let s := match stepOf s k.binding k.step with
    | some p => if undecided p then abandonStep .other p s else s
    | none => s
  let s := fset (fset s (coreB d c) F.CORE_TCTL_VALID 0 t) (coreB d c) F.CORE_TCTL_PREEMPT 0 t
  modTask d c t (fun _ => Task.none) s

/-- TASK_SLOT_CLEAR (R253): a clear of VALID takes effect at the task's next stitch boundary. -/
def clearSlot (d c t : Nat) (s : State) : State :=
  let b := coreB d c
  if fget s b F.CORE_TCTL_VALID t == 0 then s
  else if fget s b F.CORE_STAT_SLOT == t && fget s b F.CORE_STAT_BOUNDARY == 0 then modTask d c t (fun k => { k with leaving := true }) s
  else leaveSlot d c t s

/-- TASK_PREEMPT (R262): PREEMPT set; a task that stands at a boundary leaves at once. -/
def preempt (d c t : Nat) (s : State) : State :=
  let b := coreB d c
  if fget s b F.CORE_TCTL_VALID t == 0 then s
  else if fget s b F.CORE_STAT_SLOT == t && fget s b F.CORE_STAT_BOUNDARY == 0 then fset s b F.CORE_TCTL_PREEMPT 1 t
  else leaveSlot d c t s

/-! ### The stitch boundary (R260) -/

/-- Whether the stitch in progress is complete: its last entry issued, every command completed, every redo delivered. -/
def stitchDone (s : State) (d c : Nat) : Bool :=
  let x := coreOf s d c
  x.ending && (List.range 9).all (fun e => outOf s d c e == 0) && x.ops.all (fun o => o.st == 7) && x.adds.isEmpty

/-- The stitch check and ladder counts of the present stitch delivered to its step (R147, R260, R381), with whether a tile of it was analogue
or degraded (Table 1.3, R152). (DESIGN CHOICE: notes/assumptions/76.md.) -/
def deliverChecks (d c t : Nat) (s : State) : State :=
  let x := coreOf s d c
  let k := taskOf s d c t
  let s := if x.failed.contains t then
      failStep k.binding k.step k.stitch (notice 0x0903 hubDie 0 (k.step % runBit) (finc s (coreB d c) F.CORE_CNT_CHKFAIL_COUNT))
    else s
  modStep s k.binding k.step fun p => { p with
    analog := p.analog || x.ops.any fun o => o.slot == t && o.outcome == 1
    deg := p.deg || x.ops.any fun o => o.slot == t && o.deg && (o.outcome == 1 || o.outcome == 2)
    ladder := x.counts.foldl (fun l q => tmod (fun _ => (0, 0)) l q.1 fun v => (v.1 + q.2.1, v.2 + q.2.2)) p.ladder }

/-- The lag of an array's entries ends where those now in force were computed within the margin (R210). -/
def clearLag (d c a : Nat) (s : State) : State :=
  if entriesLag s d c a then s else modAcc (arrKey d c a) (fun y => { y with lag := false }) s

/-- Staged drift records put in force, and waiting arrays staged (R189, R210). -/
def commitDrift (d c : Nat) (s : State) : State :=
  let x := coreOf s d c
  let t := x.staged.foldl (fun t p => tset (fun _ => []) t (arrKey d c p.1) p.2) s.loom.drift
  let s := odInc { s with loom := { s.loom with drift := t } } 0x4145 0 x.staged.length
  let s := x.staged.foldl (fun s p => clearLag d c p.1 (modAcc (arrKey d c p.1) (fun y => { y with ts := y.tnext }) s)) s
  stageWaiting d c 8 (modCore s d c fun x => { x with staged := [] })

/-- The settings that take effect at a stitch boundary. (DEDUCED: notes/assumptions/33.md.) -/
def boundarySettings (d c : Nat) (s : State) : State := commitDrift d c (applySettings d c s)

/-- STITCH_BOUNDARY. -/
def boundary (d c : Nat) (s : State) : State :=
  if stitchDone s d c then
    let b := coreB d c
    let t := fget s b F.CORE_STAT_SLOT
    let s := meter d c t 0 (1000 * (hubTime s - (coreOf s d c).since)) (deliverChecks d c t s)
    let s := modCore s d c fun x => { x with
      ending := false, failed := x.failed.filter (fun u => u != t), ops := [], verdicts := [], redoQ := [], p16Q := [], p16Held := [], grantQ := [],
      order := [], summs := [], counts := [], idleLanes := [] }
    let s := modTask d c t (fun k => { k with stitch := k.stitch + 1 }) s
    let s := fset (fset s b F.CORE_STAT_RUNNING 0) b F.CORE_STAT_BOUNDARY 1
    let s := boundarySettings d c s
    let s := if (taskOf s d c t).leaving || fget s b F.CORE_TCTL_PREEMPT t == 1 then leaveSlot d c t s else s
    if stopWanted s then stopCore d c s else takeSlot d c s
  else s

/-- STITCH_WATCHDOG_EXPIRY (R261): a stitch past STITCHMAX is an F2 that fences the core. -/
def watchdog (d c : Nat) (s : State) : State :=
  if fget s (coreB d c) F.CORE_STAT_BOUNDARY == 0 then fault 0x0101 d c 0 s else s

/-! ### The commands -/

/-- SEQUENCER_ISSUE (R259). -/
def execSequencerIssue (d c : Nat) (s : State) : Host.Outcome State Fault Refusal := .next (issue d c s)
/-- SEQUENCER_STALL_END (R259). -/
def execSequencerStallEnd (d c : Nat) (s : State) : Host.Outcome State Fault Refusal := .next (stallEnd d c s)
/-- LANE_QUEUE_PLACE_FREE (R115). -/
def execLaneQueuePlaceFree (d c lane : Nat) (s : State) : Host.Outcome State Fault Refusal := .next (laneFree d c lane s)
/-- ENGINE_COMMAND_DONE (R259). -/
def execEngineCommandDone (d c eng : Nat) (s : State) : Host.Outcome State Fault Refusal := .next (commandDone d c eng s)
/-- STITCH_BOUNDARY (R260). -/
def execStitchBoundary (d c : Nat) (s : State) : Host.Outcome State Fault Refusal := .next (boundary d c s)
/-- STITCH_WATCHDOG_EXPIRY (R261). -/
def execStitchWatchdogExpiry (d c : Nat) (s : State) : Host.Outcome State Fault Refusal := .next (watchdog d c s)
/-- TASK_SLOT_VALIDATE (R253). -/
def execTaskSlotValidate (d c slot : Nat) (cfg : SlotCfg) (s : State) : Host.Outcome State Fault Refusal :=
  .next (validate d c slot cfg s)
/-- TASK_SLOT_CLEAR (R253). -/
def execTaskSlotClear (d c slot : Nat) (s : State) : Host.Outcome State Fault Refusal := .next (clearSlot d c slot s)
/-- TASK_PREEMPT (R262). -/
def execTaskPreempt (d c slot : Nat) (s : State) : Host.Outcome State Fault Refusal := .next (preempt d c slot s)

end Sys2Proof.Machine
end

