-- ==== Sys2Proof/Machine/Loom.lean ====
section
/-! DEFINITION. The loom: cells, passes, conversions, plausibility checks, operations on a lane, probes and the indirect tables
(spec/04_loom.md R95–R129). -/

namespace Sys2Proof.Machine

/-! ### Cells (R95–R101) -/

/-- The physical column that serves a data column, through the array's remap table (Table 4.2). -/
def physCol (s : State) (key col : Nat) : Nat :=
  match (tget (fun _ => ArrPerm.none) s.loom.perm key).remap.find? fun p => p.2 == col with
  | some p => 768 + p.1
  | none => col

/-- The level of a data column's cell. (DEDUCED: notes/assumptions/55.md.) -/
def cellLevel (s : State) (key row col : Nat) : Nat :=
  tget (fun _ => 0) s.loom.cells (key * 2 ^ 19 + row * 2 ^ 10 + physCol s key col)

/-- The value of a pair: data columns 2m and 2m + 1 (R96). -/
def pairValue (s : State) (key row m : Nat) : Int := (cellLevel s key row (2 * m) : Int) - cellLevel s key row (2 * m + 1)

/-- The value of witness pair k (R98). (DEDUCED: notes/assumptions/55.md.) -/
def witnessValue (k : Nat) : Int := [15, -15, 8, -8, 4, -4, 1, -1].getD k 0

/-- What an integrator collects from one row: both high pairs, or the low pair of a nested output (R100, R101, R108, R113). -/
def rowWeight (s : State) (key : Nat) (lean high : Bool) (row j : Nat) : Int :=
  if lean then pairValue s key row (2 * j) + pairValue s key row (2 * j + 1)
  else if high then pairValue s key row (3 * j) + pairValue s key row (3 * j + 1)
  else pairValue s key row (3 * j + 2)

/-- The integrated sums of a pass over rows `lo` to `lo + n - 1`, in units of 2^−7 product unit. -/
def passSums (s : State) (key : Nat) (lean high : Bool) (rows : List Drive) (lo n : Nat) : List Int :=
  let rs := ((rows.drop lo).take n).zipIdx
  (List.range (if lean then 192 else 128)).map fun j =>
    rs.foldl (fun a r => if r.1.w = 0 then a else a + r.1.w * rowWeight s key lean high (lo + r.2) j) 0

/-! ### ADCs (R109, R118, R119) -/

/-- A working ADC declared suspect (R119): a spare takes over at the next conversion round, which ends the F1 (R474); without one the
lane is fenced. -/
def suspectAdc (d c lane n : Nat) (s : State) : State :=
  let s := modAdc d c lane n (fun a => { a with st := 4, checks := 0, strikes := [], shade := 0 }) s
  match freeSpare s d c lane true with
  | some i => closeF1 0x0201 d (16 * c + lane) (fault 0x0201 d (16 * c + lane) 0 (standIn d c lane i n s))
  | none => fault 0x0203 d (16 * c + lane) 0 s

/-- Whether the codes of two ADCs disagree (R119): by more than THRESH LSB, each after its own assay offset correction.
(DEDUCED: notes/assumptions/6.md.) -/
def adcsDisagree (s : State) (d c lane n i : Nat) (code spare : Int) : Bool :=
  let diff := 16 * (code - spare) + ((adcOf s d c lane n).offs - (adcOf s d c lane (128 + i)).offs)
  decide (diff.natAbs > 16 * fget s (coreB d c) F.LOOM_SPCHK_THRESH)

/-- One plausibility check of working ADC `n` by spare `i` (R119): STRIKES disagreements within WINDOW of its own checks declare it
suspect. (DEDUCED: notes/assumptions/6.md.) -/
def checkAdc (d c lane n i : Nat) (code spare : Int) (s : State) : State :=
  let b := coreB d c
  let w := adcOf s d c lane n
  let k := w.checks + 1
  let l := if adcsDisagree s d c lane n i code spare then k :: w.strikes else w.strikes
  let l := l.filter fun j => decide (k < j + fget s b F.LOOM_SPCHK_WINDOW)
  if l.length ≥ fget s b F.LOOM_SPCHK_STRIKES then suspectAdc d c lane n s
  else modAdc d c lane n (fun a => { a with checks := k, strikes := l }) s

/-- The codes that the ADCs of a round give (R109), each with a fresh deviation. -/
def roundCodes (s : State) (g : Nat) (sums : List Int) : List Int :=
  sums.zipIdx.map fun p => adcCode p.1 (Config.analogError (s.fresh + p.2)) g

/-- The plausibility checks of round `r` (R118): spare i checks ADC (8r + i) mod 128 where the round uses it. `ns` are the ADCs of the
round, whose codes and sums stand beside them. -/
def checkRound (d c lane r g : Nat) (ns : List Nat) (sums codes : List Int) (s : State) : State :=
  if fget s (coreB d c) F.LOOM_CTRL_SPCHK_EN = 0 then s
  else (List.range 8).foldl (fun s i =>
    let a := (8 * r + i) % 128
    match ns.idxOf? a with
    | some j =>
      if (adcOf s d c lane (128 + i)).st = 1 ∧ (adcOf s d c lane a).st = 0 then
        checkAdc d c lane a i (codes.getD j 0) (adcCode (sums.getD j 0) (Config.analogError s.fresh) g) { s with fresh := s.fresh + 1 }
      else s
    | none => s) s

/-- The suspect ADCs of a lane in their shadow period: calibrated, and fewer rounds than WINDOW behind them (R224). -/
def inShadow (s : State) (d c lane : Nat) : List Nat :=
  (s.loom.adcs.filter fun p => decide (p.1 / 256 = laneKey d c lane) && p.2.st == 4 && decide (1 ≤ p.2.shade) &&
    decide (p.2.shade ≤ fget s (coreB d c) F.LOOM_SPCHK_WINDOW)).map fun p => p.1 % 256

/-- The comparisons of a round with the suspect ADCs in shadow (R224): each converts beside the spare that replaced it. -/
def shadowRound (d c lane g : Nat) (ns : List Nat) (sums codes : List Int) (s : State) : State :=
  (inShadow s d c lane).foldl (fun s n =>
    match ns.idxOf? n, standFor s d c lane n with
    | some j, some i =>
      let own := adcCode (sums.getD j 0) (Config.analogError s.fresh) g
      let bad := adcsDisagree s d c lane n i own (codes.getD j 0)
      modAdc d c lane n (fun a => { a with shade := a.shade + 1, strikes := if bad then a.shade :: a.strikes else a.strikes })
        { s with fresh := s.fresh + 1 }
    | _, _ => s) s

/-- One conversion round of a lane: ADCs `ns` convert their integrators' sums, the free spares check (R118), and suspect ADCs in shadow
convert beside their spares (R224). The rounds of a lane count from 1. (DEDUCED: notes/assumptions/6.md; DESIGN CHOICE:
notes/assumptions/74.md.) -/
def convertRound (d c lane : Nat) (g : Nat) (ns : List Nat) (sums : List Int) (s : State) : List Int × State :=
  let codes := roundCodes s g sums
  let r := (laneOf s d c lane).rounds + 1
  let s := modLane d c lane (fun l => { l with rounds := r }) { s with fresh := s.fresh + sums.length }
  (codes, shadowRound d c lane g ns sums codes (checkRound d c lane r g ns sums codes s))

/-- The conversion of a pass: one round, or two in lean mode (R108). -/
def convertPass (d c lane g : Nat) (sums : List Int) (s : State) : List Int × State :=
  let (a, s) := convertRound d c lane g (List.range 128) (sums.take 128) s
  if sums.length > 128 then
    let (b, s) := convertRound d c lane g (List.range 64) (sums.drop 128) s
    (a ++ b, s)
  else (a, s)

/-! ### One phase of an operation (R107, R110) -/

/-- What the phases of an operation have given so far: tile values in units of 2^−4, clipped codes, integration windows, whether a
phase split, and the pulse weights of high-slice windows with their shifts. -/
structure Fired where
  vals : List Int
  clip : Nat
  windows : Nat
  split : Bool
  wins : List (Nat × Int)
  deriving DecidableEq, Repr

/-- One activation phase against one slice: its passes integrated, converted and added exactly (R110, R158). -/
def firePhase (d c lane key : Nat) (lean high : Bool) (rows : List Drive) (g : Nat) (shift : Int) (f : Fired) (s : State) :
    Fired × State :=
  let ps := passesOf rows
  ps.foldl (fun x p =>
    let (codes, s) := convertPass d c lane g (passSums x.2 key lean high rows p.1 p.2) x.2
    let f := x.1
    let w := 2 ^ ((g : Int) + shift + 4).toNat
    let wt := pulseWeight ((rows.drop p.1).take p.2)
    (⟨(f.vals.zip codes).map fun v => v.1 + v.2 * w, f.clip + (codes.filter isClipped).length, f.windows + 1,
      f.split || decide (ps.length > 1), if high then f.wins ++ [(wt, shift)] else f.wins⟩, s)) (f, s)

/-- Nothing fired yet. -/
def Fired.start (lean : Bool) : Fired := ⟨List.replicate (if lean then 192 else 128) 0, 0, 0, false, []⟩

/-! ### Loading and firing a tile operation -/

/-- The summary that a record offset joins: the newest (R137). -/
def joinSumm (s : State) (d c addr : Nat) : Option Summ :=
  (coreOf s d c).summs.reverse.find? fun x => x.recAddr == addr || x.recAddr + 512 == addr

/-- Whether a task's array window covers an array (R257). -/
def arrayInWindow (s : State) (d c t a : Nat) : Bool :=
  let b := coreB d c
  fget s b F.CORE_TARR_ARR_EN t == 1 && decide (fget s b F.CORE_TARR_ARR_LO t ≤ a) && decide (a ≤ fget s b F.CORE_TARR_ARR_HI t)

/-- The F1s 0x0302 and 0x0303 of an array closed: its P16 cover is in place at the first command that meets it (R474). -/
def coverMet (d c a : Nat) (s : State) : State :=
  closeFaults (fun o => o.cls == 1 && (o.code == 0x0302 || o.code == 0x0303) && o.die == d && o.inst == c && o.detail == a) s

/-- A command not fired (R123): a status word with no codes. -/
def notFire (d c no k : Nat) (s : State) : State :=
  let none (o : TileOp) : TileOp :=
    { o with notFired := k, eTile := 0, rtz := 0, clip := 0, split := false, skipped := false, vals := [], wins := [] }
  modOp d c no none s

/-- The F1 of a command for an array that is not Serving: once for each care episode (R235), and once for each fence on a cover host
(R483). -/
def noteNotServing (d c a : Nat) (s : State) : State :=
  let key := arrKey d c a
  let k := coverSource s d c
  let s := coverMet k.1 k.2 a s
  if k ≠ (d, c) then
    if (dieOf s d).coverNoted.contains c then s
    else fault 0x0301 d c a (modDie s d fun x => { x with coverNoted := x.coverNoted ++ [c] })
  else
  let care := (arrOf s key).st == 1 || (arrOf s key).st == 4 || (dieOf s d).switching.any fun x => x.2.1 == c
  if care && (accOf s key).noted then s
  else fault 0x0301 d c a (if care then modAcc key (fun x => { x with noted := true }) s else s)

/-- The first level of an operation at its first load (R136, R142, R151): a nested P4 command whose layer starts at P8 without a
DUAL record starts at P16, exempt where the floor set its start. -/
def joinOp (d c : Nat) (o : TileOp) (s : State) : TileOp × State :=
  let lean := tileLean s d c o.arr
  let sm := if o.joined then o.summ else joinSumm s d c o.inAddr
  let dual := match sm with | some x => x.dual | none => false
  let fl := (startLevel s d c o.slot).2
  let o := if o.joined then o
    else if o.first = 1 ∧ o.op = 1 ∧ !lean ∧ !dual then
      { o with joined := true, summ := sm, lean := lean, first := 2, level := 2, floorExempt := decide (fl ≥ 1) }
    else { o with joined := true, summ := sm, lean := lean, level := o.first }
  (o, modOp d c o.no (fun _ => o) s)

/-- An operation not fired because nothing drives a row (R116): SKIPPED, zero codes, its RTZ count. -/
def skipOp (d c no : Nat) (lean : Bool) (rtz : Nat) (s : State) : State :=
  let zeros : List Int := List.replicate (if lean then 192 else 128) 0
  let done (o : TileOp) : TileOp :=
    { o with skipped := true, notFired := 0, eTile := 0, rtz := rtz, clip := 0, split := false, vals := zeros, wins := [] }
  modOp d c no done (finc s (coreB d c) F.LOOM_SKIPCNT_COUNT)

/-- An analogue operation fired at P4 or P8 on a record (R104–R117). The low-slice phases of a redo of a P4 command use its GAIN_L as
written (R143). (DESIGN CHOICE: notes/assumptions/76.md.) -/
def fireOp (d c : Nat) (o : TileOp) (p8 : Bool) (rcd : List Byte) (s : State) : State :=
  let key := arrKey d c o.arr
  let wfmt := (arrOf s key).wfmt
  let code (i : Nat) : Int := if p8 then p8Input rcd i else p4Input rcd o.e2m1 i
  match tileExp rcd code with
  | none => skipOp d c o.no o.lean 0 s
  | some et =>
    let hi := if p8 then driveRows rcd et (fun i => p8High (p8Input rcd i)) else driveRows rcd et code
    let lo := if p8 then driveRows rcd et (fun i => p8Low (p8Input rcd i)) else []
    let rtz := if p8 then ((hi.zip lo).filter fun p => p.1.rtz || p.2.rtz).length else (hi.filter fun r => r.rtz).length
    let s := finc s (coreB d c) F.LOOM_RTZCNT_COUNT rtz
    if (hi ++ lo).all fun r => r.w == 0 then
      skipOp d c o.no o.lean rtz s
    else
      let gh := o.gainH
      let gl := o.gainL
      let f0 := Fired.start o.lean
      let (f, s) :=
        if p8 then
          let (f, s) := firePhase d c o.lane key false true hi gh 3 f0 s
          let (f, s) := firePhase d c o.lane key false false hi gl 0 f s
          let (f, s) := firePhase d c o.lane key false true lo gh (-1) f s
          firePhase d c o.lane key false false lo gl (-4) f s
        else
          let sh : Int := -1 - b2n o.e2m1 - b2n (o.lean && wfmt == 1)
          firePhase d c o.lane key o.lean true hi gh sh f0 s
      let b := coreB d c
      let n := fget s b F.LOOM_OPCNT_LO_COUNT + 2 ^ 32 * fget s b F.LOOM_OPCNT_HI_COUNT + f.windows
      let s := fset (fset s b F.LOOM_OPCNT_LO_COUNT n) b F.LOOM_OPCNT_HI_COUNT (n / 2 ^ 32)
      let s := odInc s (0x4030 + d) 0 f.windows
      let s := if f.split then finc s b F.LOOM_SPLITCNT_COUNT else s
      let s := finc s b F.LOOM_CLIPCNT_COUNT f.clip
      let s := meter d c o.slot 1 f.windows s
      let done (o : TileOp) : TileOp :=
        { o with skipped := false, notFired := 0, eTile := et, rtz := rtz, clip := min f.clip 255,
                 split := f.split, vals := f.vals, wins := f.wins }
      modOp d c o.no done s

/-- A command loaded (R112, R123, R142): checked against Table 4.8, and fired unless its state is P16. `level` is the level to fire
at. Where several conditions of the table hold, NOTFIRED is the first of 3, 2, 1, 4, 6, 5. A lean operation that a floor of P8 starts there
meets NOTFIRED 4. (DESIGN CHOICE: notes/assumptions/76.md.) -/
def loadOp (d c : Nat) (o : TileOp) (level : Nat) (s : State) : State :=
  let key := arrKey d c o.arr
  let lean := (arrOf s key).mode == 1
  let p8 := level == 1 || (level == 2 && o.op == 2)
  let addr := if level = 1 ∧ o.op = 1 then o.inAddr + 512 else o.inAddr
  let n := if p8 then 528 else 272
  if !arrayInWindow s d c o.slot o.arr then notice 0x0300 d c o.arr (notFire d c o.no 3 s)
  else if laneFenced s d c o.lane then
    let k := coverSource s d c
    notFire d c o.no 2 (coverMet k.1 k.2 o.arr s)
  else if (arrOf s key).st ≠ 2 then noteNotServing d c o.arr (notFire d c o.no 1 s)
  else if p8 && lean then notFire d c o.no 4 s
  else
    match winRead d c .loom ⟨o.no, o.slot, o.entry, [], [], [], 0⟩ addr n s with
    | (none, s) => notFire d c o.no 6 s
    | (some rcd, s) =>
      if (rcd.take 16).contains 0xFF#8 then notFire d c o.no 5 s
      else if level = 2 then notFire d c o.no 0 s
      else fireOp d c o p8 rcd s

/-- An operation put on its lane: loaded and, unless its state is P16, fired. -/
def startOp (d c no level : Nat) (s : State) : State :=
  match (coreOf s d c).ops.find? fun o => o.no == no with
  | none => s
  | some o =>
    let (o, s) := joinOp d c o s
    let level := if o.st = 0 then o.level else level
    let s := modOp d c no (fun x => { x with st := 1, level := level }) s
    modLane d c o.lane (fun l => { l with run := some no }) (loadOp d c { o with level := level } level s)

/-- The first operation of the P8 redo queue that waits for a lane (R143). -/
def laneRedo (s : State) (d c lane : Nat) : Option Nat :=
  (coreOf s d c).redoQ.find? fun no => (coreOf s d c).ops.any fun o => o.no == no && o.lane == lane

/-- The front pattern command of a lane's queue started (R115). -/
def startFront (d c lane op : Nat) (s : State) : State :=
  match queueAt s d c lane with
  | [] => s
  | q :: l => if leAt q.body 1 1 = op then startOp d c q.no 0 (setQueueAt d c lane l s) else s

/-- Whether a lane can take an operation. -/
def laneIdle (s : State) (d c lane : Nat) : Bool := (laneOf s d c lane).run.isNone && !coreFenced s d c

/-- LOOM_P4: the lane takes the P4 command at the front of its queue. -/
def loomP4 (d c lane : Nat) (s : State) : State :=
  if laneIdle s d c lane && (laneRedo s d c lane).isNone then startFront d c lane 1 s else s

/-- LOOM_P8: the lane takes a redo ahead of every pattern command (R143), or the P8 command at the front of its queue. A redo fires at
P8, but at P4 where a degraded tile that started at P16 has no DUAL record (R142). -/
def loomP8 (d c lane : Nat) (s : State) : State :=
  if laneIdle s d c lane then
    match laneRedo s d c lane with
    | some no =>
      let s := modCore s d c fun x => { x with redoQ := x.redoQ.erase no }
      match (coreOf s d c).ops.find? fun o => o.no == no with
      | none => s
      | some o =>
        let dual := match o.summ with | some x => x.dual | none => false
        startOp d c no (if !o.lean && (dual || o.op == 2) then 1 else 0) s
    | none => startFront d c lane 2 s
  else s

/-! ### The end of an operation (R124, R125, R160) -/

/-- Whether an open addition or command issued before number `no` names one of its targets (R141, R168). (DESIGN CHOICE:
notes/assumptions/13.md.) -/
def isBlocked (s : State) (d c no : Nat) : Bool :=
  let o := (coreOf s d c).order
  match o.find? fun p => p.1 == no with
  | none => false
  | some m => o.any fun p => decide (p.1 < no) && p.2.any fun t => m.2.contains t

/-- Whether an operation takes a place of the tally's result buffer (R160): it awaits its verdict or its addition, or waits for a grant with
the codes that DEGRADE would add; a P16 result only while it waits behind an earlier addition. An operation under redo takes none.
(DESIGN CHOICE: notes/assumptions/76.md.) -/
def holdsPlace (s : State) (d c : Nat) (o : TileOp) : Bool :=
  o.st == 3 || o.st == 4 || (o.st == 6 && (o.outcome != 3 || isBlocked s d c o.no))

/-- The places of the tally's result buffer in use (R160). -/
def tallyUsed (s : State) (d c : Nat) : Nat := ((coreOf s d c).ops.filter (holdsPlace s d c)).length

/-- An operation's codes and status at the tally: it awaits its verdict. -/
def deliverOp (d c no : Nat) (s : State) : State :=
  modCore (modOp d c no (fun o => { o with st := 3 }) s) d c fun x => { x with verdicts := x.verdicts ++ [no] }

/-- LOOM_OPERATION_DONE: the lane's operation ends. A lane fenced during it delivers NOTFIRED = 2 in place of its codes; a full
tally leaves the codes with the lane. -/
def opDone (d c lane : Nat) (s : State) : State :=
  match (laneOf s d c lane).run with
  | none => s
  | some no =>
    match (coreOf s d c).ops.find? fun o => o.no == no with
    | none => modLane d c lane (fun l => { l with run := none }) s
    | some o =>
      if o.st ≠ 1 then s
      else
        let s := if natBit (fget s (coreB d c) F.LOOM_STAT_LANE_FENCED) lane && o.notFired == 0 then notFire d c no 2 s else s
        let s := applyLater (arrKey d c o.arr) s
        if tallyUsed s d c ≥ 32 then modOp d c no (fun o => { o with st := 2 }) s
        else modLane d c lane (fun l => { l with run := none }) (deliverOp d c no s)

/-- TALLY_PLACE_FREE (R160): a held lane delivers its codes and resumes, the earliest issued operation first. (DESIGN CHOICE:
notes/assumptions/76.md.) -/
def placeFree (d c : Nat) (s : State) : State :=
  if tallyUsed s d c ≥ 32 then s
  else
    match (coreOf s d c).ops.find? fun o => o.st == 2 with
    | none => s
    | some o => modLane d c o.lane (fun l => { l with run := none }) (deliverOp d c o.no s)

/-! ### Probes (R121) -/

/-- Whether a lane is in an idle slot: no task runs on its core, or the running pattern has declared a stretch for it and no probe has used
it (R121, R292). -/
def idleSlot (s : State) (d c lane : Nat) : Bool := coreFree s d c || (coreOf s d c).idleLanes.any fun p => p.1 == lane

/-- The idle slot of a lane used: at most one probe in a stretch (R292). -/
def useSlot (d c lane : Nat) (s : State) : State :=
  modCore s d c fun x => { x with idleLanes := x.idleLanes.filter fun p => p.1 != lane }

/-- Whether housekeeping may use a lane: in an idle slot, and nothing on it or queued (R121, R292). -/
def laneQuiet (s : State) (d c lane : Nat) : Bool :=
  laneIdle s d c lane && (queueAt s d c lane).isEmpty && (laneRedo s d c lane).isNone && idleSlot s d c lane

/-- The lane of a die whose probe DAC is switched to the trace integrator: the first of the retrace under way, once the reference check
has passed (R220, R229). -/
def tracedLane (s : State) (d : Nat) : Option Nat :=
  if s.care.refWait.contains d then none
  else (tget (fun _ => []) s.care.retrace d).find? fun k => !laneFenced s d (k / 16) (k % 16) && !coreFenced s d (k / 16)

/-- The status word of a housekeeping probe delivered (R123, R124). -/
def probeStatus (d c : Nat) (b : List Byte) (notFired clip : Nat) (s : State) : State :=
  modCore s d c fun x => { x with probeStat := leAt b 14 2 + 2 ^ 26 * clip + 2 ^ 36 * notFired }

/-- One array operation counted that no tenant is charged for (R115, R238). -/
def countOp (d c : Nat) (s : State) : State :=
  let b := coreB d c
  let n := fget s b F.LOOM_OPCNT_LO_COUNT + 2 ^ 32 * fget s b F.LOOM_OPCNT_HI_COUNT + 1
  odInc (fset (fset s b F.LOOM_OPCNT_LO_COUNT n) b F.LOOM_OPCNT_HI_COUNT (n / 2 ^ 32)) (0x4030 + d) 0

/-- The ideal sum of witness pair k under a witness probe, in units of 2^−7: 256 rows at 12 pulses (R121). -/
def witnessSum (k : Nat) : Int := 3072 * 128 * witnessValue k

/-- The clipped codes of a conversion, as a status word counts them (R111). -/
def clipsOf (codes : List Int) : Nat := (codes.filter isClipped).length

/-- A witness probe fired: rows 0–255 driven at 12 pulses, the eight witness pairs converted at g = 6 on integrators 0–7; the codes are
kept for the evaluation of the array, which takes NPROBE probes (R205). -/
def fireWitness (d c a : Nat) (b : List Byte) (s : State) : State :=
  let (codes, s) := convertRound d c (a % 16) 6 (List.range 8) ((List.range 8).map witnessSum) s
  let s := probeStatus d c b 0 (clipsOf codes) (countOp d c s)
  { s with probes := tmod (fun _ => []) s.probes (arrKey d c a) fun l => if l.length < odNum s 0x4203 then l ++ [codes] else l }

/-- LOOM_WITNESS_PROBE: a witness probe command of the housekeeping controller, as Table 4.7 lays it out. It waits for an idle slot; on a
fenced lane or an array that is neither Serving nor Staging it is not fired (Table 4.8). -/
def witnessProbe (d c : Nat) (b : List Byte) (s : State) : State :=
  let a := leAt b 2 2 % 512
  let st := (arrOf s (arrKey d c a)).st
  if probeBad 3 b then notice 0x0200 d (16 * c + a % 16) (leAt b 0 8) s
  else if !laneQuiet s d c (a % 16) then s
  else
    let s := useSlot d c (a % 16) s
    if laneFenced s d c (a % 16) then probeStatus d c b 2 0 s
    else if st = 2 ∨ st = 3 then fireWitness d c a b s
    else probeStatus d c b 1 0 (noteNotServing d c a s)

/-- The charge that a probe conversion injects, in product units (R121). -/
def probeCharge (s : State) (d c : Nat) : Int :=
  let b := coreB d c
  if fget s b F.LOOM_PROBE_EN = 1 then sext 12 (fget s b F.LOOM_PROBE_CODE) * 16 else 0

/-- A probe conversion fired: INTEG's charge, no row driven, converted at the command's gain. -/
def fireProbe (d c lane : Nat) (b : List Byte) (s : State) : State :=
  let n := fget s (coreB d c) F.LOOM_PROBE_INTEG
  let (codes, s) := convertRound d c lane (leAt b 12 1 % 8) [n % 128] [128 * probeCharge s d c] s
  let s := probeStatus d c b 0 (clipsOf codes) (countOp d c s)
  fset (fset s (coreB d c) F.LOOM_PROBERES_CODE (toTwos 10 (codes.getD 0 0))) (coreB d c) F.LOOM_PROBERES_VALID 1

/-- LOOM_PROBE_CONVERSION: a probe conversion command of the housekeeping controller, as Table 4.7 lays it out, on the lane of
LOOM_PROBE. It waits for an idle slot, and while the lane's DAC is switched for a trace (R220). EN stays as it is: every conversion injects
while it is set. (DESIGN CHOICE: notes/assumptions/74.md.) -/
def probeConversion (d c : Nat) (b : List Byte) (s : State) : State :=
  let lane := fget s (coreB d c) F.LOOM_PROBE_LANE
  if probeBad 4 b then notice 0x0200 d (16 * c + lane) (leAt b 0 8) s
  else if !laneQuiet s d c lane || tracedLane s d == some (16 * c + lane) then s
  else if laneFenced s d c lane then probeStatus d c b 2 0 (useSlot d c lane s)
  else fireProbe d c lane b (useSlot d c lane s)

/-! ### The indirect tables (R128, Table 4.10) -/

/-- Whether an operation on an array is on its lane. -/
def arrayBusy (s : State) (d c a : Nat) : Bool := (coreOf s d c).ops.any fun o => o.arr == a && o.st == 1

/-- A state written to a descriptor: put off while an operation on the array runs. -/
def setArrState (d c a v : Nat) (s : State) : State :=
  if arrayBusy s d c a then modArr (arrKey d c a) (fun x => { x with later := some v }) s
  else putState (arrKey d c a) v s

/-- A notice of the housekeeping controller's write that is discarded (R9, R126). -/
def idataNotice (d c : Nat) (s : State) : State := notice 0x0100 d c 0x2044 s

/-- LOOM_IDATA_WRITE: the selected descriptor or remap entry written. -/
def idataWrite (d c v : Nat) (s : State) : State :=
  let b := coreB d c
  let a := fget s b F.LOOM_IDX_ARRAY
  let key := arrKey d c a
  let st := v % 8
  match fget s b F.LOOM_IDX_TABLE with
  | 0 =>
    if st ≥ 6 ∨ (natBit v 4 ∧ !natBit v 3) then idataNotice d c s
    else setArrState d c a st (modArr key (fun x => { x with mode := natBits v 3 1, wfmt := natBits v 4 1, gen := natBits v 8 8 }) s)
  | 1 =>
    let e := fget s b F.LOOM_IDX_ENTRY
    let cur := (arrOf s key).st
    if e ≥ 48 ∨ v % 1024 ≥ 768 then idataNotice d c s
    else if cur ≠ 0 ∧ cur ≠ 4 then idataNotice d c s
    else
      let without (l : List (Nat × Nat)) : List (Nat × Nat) := l.filter fun p => p.1 != e
      let put (p : ArrPerm) : ArrPerm :=
        if natBit v 15 then { p with remap := without p.remap ++ [(e, v % 1024)], invalid := without p.invalid }
        else { p with remap := without p.remap, invalid := without p.invalid ++ [(e, v % 1024)] }
      { s with loom := { s.loom with perm := tmod (fun _ => ArrPerm.none) s.loom.perm key put } }
  | _ => idataNotice d c s

/-! ### The commands -/

/-- LOOM_P4 (R108). -/
def execLoomP4 (d c lane : Nat) (s : State) : Host.Outcome State Fault Refusal := .next (loomP4 d c lane s)
/-- LOOM_P8 (R113). -/
def execLoomP8 (d c lane : Nat) (s : State) : Host.Outcome State Fault Refusal := .next (loomP8 d c lane s)
/-- LOOM_WITNESS_PROBE (R121). -/
def execLoomWitnessProbe (d c : Nat) (cmd : List Byte) (s : State) : Host.Outcome State Fault Refusal := .next (witnessProbe d c cmd s)
/-- LOOM_PROBE_CONVERSION (R121). -/
def execLoomProbeConversion (d c : Nat) (cmd : List Byte) (s : State) : Host.Outcome State Fault Refusal := .next (probeConversion d c cmd s)
/-- LOOM_OPERATION_DONE (R124). -/
def execLoomOperationDone (d c lane : Nat) (s : State) : Host.Outcome State Fault Refusal := .next (opDone d c lane s)
/-- TALLY_PLACE_FREE (R160). -/
def execTallyPlaceFree (d c : Nat) (s : State) : Host.Outcome State Fault Refusal := .next (placeFree d c s)
/-- LOOM_IDATA_WRITE (R128). -/
def execLoomIdataWrite (d c data : Nat) (s : State) : Host.Outcome State Fault Refusal := .next (idataWrite d c data s)

end Sys2Proof.Machine
end

