-- ==== Sys2Proof/Machine/Tally.lean ====
section
/-! DEFINITION. The tally: partial-sum targets, additions, MERGE, DRAIN and CLEAR (spec/06_tally_and_reduction.md R158–R179). -/

namespace Sys2Proof.Machine

/-! ### Target entries (Tables 6.1, 6.2) -/

/-- A target entry: value with 48 fraction bits, frame, flags (bit 0 LIVE, 1 ANALOG, 2 DEG, 3 SAT, 4 LOSS, 5 NONFIN). -/
structure TEnt where
  t : Int
  f : Nat
  flags : Nat
  deriving DecidableEq, Repr

/-- An entry of all zero bytes. -/
def TEnt.zero : TEnt := ⟨0, 0, 0⟩

/-- An entry read from its 16 bytes. -/
def TEnt.read (b : List Byte) : TEnt := ⟨sext 80 (leAt b 0 10), leAt b 10 1, leAt b 11 1 % 64⟩

/-- An entry as its 16 bytes. -/
def TEnt.bytes (e : TEnt) : List Byte := leBytes 10 (toTwos 80 e.t) ++ leBytes 1 e.f ++ leBytes 1 e.flags ++ leBytes 4 0

/-- The exact value of an entry, in the units of the target. -/
def TEnt.value (e : TEnt) : Dy := ⟨e.t, (e.f : Int) - 175⟩

/-- Flags of two numbers together. -/
def orFlags (a b : Nat) : Nat := (List.range 6).foldl (fun x i => if natBit a i || natBit b i then x + 2 ^ i else x) 0

/-- An operand of an addition (Table 6.3): its exact value, or none where it is not finite; its lead exponent; its flags. -/
structure TOpd where
  x : Option Dy
  ex : Nat
  flags : Nat
  deriving DecidableEq, Repr

/-- Whether an entry keeps its T and F (R166): it is saturated or non-finite. -/
def TEnt.keeps (e : TEnt) : Bool := natBit e.flags 3 || natBit e.flags 5

/-- The frame that an entry has after an operand (R164). -/
def TEnt.frame (e : TEnt) (o : TOpd) : Nat := if natBit e.flags 0 then max e.f o.ex else o.ex

/-- The value that an entry rounds to on a finite operand (R164), in its new frame. -/
def TEnt.rounded (e : TEnt) (o : TOpd) (x : Dy) : Int := ((e.value.add x).scale (175 - (e.frame o : Int))).rne

/-- Whether an addition rounds, and so sets LOSS (R164). -/
def TEnt.loses (e : TEnt) (o : TOpd) : Bool :=
  match o.x with
  | some x => !e.keeps && !(Dy.mk (e.rounded o x) ((e.frame o : Int) - 175)).eq (e.value.add x)
  | none => false

/-- An operand added into an entry (R164–R167): the frame raise, one rounding, LOSS, saturation; an entry with SAT or NONFIN keeps
T and F. (DEDUCED: notes/assumptions/14.md.) -/
def TEnt.add (e : TEnt) (o : TOpd) : TEnt :=
  let fl := orFlags (orFlags e.flags o.flags) 1
  if e.keeps then { e with flags := if o.x.isNone then orFlags fl 32 else fl }
  else
    match o.x with
    | none => { e with flags := orFlags fl 32 }
    | some x =>
      let f := e.frame o
      let t := e.rounded o x
      let fl := if e.loses o then orFlags fl 16 else fl
      if t > 2 ^ 79 - 1 then ⟨2 ^ 79 - 1, f, orFlags fl 8⟩
      else if t < -(2 ^ 79 - 1) then ⟨-(2 ^ 79), f, orFlags fl 8⟩
      else ⟨t, f, fl⟩

/-- The operand that one FP32 term is (Table 6.3). -/
def f32Opd (x : Nat) : TOpd :=
  match read32 x with
  | .fin s m e =>
    if m = 0 then ⟨some .zero, 0, 0⟩
    else
      let v : Dy := ⟨signed s m, e⟩
      ⟨some v, (max 0 (v.log2 + 105)).toNat, 0⟩
  | _ => ⟨none, 0, 0⟩

/-- The operand that one output of a tile result is, in units of 2^−4 at its tile exponent. A degraded result that was SKIPPED carries the
degraded mark (R152). -/
def tileOpd (o : TileOp) (v : Int) : TOpd :=
  if o.skipped then ⟨some .zero, 0, if o.deg then 4 else 0⟩
  else ⟨some ⟨v, (o.eTile : Int) - 131⟩, o.eTile, if o.deg then 6 else 2⟩

/-! ### Targets -/

/-- A target: its header's N and ADDS, and its entries. -/
structure Target where
  n : Nat
  adds : Nat
  ents : List TEnt
  deriving DecidableEq, Repr

/-- A target's bytes. -/
def Target.bytes (t : Target) : List Byte :=
  leBytes 1 0x10 ++ leBytes 1 0 ++ leBytes 2 t.n ++ leBytes 2 t.adds ++ leBytes 10 0 ++ t.ents.flatMap TEnt.bytes

/-- A target read from bytes. -/
def Target.read (n : Nat) (b : List Byte) : Target :=
  ⟨leAt b 2 2, leAt b 4 2, (List.range n).map fun k => TEnt.read (sliceBytes b (16 + 16 * k) 16)⟩

/-- An empty target of n entries. -/
def Target.empty (n : Nat) : Target := ⟨n, 0, List.replicate n TEnt.zero⟩

/-- The additions of operands into entries that round. -/
def lostIn (es : List TEnt) (l : List TOpd) : Nat := ((es.zip l).filter fun p => p.1.loses p.2).length

/-- Operands added into a target, with the contributions that they count (R164, R167). -/
def Target.add (t : Target) (l : List TOpd) (adds : Nat) : Target :=
  { t with adds := satAdd 16 adds t.adds, ents := (t.ents.zip l).map fun p => p.1.add p.2 }

/-- A target command's slot and entry as an issued command, for reads and writes through its windows. -/
def asIssued (slot entry : Nat) : Issued := ⟨0, slot, entry, [], [], [], 0⟩

/-- The entries newly given a flag by an addition. -/
def newly (a b : List TEnt) (i : Nat) : Nat := ((a.zip b).filter fun p => !natBit p.1.flags i && natBit p.2.flags i).length

/-- The tally's counters after an addition (Tables 6.9, 6.11); `lost` additions into entries rounded. -/
def countAdds (d c : Nat) (a b : List TEnt) (lost : Nat) (s : State) : State :=
  let cb := coreB d c
  let s := odInc (finc s cb F.CORE_TALCNT_SAT_COUNT (newly a b 3)) 0x4131 0 (newly a b 3)
  let s := odInc (finc s cb F.CORE_TALCNT_LOSS_COUNT lost) 0x4132 0 lost
  odInc (finc s cb F.CORE_TALCNT_NF_COUNT (newly a b 5)) 0x4134 0 (newly a b 5)

/-! ### Residue checks (R497) -/

/-- The step of a task slot. -/
def slotStep (s : State) (d c slot : Nat) : Nat := (taskOf s d c slot).step % runBit

/-- What the residue checks make of an operation's results, which were `old`: a first mismatch whose recomputation is clean is an F1; one that
mismatches again is answered, and leaves its entry as it was. With the checks off a wrong result stands: a free value. -/
def checkedEnts (d c slot : Nat) (old new : List TEnt) (s : State) : List TEnt × List Nat × State :=
  let hit := (coreOf s d c).glitches.filter fun g => decide (g.1 < new.length)
  if hit.isEmpty then (new, [], s)
  else
    let cb := coreB d c
    let s := modCore s d c fun x => { x with glitches := x.glitches.filter fun g => !decide (g.1 < new.length) }
    if fget s cb F.CORE_SEDCTL_RESID_EN = 0 then
      let r := hit.foldl (fun (r : List TEnt × State) g =>
        let (v, s) := takeNat r.2
        (r.1.set g.1 { (r.1.getD g.1 TEnt.zero) with t := sext 80 (v % 2 ^ 80) }, s)) (new, s)
      (r.1, [], r.2)
    else
      let s := hit.foldl (fun s g =>
        let s := finc s cb F.CORE_CNT_RESID_COUNT (if g.2 then 2 else 1)
        if g.2 then s else fault 0x0901 d c (slotStep s d c slot) s) s
      (hit.foldl (fun l g => if g.2 then l.set g.1 (old.getD g.1 TEnt.zero) else l) new, (hit.filter fun g => g.2).map fun g => g.1, s)

/-- A persistent mismatch: the task's stitch check fails, and the F2 fences the core. -/
def residueFence (d c slot : Nat) (bad : List Nat) (s : State) : State :=
  if bad.isEmpty then s else fault 0x0902 d c (slotStep s d c slot) (failStitch d c slot s)

/-- What an addition to a target answers: the state, and whether the contribution was added. -/
def addTarget (d c slot entry out n detail : Nat) (fresh : Bool) (l : List TOpd) (adds : Nat) (s : State) : Bool × State :=
  let q := asIssued slot entry
  if out % 16 ≠ 0 then (false, notice 0x0100 d c detail s)
  else if fresh then
    let e := Target.empty n
    let t := e.add l adds
    let (ents, bad, s) := checkedEnts d c slot e.ents t.ents s
    (true, residueFence d c slot bad (countAdds d c e.ents ents (lostIn e.ents l) (winWrite d c q out { t with ents := ents }.bytes s)))
  else
    match winRead d c .tally q out (16 + 16 * n) s with
    | (none, s) => (false, s)
    | (some b, s) =>
      if !verOk b || leAt b 2 2 != n then (false, notice 0x0100 d c detail s)
      else
        let t := Target.read n b
        let u := t.add l adds
        let (ents, bad, s) := checkedEnts d c slot t.ents u.ents s
        (true, residueFence d c slot bad (countAdds d c t.ents ents (lostIn t.ents l) (winWrite d c q out { u with ents := ents }.bytes s)))

/-! ### Order (R141, R168) -/

/-- A command's place in the order of additions given up. -/
def closeUnit (d c no : Nat) (s : State) : State := modCore s d c fun x => { x with order := x.order.filter fun p => p.1 != no }

/-- A tile operation settled: its place in the order closes and its releases are due. -/
def settleOp (d c : Nat) (o : TileOp) (outcome : Nat) (s : State) : State :=
  let s := modOp d c o.no (fun x => { x with st := 7, outcome := outcome, gates := [] }) s
  let s := modCore s d c fun x => { x with
    held := x.held.filter (fun h => h.key != addKey o.no), relDue := x.relDue ++ o.rels.map fun r => (o.slot, r) }
  closeUnit d c o.no s

/-! ### Additions -/

/-- The operands of an operation that has been accepted or served (Table 6.3): NOTFIRED 5 marks every output non-finite
(Table 5.8). -/
def opOperands (o : TileOp) : List TOpd :=
  if o.outcome = 3 then
    o.p16.map fun x => let y := f32Opd x; if o.notFired = 5 then { y with x := none } else y
  else o.vals.map (tileOpd o)

/-- The addition of a tile operation's result. -/
def addOp (d c : Nat) (o : TileOp) (s : State) : State :=
  let n := if o.lean then 192 else 128
  let (ok, s) := addTarget d c o.slot o.entry o.outAddr n o.entry (!o.accum) (opOperands o) 1 s
  if ok then
    let s := odInc (finc s (coreB d c) F.CORE_TALCNT_TILE_COUNT) 0x4130 0
    settleOp d c o o.outcome s
  else settleOp d c o 4 s

/-- The drift term of one output (R188): formed exactly, rounded once. -/
def driftTerm (o : TileOp) (v : Int) (g : Int × Int) : Nat :=
  let w : Dy := Dy.sum (o.wins.map fun p => ⟨(p.1 : Int), -17 + p.2⟩)
  let num := (Dy.mk (3 * g.1 * v) (-14)).add ((Dy.mk g.2 (-2)).mul w)
  let num := num.scale ((o.eTile : Int) - 127)
  if num.m = 0 then 0
  else
    let (q, k) := divSticky num.m.natAbs 3 60
    fmt32.write (.fin (decide (num.m < 0)) q (num.e + k))

/-- The drift terms of an operation, from the entries in force. -/
def driftTerms (s : State) (d c : Nat) (o : TileOp) : List Nat :=
  let l := tget (fun _ => []) s.loom.drift (arrKey d c o.arr)
  o.vals.zipIdx.map fun p => driftTerm o p.1 (l.getD p.2 (0, 0))

/-- The terms of a TERM discarded (R191): its drift term, where drift terms are formed, and its outlier term, where it has one. -/
def discardTerms (d c : Nat) (p : PendAdd) (s : State) : State :=
  let n := b2n (coreOf s d c).driftOn + b2n p.rows.isSome
  odInc (finc s (coreB d c) F.MEND_CNT_DISC_COUNT n) 0x4144 0 n

/-- The terms of a mender result added to one target. -/
def addTerms (d c : Nat) (p : PendAdd) (out : Nat) (l : List Nat) (s : State) : State :=
  let (ok, s) := addTarget d c p.slot p.entry out l.length p.entry false (l.map f32Opd) 0 s
  if ok then finc s (coreB d c) F.MEND_CNT_NF_COUNT (l.filter fun x => !f32Fin x).length else s

/-- Whether a target that a mender command adds to has another N than the command's, or an unknown version (R196). -/
def targetDiffers (s : State) (d c slot out n : Nat) : Bool :=
  match relMap s d c slot out (16 + 16 * n) true with
  | some a => let b := mread s (spadAddr d c a) 16; !verOk b || leAt b 2 2 != n
  | none => false

/-- The outputs of a pending mender command: those of its terms, or of the tile operation of a TERM for drift only. -/
def pendTargets (p : PendAdd) (o : Option TileOp) : List (Nat × Nat) :=
  p.parts.map fun q => (q.1, match o with | some o => if o.lean then 192 else 128 | none => q.2.length)

/-- The addition of a mender result; a TERM acts on its tile operation's verdict (R191). A command with a target of another N is discarded
whole with one notice (R196). Where it and the QUANT of the operation's record name
different outlier lists, its outlier term is open (R186, R297). -/
def addPend (d c : Nat) (p : PendAdd) (s : State) : State :=
  let done (s : State) : State := closeUnit d c p.no (modCore s d c fun x => { x with adds := x.adds.filter fun y => y.no != p.no })
  let differs (o : Option TileOp) : Bool := (pendTargets p o).any fun q => targetDiffers s d c p.slot q.1 q.2
  let refuse (s : State) : State := done (notice 0x0100 d c p.entry s)
  match p.term with
  | none => if differs none then refuse s else done (p.parts.foldl (fun s q => addTerms d c p q.1 q.2 s) s)
  | some no =>
    match (coreOf s d c).ops.find? fun o => o.no == no with
    | none => done s
    | some o =>
      let out := (p.parts.head?.map fun q => q.1).getD 0
      let outl := (p.parts.head?.map fun q => q.2).getD []
      let same := match o.summ, p.rows with
        | some m, some r => m.rows == r
        | _, _ => true
      let withOutlier (s : State) : State :=
        if p.rows.isNone then s
        else
          let (l, s) := if same then (outl, s) else takeWords outl.length s
          addTerms d c p out l s
      if o.outcome = 0 then s
      else if o.outcome ≠ 4 && differs (some o) then refuse s
      else
        match o.outcome with
        | 1 => done (withOutlier (if (coreOf s d c).driftOn then addTerms d c p out (driftTerms s d c o) s else s))
        | 2 => done (withOutlier s)
        | _ => done (discardTerms d c p s)

/-- TALLY_ADDITION: the addition of the command with an issue number, where it is due and nothing before it on its target is open; a
gated addition waits for its fill (R287). (DESIGN CHOICE: notes/assumptions/13.md.) -/
def addition (d c no : Nat) (s : State) : State :=
  if isBlocked s d c no || coreFenced s d c then s
  else
    match (coreOf s d c).ops.find? fun o => o.no == no && o.st == 6 with
    | some o =>
      match (if o.accum then o.gates else []).find? fun g => !gateOpen s d c o.slot g with
      | some g => holdRead d c (addKey no) o.slot g s
      | none => addOp d c o s
    | none =>
      match (coreOf s d c).adds.find? fun p => p.no == no with
      | some p => addPend d c p s
      | none => s

/-! ### Tally commands (R169–R172) -/

/-- A tally command's notice (R169). -/
def tallyNotice (d c : Nat) (q : Issued) (s : State) : State := notice 0x0100 d c (leAt q.body 0 8) s

/-- CLEAR (R170). -/
def clearTarget (d c : Nat) (q : Issued) (s : State) : State :=
  let t := tallyOf q.body
  winWrite d c q t.a (Target.empty t.n).bytes s

/-- A target read for a tally command: none where it cannot be had, or its version or N is wrong (R169). -/
def readTarget (d c : Nat) (q : Issued) (a n : Nat) (s : State) : Option Target × State :=
  match winRead d c .tally q a (16 + 16 * n) s with
  | (none, s) => (none, s)
  | (some b, s) => if !verOk b || leAt b 2 2 != n then (none, tallyNotice d c q s) else (some (Target.read n b), s)

/-- The operand that a LIVE source entry is to a MERGE (Table 6.3): its exact value, whatever its flags, and its flags.
(DEDUCED: notes/assumptions/14.md.) -/
def partOpd (e : TEnt) : TOpd := ⟨some e.value, e.f, e.flags⟩

/-- MERGE (R170): copies the source over the destination, or adds it. (DEDUCED: notes/assumptions/14.md.) -/
def mergeTarget (d c : Nat) (q : Issued) (s : State) : State :=
  let t := tallyOf q.body
  match readTarget d c q t.a t.n s with
  | (none, s) => s
  | (some src, s) =>
    let done (s : State) : State := finc s (coreB d c) F.CORE_TALCNT_MRG_COUNT
    if !t.accum then done (winWrite d c q t.b src.bytes s)
    else
      match readTarget d c q t.b t.n s with
      | (none, s) => s
      | (some dst, s) =>
        let ents := (dst.ents.zip src.ents).map fun p => if natBit p.2.flags 0 then p.1.add (partOpd p.2) else p.1
        let (ents, bad, s) := checkedEnts d c q.slot dst.ents ents s
        let u : Target := ⟨t.n, satAdd 16 src.adds dst.adds, ents⟩
        let live := (dst.ents.zip src.ents).filter fun p => natBit p.2.flags 0
        residueFence d c q.slot bad
          (done (countAdds d c dst.ents ents (live.filter fun p => p.1.loses (partOpd p.2)).length (winWrite d c q t.b u.bytes s)))

/-- One output of a DRAIN (R171): its bits and whether it is range-flagged. -/
def drainOut (bf16 : Bool) (post : Int) (ws : Nat) (lossRange miss : Bool) (e : TEnt) : Nat × Bool :=
  let fmt := if bf16 then fmtBf16 else fmt32
  let always := natBit e.flags 3 || natBit e.flags 5 || ws == 0xFF || (natBit e.flags 4 && lossRange) || miss
  if natBit e.flags 5 || ws == 0xFF then (fmt.nan, true)
  else
    let v := if natBit e.flags 0 then e.value.scale ((ws : Int) - 127 + post) else Dy.zero
    let bits := fmt.round v.m.natAbs v.e
    let big := decide (bits > fmt.maxFin)
    let bits := if big && !bf16 then fmt.maxFin else bits
    (bits + (if v.m < 0 then 2 ^ fmt.sign else 0), always || big)

/-- The flags of a list of entries. -/
def anyFlag (l : List TEnt) (i : Nat) : Bool := l.any fun e => natBit e.flags i

/-- DRAIN (R171, R172, R498): the output vector, its summary at the next multiple of 16, and the drain check. -/
def drainTarget (d c : Nat) (q : Issued) (s : State) : State :=
  let t := tallyOf q.body
  let cb := coreB d c
  match readTarget d c q t.a t.n s with
  | (none, s) => s
  | (some src, s) =>
    let k (ws : List Byte) (s : State) : State :=
      let exp := if fget s cb F.CORE_TALCTRL_EXPECT_EN = 1 then t.expect else 0
      let miss := decide (exp ≠ 0) && decide (exp ≠ src.adds)
      let loss := fget s cb F.CORE_TALCTRL_LOSS_RANGE == 1
      let (ents, bad, s) := checkedEnts d c q.slot src.ents src.ents s
      let outs := ents.zipIdx.map fun p => drainOut t.bf16 t.post (leAt ws p.2 1) loss miss p.1
      let w := if t.bf16 then 2 else 4
      let range := (outs.filter fun o => o.2).length
      let sumAddr := (t.b + w * t.n + 15) / 16 * 16
      let fl := b2n (anyFlag src.ents 1) + 2 * b2n (anyFlag src.ents 2) + 4 * b2n (anyFlag src.ents 3) + 8 * b2n (anyFlag src.ents 4) +
        16 * b2n (anyFlag src.ents 5) + 32 * b2n miss + 64 * b2n (decide (range > 0))
      let summ := leBytes 1 0x10 ++ leBytes 1 fl ++ leBytes 2 t.n ++ leBytes 2 src.adds ++ leBytes 2 range ++
        leBytes 2 (src.ents.filter fun e => natBit e.flags 2).length ++ leBytes 2 (src.ents.filter fun e => natBit e.flags 4).length ++
        leBytes 4 0
      let s := if bad.isEmpty then winWrite d c q t.b (outs.flatMap fun o => leBytes w o.1) s
        else outs.zipIdx.foldl (fun s o => if bad.contains o.2 then s else winWrite d c q (t.b + w * o.2) (leBytes w o.1.1) s) s
      let s := winWrite d c q sumAddr summ s
      let s := finc s cb F.CORE_TALCNT_DRN_COUNT
      let s := if miss then odInc (finc s cb F.CORE_TALCNT_EXP_COUNT) 0x4133 0 else s
      residueFence d c q.slot bad (if range > 0 then failStitch d c q.slot (finc s cb F.CORE_CNT_DRAINCHK_COUNT) else s)
    if t.wsen then withRead d c .tally q t.c t.n k s else k (List.replicate t.n 0x7F#8) s

/-- A tally command at the front of the queue run, where nothing before it on its targets is open. -/
def runTally (d c op : Nat) (act : Issued → State → State) (s : State) : State :=
  match queueAt s d c 18 with
  | [] => s
  | q :: _ =>
    if isBlocked s d c q.no then s
    else runFront d c 18 (fun b => leAt b 1 1 == op) (fun q s => closeUnit d c q.no (act q s)) s

/-! ### The commands -/

/-- TALLY_ADDITION (R164). -/
def execTallyAddition (d c no : Nat) (s : State) : Host.Outcome State Fault Refusal := .next (addition d c no s)
/-- TALLY_MERGE (R170). -/
def execTallyMerge (d c : Nat) (s : State) : Host.Outcome State Fault Refusal := .next (runTally d c 1 (mergeTarget d c) s)
/-- TALLY_DRAIN (R171). -/
def execTallyDrain (d c : Nat) (s : State) : Host.Outcome State Fault Refusal := .next (runTally d c 2 (drainTarget d c) s)
/-- TALLY_CLEAR (R170). -/
def execTallyClear (d c : Nat) (s : State) : Host.Outcome State Fault Refusal := .next (runTally d c 3 (clearTarget d c) s)

end Sys2Proof.Machine
end

