-- ==== Sys2Proof/Machine/Mender.lean ====
section
/-! DEFINITION. The mender: products, low-rank, outlier, bias and digital-model commands, P16 redos, drift staging
(spec/07_mender.md R180–R200). -/

namespace Sys2Proof.Machine

/-! ### Products (R181–R183) -/

/-- The exact product of two values, with IEEE 754's infinities and NaN. -/
def Fp.mul : Fp → Fp → Fp
  | .nan, _ | _, .nan => .nan
  | .inf s, .inf t => .inf (s != t)
  | .inf s, .fin t m _ => if m = 0 then .nan else .inf (s != t)
  | .fin s m _, .inf t => if m = 0 then .nan else .inf (s != t)
  | .fin s m e, .fin t n f => .fin (s != t) (m * n) (e + f)

/-- The exact sum of a list of values rounded once to FP32. -/
def fpSum (l : List Fp) : Nat :=
  let pos := l.any fun x => x == .inf false
  let neg := l.any fun x => x == .inf true
  if l.any (fun x => x == .nan) || (pos && neg) then fmt32.nan
  else if pos then fmt32.write (.inf false)
  else if neg then fmt32.write (.inf true)
  else dyF32 (Dy.sum (l.map Fp.dy))

/-- A list cut into groups of 32, the last perhaps shorter; `n` bounds the groups. -/
def groups32 {α : Type} : Nat → List α → List (List α)
  | 0, _ => []
  | n + 1, l => if l.isEmpty then [] else l.take 32 :: groups32 n (l.drop 32)

/-- One output of a mender product (R182): groups of 32 exact products, each rounded to FP32, then an FP32 running sum from +0. -/
def mendDot (w x : List Fp) : Nat :=
  let ps := (w.zip x).map fun p => p.1.mul p.2
  (groups32 (ps.length / 32 + 1) ps).foldl (fun a g => f32Add a (fpSum g)) 0

/-- An input converted to the operand format (R181, R183). -/
def mendInput (fp8 : Bool) (pre : Int) (x : Nat) : Fp :=
  let y := prescale pre x
  if fp8 then readE4m3 (fmtE4m3.write y) else readBf16 (fmtBf16.write y)

/-- A weight operand's value: 0 BF16, 1 E4M3, 2 E5M2. -/
def mendWeight (fmt : Nat) (x : Nat) : Fp := if fmt = 0 then readBf16 x else if fmt = 1 then readE4m3 x else readE5m2 x

/-- The bytes of a weight. -/
def weightBytes (fmt : Nat) : Nat := if fmt = 0 then 2 else 1

/-- An FP32 value multiplied by 2^(127 − WS) (R181), and whether it was rounded below the normal range. -/
def scaleOut (ws x : Nat) : Nat × Bool :=
  if ws = 0xFF then (fmt32.nan, false)
  else
    match read32 x with
    | .fin s m e =>
      let v : Dy := ⟨(m : Int), e + 127 - ws⟩
      (fmt32.write (.fin s m (e + 127 - ws)), decide (m ≠ 0) && decide (v.log2 < -126))
    | y => (fmt32.write y, false)

/-- The elements of a source vector as FP32 bits. -/
def sourceVec (bf16 : Bool) (n : Nat) (b : List Byte) : List Nat :=
  if bf16 then (leChunks 2 n b).map fun x => x * 2 ^ 16 else leChunks 4 n b

/-- Products counted (Table 7.8, Table 7.10): the registers count in units of 256 and 1,024, each command rounded up. -/
def countProducts (d c : Nat) (fp8 : Bool) (n : Nat) (s : State) : State :=
  let b := coreB d c
  if fp8 then odInc (finc s b F.MEND_CNT_FP8_COUNT ((n + 1023) / 1024)) 0x4142 0 n
  else odInc (finc s b F.MEND_CNT_BF16_COUNT ((n + 255) / 256)) 0x4141 0 n

/-- Several operands read one after another: none where one cannot be had (R251). -/
def readAll (d c : Nat) (q : Issued) : List (Nat × Nat) → State → Option (List (List Byte)) × State
  | [], s => (some [], s)
  | (a, n) :: l, s =>
    match winRead d c .mender q a n s with
    | (none, s) => (none, s)
    | (some b, s) =>
      match readAll d c q l s with
      | (none, s) => (none, s)
      | (some r, s) => (some (b :: r), s)

/-- A mender result put where it waits for its addition. -/
def pend (d c : Nat) (q : Issued) (parts : List (Nat × List Nat)) (term : Option Nat) (rows : Option (List Nat)) (s : State) : State :=
  modCore s d c fun x => { x with adds := x.adds ++ [⟨q.no, q.slot, q.entry, parts, term, rows⟩] }

/-- A mender command that delivers nothing. -/
def mendNothing (d c : Nat) (q : Issued) (s : State) : State := closeUnit d c q.no s

/-- A mender command discarded (R196). -/
def mendDiscard (d c : Nat) (q : Issued) (s : State) : State := mendNothing d c q (notice 0x0100 d c (leAt q.body 0 8) s)

/-- The outputs scaled by their weight scales where WSEN is set, with the results below the normal range counted. -/
def scaleAll (d c : Nat) (wsen : Bool) (ws : List Byte) (l : List Nat) (s : State) : List Nat × State :=
  if wsen then
    let r := l.zipIdx.map fun p => scaleOut (leAt ws p.2 1) p.1
    (r.map fun p => p.1, finc s (coreB d c) F.MEND_CNT_UFL_COUNT (r.filter fun p => p.2).length)
  else (l, s)

/-- The outputs of one vector against N × K weights, stored output-major (R195). -/
def mendRows (wf : Nat) (w : List Byte) (k n : Nat) (x : List Fp) : List Nat :=
  (List.range n).map fun j =>
    let row := sliceBytes w (j * k * weightBytes wf) (k * weightBytes wf)
    mendDot ((List.range k).map fun i => mendWeight wf (leAt row (i * weightBytes wf) (weightBytes wf))) x

/-- LRZ, LRU and MATV (R184, R192, R194): M vectors against one N × K block, each into its own target. -/
def mendMatrix (d c : Nat) (q : Issued) (s : State) : State :=
  let m := mendOf q.body
  let xb := if m.xbf16 then 2 else 4
  let reads := (m.w, m.n * m.k * weightBytes m.wfmt) :: (if m.wsen then [(m.ws, m.n)] else []) ++
    (List.range m.m).map fun i => (m.x + 16 * m.xstr * i, m.k * xb)
  match readAll d c q reads s with
  | (none, s) => mendNothing d c q s
  | (some l, s) =>
    let w := l.headD []
    let ws := if m.wsen then (l.drop 1).headD [] else []
    let xs := if m.wsen then l.drop 2 else l.drop 1
    let s := countProducts d c m.fp8 (m.k * m.n * m.m) s
    let (parts, s) := (xs.zip (mendTargets m)).foldl (fun (a : List (Nat × List Nat) × State) p =>
      let x := (sourceVec m.xbf16 m.k p.1).map (mendInput m.fp8 m.pre)
      let (y, t) := scaleAll d c m.wsen ws (mendRows m.wfmt w m.k m.n x) a.2
      (a.1 ++ [(p.2, y)], t)) ([], s)
    pend d c q parts none none s

/-- BIAS (R181, R195): N BF16 elements multiplied by 2^PRE. -/
def mendBias (d c : Nat) (q : Issued) (s : State) : State :=
  let m := mendOf q.body
  match readAll d c q ((m.x, 2 * m.n) :: if m.wsen then [(m.ws, m.n)] else []) s with
  | (none, s) => mendNothing d c q s
  | (some l, s) =>
    let v := (sourceVec true m.n (l.headD [])).map fun x => fmt32.write (prescale m.pre x)
    let (y, s) := scaleAll d c m.wsen ((l.drop 1).headD []) v s
    pend d c q [(m.out, y)] none none s

/-- TERM (R187, R191): the outlier term formed at once and held with the drift term for the verdict of the operation it names. -/
def mendTerm (d c : Nat) (q : Issued) (s : State) : State :=
  let m := mendOf q.body
  let lean := match (coreOf s d c).ops.find? fun o => o.no + 1 == q.ref with | some o => o.lean | none => false
  if m.n ≠ (if lean then 192 else 128) then mendDiscard d c q s
  else if m.l = 0 then pend d c q [(m.out, [])] (some (q.ref - 1)) none s
  else
    match readList d c .mender q m.l s with
    | (none, s) => mendNothing d c q s
    | (some lb, s) =>
      match outlierRows m.l lb with
      | none => mendDiscard d c q s
      | some rows =>
        if rows.length ≠ m.k then mendDiscard d c q s
        else
          let xb := if m.xbf16 then 2 else 4
          let reads := (m.w, m.n * m.k * weightBytes m.wfmt) :: (if m.wsen then [(m.ws, m.n)] else []) ++
            rows.map fun r => (m.x + r * xb, xb)
          match readAll d c q reads s with
          | (none, s) => mendNothing d c q s
          | (some l, s) =>
            let xs := (if m.wsen then l.drop 2 else l.drop 1).map fun b => mendInput m.fp8 m.pre (if m.xbf16 then leAt b 0 2 * 2 ^ 16 else leAt b 0 4)
            let s := countProducts d c m.fp8 (m.k * m.n) s
            let (y, s) := scaleAll d c m.wsen ((l.drop 1).headD []) (mendRows m.wfmt (l.headD []) m.k m.n xs) s
            pend d c q [(m.out, y)] (some (q.ref - 1)) (some rows) s

/-- A mender command at the front of the pattern queue run. -/
def runMender (d c op : Nat) (act : Issued → State → State) (s : State) : State :=
  runFront d c 17 (fun b => leAt b 1 1 == op) act s

/-! ### P16 (R144, R193) -/

/-- The DRAM offset of an array's golden slot (R357). -/
def goldenOffset (c a : Nat) : Nat := 0x15C0000000 + (c * 512 + a) * 0x40000

/-- The golden copy of a tile of `n` outputs, streamed from DRAM; none where a folio of it is uncorrectable. A cover host reads the
slots of the core it covers (R483). -/
def readGolden (d c a n : Nat) (s : State) : Option (List Byte) × State :=
  let k := coverSource s d c
  readDram k.1 (goldenOffset k.2 a) (1024 * n) 0 (.redo d c) s

/-- A tile's P16 product from its golden copy: PREC 0, no weight scale. -/
def goldenProduct (w : List Byte) (n : Nat) (x : List Fp) : List Nat :=
  (List.range n).map fun j => mendDot ((leChunks 2 512 (sliceBytes w (1024 * j) 1024)).map readBf16) x

/-- The front redo taken out of the mender's queue; the first that the ladder holds takes the place (R198). -/
def popRedo (d c : Nat) (s : State) : State :=
  modCore s d c fun x => { x with p16Q := x.p16Q.drop 1 ++ x.p16Held.take 1, p16Held := x.p16Held.drop 1 }

/-- P16_REDO_DONE: the front redo's golden copy has streamed and its result goes to the tally; it stays with the mender where it would wait
there behind an earlier addition and no place is free (R160). The first K elements of the source vector are read, the rest are zero. Where they
are no longer what the QUANT read, the result is open (R297). -/
def p16Done (d c : Nat) (s : State) : State :=
  match (coreOf s d c).p16Q with
  | [] => s
  | no :: _ =>
    if (isBlocked s d c no && decide (tallyUsed s d c ≥ 32)) || rereadDue s (coverSource s d c).1 (.redo d c) then s
    else
    match (coreOf s d c).ops.find? fun o => o.no == no with
    | none => popRedo d c s
    | some o =>
      match o.summ with
      | none => settleOp d c o 4 (popRedo d c s)
      | some m =>
        let n := if o.lean then 192 else 128
        match winRead d c .mender (asIssued o.slot o.entry) m.src (m.k * if m.bf16 then 2 else 4) s with
        | (none, s) => settleOp d c o 4 (popRedo d c s)
        | (some b, s) =>
          let (w, s) := readGolden d c o.arr n s
          match w with
          | none => s
          | some w =>
            let x := (sourceVec m.bf16 m.k b).map (mendInput false m.pre)
            let x := x ++ List.replicate (512 - m.k) (Fp.fin false 0 0)
            let s := popRedo d c s
            let (y, s) := if b == m.bytes then (goldenProduct w n x, s) else takeWords n s
            let s := countProducts d c false (512 * n) s
            let s := odInc (finc s (coreB d c) F.MEND_CNT_P16_COUNT) 0x4143 0
            let s := if o.care then s else meter d c o.slot 2 (16 * n) s
            modOp d c no (fun z => { z with st := 6, outcome := 3, p16 := y }) (odInc s 0x4113 0)

/-- The front redo fails where its golden copy is poisoned (R337): nothing is added, and the stitch check fails. -/
def failRedo (d c : Nat) (s : State) : State :=
  match (coreOf s d c).p16Q with
  | [] => s
  | no :: _ =>
    match (coreOf s d c).ops.find? fun o => o.no == no with
    | some o => failStitch d c o.slot (settleOp d c o 4 (popRedo d c s))
    | none => popRedo d c s

/-! ### Drift staging (R189) -/

/-- MEND_DDATA_WRITE: the selected entry staged in its array's record; a ninth array is refused with a notice. -/
def writeDrift (d c gain offs : Nat) (s : State) : State :=
  let b := coreB d c
  let a := fget s b F.MEND_DIDX_ARRAY
  let e := fget s b F.MEND_DIDX_ENTRY
  let st := (coreOf s d c).staged
  let cur := match st.find? fun p => p.1 == a with
    | some p => p.2
    | none => tget (fun _ => []) s.loom.drift (arrKey d c a)
  if e ≥ 192 ∨ (st.length ≥ 8 ∧ !(st.any fun p => p.1 == a)) then notice 0x0100 d c 0x260C s
  else
    let full := cur ++ List.replicate (192 - cur.length) (0, 0)
    let new := full.take e ++ [(sext 8 gain, sext 8 offs)] ++ full.drop (e + 1)
    modCore s d c fun x => { x with staged := (x.staged.filter fun p => p.1 != a) ++ [(a, new)] }

/-! ### The commands -/

/-- MENDER_LRZ (R184). -/
def execMenderLrz (d c : Nat) (s : State) : Host.Outcome State Fault Refusal := .next (runMender d c 1 (mendMatrix d c) s)
/-- MENDER_LRU (R184). -/
def execMenderLru (d c : Nat) (s : State) : Host.Outcome State Fault Refusal := .next (runMender d c 2 (mendMatrix d c) s)
/-- MENDER_TERM (R191). -/
def execMenderTerm (d c : Nat) (s : State) : Host.Outcome State Fault Refusal := .next (runMender d c 3 (mendTerm d c) s)
/-- MENDER_BIAS (R195). -/
def execMenderBias (d c : Nat) (s : State) : Host.Outcome State Fault Refusal := .next (runMender d c 4 (mendBias d c) s)
/-- MENDER_MATV (R194). -/
def execMenderMatv (d c : Nat) (s : State) : Host.Outcome State Fault Refusal := .next (runMender d c 5 (mendMatrix d c) s)
/-- P16_REDO_DONE (R193). -/
def execP16RedoDone (d c : Nat) (s : State) : Host.Outcome State Fault Refusal := .next (p16Done d c s)
/-- MEND_DDATA_WRITE (R189). -/
def execMendDdataWrite (d c gain offs : Nat) (s : State) : Host.Outcome State Fault Refusal := .next (writeDrift d c gain offs s)

end Sys2Proof.Machine
end

