-- ==== Sys2Proof/Machine/Ladder.lean ====
section
/-! DEFINITION. The precision ladder: verdicts, redos, grants and the storm cap (spec/05_precision_ladder.md R140–R157). -/

namespace Sys2Proof.Machine

/-! ### Trouble (R140) -/

/-- Whether an operation's counts put it in trouble. -/
def inTrouble (s : State) (d c : Nat) (o : TileOp) : Bool :=
  let b := coreB d c
  let fl := match o.summ with | some m => m.flush | none => 0
  let cl := match o.summ with | some m => m.clamp | none => 0
  decide (o.clip > fget s b F.CORE_LADLIM_SAT_MAX) || decide (o.rtz + fl > fget s b F.CORE_LADLIM_RTZ_MAX) || cl != 0

/-! ### Outcomes -/

/-- An operation's analogue codes accepted (R141): they await their addition. -/
def acceptOp (d c : Nat) (o : TileOp) (deg : Bool) (s : State) : State :=
  let s := if deg then odInc (finc s (coreB d c) F.CORE_LADCNT_DEG_COUNT) 0x4114 0
    else odInc s (if o.level = 1 then 0x4112 else 0x4111) 0
  modOp d c o.no (fun x => { x with st := 6, outcome := if o.skipped then 2 else 1, deg := deg }) s

/-- Whether a cover is charged to no tenant (R238): its array is Offline or Programming for care, or its tile awaits rehoming. -/
def careCover (s : State) (d c : Nat) (o : TileOp) : Bool :=
  let a := (arrOf s (arrKey d c o.arr)).st
  coverSource s d c != (d, c) || (o.notFired == 1 && (a == 1 || a == 4 || (dieOf s d).switching.any fun x => x.2.1 == c))

/-- A P16 redo or cover queued on the mender; the ladder holds it while the redo queue of eight is full (R193, R198). -/
def p16Op (d c : Nat) (o : TileOp) (exempt cover : Bool) (s : State) : State :=
  let s := finc s (coreB d c) (if exempt then F.CORE_LADCNT_EXM_COUNT else F.CORE_LADCNT_P16_COUNT)
  let care := cover && careCover s d c o
  let s := if care then odInc (odInc s 0x4321 0) 0x4322 0 (1024 * if o.lean then 192 else 128) else s
  let s := modOp d c o.no (fun x => { x with st := 5, exempt := exempt, cover := cover, care := care }) s
  modCore s d c fun x => if x.p16Q.length ≤ 8 then { x with p16Q := x.p16Q ++ [o.no] } else { x with p16Held := x.p16Held ++ [o.no] }

/-- A P16 need of an operation joined to a zero summary (R137): discarded, with the notice, and the stitch check fails. -/
def noSource (d c : Nat) (o : TileOp) (s : State) : State :=
  settleOp d c o 4 (failStitch d c o.slot (notice 0x0100 d c o.entry s))

/-- Whether the core's grant has a place left in the period (R150). -/
def grantLeft (s : State) (d c : Nat) : Bool :=
  decide (fget s (coreB d c) F.CORE_STORM_USED < fget s (coreB d c) F.CORE_STORM_GRANT) || s.serve.stormOff

/-- A grant used. -/
def useGrant (d c : Nat) (s : State) : State := fincSat s (coreB d c) F.CORE_STORM_USED

/-- A request that finds no grant completed under DEGRADE (R142, R152): with its best analogue codes, or by one firing at the rung
below a P16 start. -/
def degradeOp (d c : Nat) (o : TileOp) (s : State) : State :=
  if o.first = 2 ∧ !o.deg then
    modCore (modOp d c o.no (fun x => { x with st := 8, deg := true }) s) d c fun x => { x with redoQ := x.redoQ ++ [o.no] }
  else acceptOp d c o true s

/-- A P16 request (Table 5.8). -/
def requestOp (d c : Nat) (o : TileOp) (exempt : Bool) (s : State) : State :=
  if o.summ.isNone then noSource d c o s
  else if exempt then p16Op d c o true false s
  else if grantLeft s d c then p16Op d c o false false (useGrant d c s)
  else
    let s := modCore s d c fun x => { x with starved := true }
    if fget s (coreB d c) F.CORE_LADCTRL_POLICY = 1 then
      modCore (modOp d c o.no (fun x => { x with st := 4 }) s) d c fun x => { x with grantQ := x.grantQ ++ [o.no] }
    else degradeOp d c o s

/-- An operation that left its start level counted once in X (R147); CORE_LADCNT_TRB counts each verdict of trouble. (DESIGN CHOICE:
notes/assumptions/76.md.) -/
def countX (d c : Nat) (o : TileOp) (s : State) : State :=
  let s := finc s (coreB d c) F.CORE_LADCNT_TRB_COUNT
  if o.counted then s
  else
    let s := modOp d c o.no (fun x => { x with counted := true }) s
    modCore s d c fun x => { x with counts := tmod (fun _ => (0, 0)) x.counts o.layer fun p => (p.1, p.2 + 1) }

/-- The verdict on an operation (Table 5.8). A target that a command not fired leaves unwritten reads as an unfilled slot (R123). -/
def judge (d c : Nat) (o : TileOp) (s : State) : State :=
  let clamp := match o.summ with | some m => m.clamp != 0 | none => false
  let dual := match o.summ with | some m => m.dual | none => false
  if o.notFired = 3 ∨ o.notFired = 6 then
    settleOp d c o 4 (openWin d c o.slot o.outAddr (16 + 16 * if o.lean then 192 else 128) s)
  else if o.notFired ≠ 0 then (if o.summ.isNone then noSource d c o s else p16Op d c o true true s)
  else if o.deg then acceptOp d c o true s
  else if o.level = 2 then requestOp d c o o.floorExempt s
  else if fget s (coreB d c) F.CORE_LADCTRL_EN = 0 then acceptOp d c o false s
  else if !inTrouble s d c o then acceptOp d c o false s
  else
    let s := countX d c o s
    if o.level == 0 && !clamp && !o.lean && dual then
      let s := finc s (coreB d c) F.CORE_LADCNT_P8_COUNT
      modCore (modOp d c o.no (fun x => { x with st := 8 }) s) d c fun x => { x with redoQ := x.redoQ ++ [o.no] }
    else requestOp d c o clamp s

/-- LADDER_VERDICT (R141): the verdict on the operation whose status arrived first. -/
def verdict (d c : Nat) (s : State) : State :=
  match (coreOf s d c).verdicts with
  | [] => s
  | no :: rest =>
    let s := modCore s d c fun x => { x with verdicts := rest }
    match (coreOf s d c).ops.find? fun o => o.no == no with
    | none => s
    | some o => judge d c o s

/-! ### Grants (R150, R152) -/

/-- The requests that wait under STALL take what grant there is, in order (Table 5.11). -/
def serveGrants (d c : Nat) : List Nat → State → State
  | [], s => s
  | no :: l, s =>
    if grantLeft s d c then
      let s := modCore s d c fun x => { x with grantQ := x.grantQ.erase no }
      serveGrants d c l (match (coreOf s d c).ops.find? fun o => o.no == no with
        | some o => p16Op d c o false false (useGrant d c s)
        | none => s)
    else s

/-- Requests still waiting where DEGRADE has replaced STALL (R152). -/
def degradeWaiting (d c : Nat) (s : State) : State :=
  let q := (coreOf s d c).grantQ
  if fget s (coreB d c) F.CORE_LADCTRL_POLICY = 1 ∨ q.isEmpty then s
  else
    q.foldl (fun s no => match (coreOf s d c).ops.find? fun o => o.no == no with
      | some o => degradeOp d c o s
      | none => s) (modCore s d c fun x => { x with grantQ := [] })

/-- STORM_GRANT_WRITE (R150): the hub writes the core's grant for the period; waiting requests take it in order. One that still finds none
counts for its period (Table 5.14). A grant above 65,535 is written as 65,535. (DESIGN CHOICE: notes/assumptions/76.md.) -/
def grantWrite (d c : Nat) (s : State) : State :=
  let s := fset s (coreB d c) F.CORE_STORM_GRANT (min s.serve.stormCur 65535)
  let s := serveGrants d c (coreOf s d c).grantQ s
  degradeWaiting d c (if (coreOf s d c).grantQ.isEmpty then s else modCore s d c fun x => { x with starved := true })

/-! ### The commands -/

/-- LADDER_VERDICT (R141). -/
def execLadderVerdict (d c : Nat) (s : State) : Host.Outcome State Fault Refusal := .next (verdict d c s)
/-- STORM_GRANT_WRITE (R150). -/
def execStormGrantWrite (d c : Nat) (s : State) : Host.Outcome State Fault Refusal := .next (grantWrite d c s)

end Sys2Proof.Machine
end

