-- ==== Sys2Proof/Machine/Vector.lean ====
section
/-! DEFINITION. The vector engine: QUANT, NORM, ACT, ROPE, ADD, MUL, CONV, CNT and the four SAMPLE modes (R134–R138, R252,
R263–R265, R384, R385, R395). All arithmetic is FP32, each step rounded once (R263). -/

namespace Sys2Proof.Machine

/-! ### Elements -/

/-- The bytes of an element of a format: 0 FP32, 1 BF16, 2 E4M3, 3 E5M2. -/
def elemBytes (fmt : Nat) : Nat := match fmt with | 0 => 4 | 1 => 2 | _ => 1

/-- Element bits of a format as FP32 bits (Table 5.6). -/
def elemTo32 (fmt x : Nat) : Nat :=
  match fmt with
  | 0 => x
  | 1 => bf16To32 x
  | 2 => fmt32.write (readE4m3 x)
  | _ => fmt32.write (readE5m2 x)

/-- FP32 bits as element bits of a format (Table 5.6). -/
def elemOf32 (fmt x : Nat) : Nat :=
  match fmt with
  | 0 => x
  | 1 => f32ToBf16 x
  | 2 => fmtE4m3.write (read32 x)
  | _ => fmtE5m2.write (read32 x)

/-- `n` elements of a format in bytes, as FP32 bits. -/
def elems (fmt n : Nat) (b : List Byte) : List Nat :=
  (leChunks (elemBytes fmt) n b).map (elemTo32 fmt)

/-- FP32 values as the bytes of elements of a format. -/
def elemsOut (fmt : Nat) (l : List Nat) : List Byte := l.flatMap fun x => leBytes (elemBytes fmt) (elemOf32 fmt x)

/-- The FP32 negation. -/
def f32Neg (a : Nat) : Nat := if natBit a 31 then a - 2 ^ 31 else a + 2 ^ 31

/-- The FP32 difference. -/
def f32Sub (a b : Nat) : Nat := f32Add a (f32Neg b)

/-- A sum in the fixed order of R263: lane `l` sums elements l, l + 64, … ascending; the lane sums are added ascending. -/
def laneSum (l : List Nat) : Nat :=
  let a := l.toArray
  let lane (k : Nat) : Nat := (List.range ((a.size + 63 - k) / 64)).foldl (fun x j => f32Add x (a.getD (k + 64 * j) 0)) 0
  (List.range 64).foldl (fun x k => f32Add x (lane k)) 0

/-! ### Running a vector command -/

/-- A vector command at the front of the queue run, where it is of this OP and MODE (none: any). -/
def runVec (d c op : Nat) (mode : Option Nat) (act : Issued → VecCmd → State → State) (s : State) : State :=
  runFront d c 19 (fun b => leAt b 1 1 == op && (match mode with | some m => leAt b 17 1 == m | none => true))
    (fun q s => act q (vecOf q.body) s) s

/-- The value of a vector operation of one source written to DST. -/
def mapA (d c : Nat) (f : VecCmd → List Nat → List Nat) (q : Issued) (v : VecCmd) (s : State) : State :=
  withRead d c .vector q v.a (v.n * elemBytes v.sfmt) (fun a s => engWrite d c q v.dst (elemsOut v.dfmt (f v (elems v.sfmt v.n a))) s) s

/-- The value of a vector operation of two sources written to DST. -/
def mapAB (d c : Nat) (f : Nat → Nat → Nat) (q : Issued) (v : VecCmd) (s : State) : State :=
  withRead d c .vector q v.a (v.n * elemBytes v.sfmt) (fun a s => withRead d c .vector q v.b (v.n * elemBytes v.sfmt) (fun b s =>
    engWrite d c q v.dst (elemsOut v.dfmt (((elems v.sfmt v.n a).zip (elems v.sfmt v.n b)).map fun p => f p.1 p.2)) s) s) s

/-! ### QUANT (R134–R137, R264) -/

/-- A summary put in the table: one of the same offset is replaced; where 64 others are there, a notice is recorded (R137). -/
def putSumm (d c : Nat) (q : Issued) (m : Summ) (s : State) : State :=
  let l := (coreOf s d c).summs
  if l.any fun x => x.recAddr == m.recAddr then
    modCore s d c fun x => { x with summs := (x.summs.filter fun y => y.recAddr != m.recAddr) ++ [m] }
  else if l.length ≥ 64 then notice 0x0100 d c (leAt q.body 0 8) s
  else modCore s d c fun x => { x with summs := x.summs ++ [m] }

/-- A source vector of K elements with the listed rows read as zero, to 512 rows (R186, R264). -/
def quantSource (v : VecCmd) (rows : List Nat) (b : List Byte) : List Nat :=
  let x := sourceVec (v.sfmt == 1) v.n b
  (x.zipIdx.map fun p => if rows.contains p.2 then 0 else p.1) ++ List.replicate (512 - v.n) 0

/-- QUANT with its list known: the records and the summary. -/
def quantise (d c : Nat) (q : Issued) (v : VecCmd) (rows : List Nat) (s : State) : State :=
  withRead d c .vector q v.a (v.n * elemBytes v.sfmt) (fun b s =>
    let x := quantSource v rows b
    let e2m1 := natBit v.mode 0
    let dual := natBit v.mode 1
    let s := engWrite d c q v.dst (p4Record v.shift e2m1 x) s
    let s := if dual then engWrite d c q (v.dst + 512) (p8Record v.shift x) s else s
    putSumm d c q ⟨dual, v.sfmt == 1, e2m1, classMask v.shift .clamped x, classMask v.shift .nonFinite x, flushCount v.shift x,
      v.dst, v.a, v.shift, v.n, rows, b⟩ s) s

/-- The records that a QUANT would have written unfilled (R186). -/
def openRecords (d c t : Nat) (v : VecCmd) (s : State) : State :=
  let s := openWin d c t v.dst 272 s
  if natBit v.mode 1 then openWin d c t (v.dst + 512) 528 s else s

/-- QUANT: a malformed outlier list discards it whole, and the records that it would have written read as unfilled (R186). -/
def vecQuant (d c : Nat) (q : Issued) (v : VecCmd) (s : State) : State :=
  if v.aux = 0 then quantise d c q v [] s
  else
    match readList d c .vector q v.aux s with
    | (none, s) => s
    | (some b, s) =>
      match outlierRows v.aux b with
      | none => openRecords d c q.slot v (notice 0x0100 d c (leAt q.body 0 8) s)
      | some rows => quantise d c q v rows s

/-! ### NORM, ACT, ROPE, CONV -/

/-- Σx² (NORM). -/
def sumSq (x : List Nat) : Nat := laneSum (x.map fun a => f32Mul a a)

/-- A whole number as FP32. -/
def natF32 (n : Nat) : Nat := dyF32 ⟨n, 0⟩

/-- The elements of NORM: x × gain / √(Σx² / N + PARAM), each step rounded. -/
def normed (v : VecCmd) (sq : Nat) (x g : List Nat) : List Nat :=
  let r := f32Sqrt (f32Add (f32Div sq (natF32 v.n)) v.param)
  (x.zip g).map fun p => f32Div (f32Mul p.1 p.2) r

/-- NORM MODE 0. -/
def vecNorm (d c : Nat) (q : Issued) (v : VecCmd) (s : State) : State :=
  withRead d c .vector q v.a (v.n * elemBytes v.sfmt) (fun a s => withRead d c .vector q v.b (2 * v.n) (fun b s =>
    let x := elems v.sfmt v.n a
    engWrite d c q v.dst (elemsOut v.dfmt (normed v (sumSq x) x (elems 1 v.n b))) s) s) s

/-- NORM MODE 1: the FP32 sum of squares. -/
def vecSumSq (d c : Nat) (q : Issued) (v : VecCmd) (s : State) : State :=
  withRead d c .vector q v.a (v.n * elemBytes v.sfmt) (fun a s => engWrite d c q v.dst (leBytes 4 (sumSq (elems v.sfmt v.n a))) s) s

/-- NORM MODE 2: as MODE 0, with the sum of squares read at AUX. -/
def vecPreSum (d c : Nat) (q : Issued) (v : VecCmd) (s : State) : State :=
  withRead d c .vector q v.a (v.n * elemBytes v.sfmt) (fun a s => withRead d c .vector q v.b (2 * v.n) (fun b s =>
    withRead d c .vector q v.aux 4 (fun z s =>
      engWrite d c q v.dst (elemsOut v.dfmt (normed v (leAt z 0 4) (elems v.sfmt v.n a) (elems 1 v.n b))) s) s) s) s

/-- a·σ(a)·b. -/
def gated (a b : Nat) : Nat := f32Mul (f32Mul a (f32Sigma a)) b

/-- The tanh-form GELU: 0.5·a·(1 + tanh(√(2/π)·(a + 0.044715·a³))), rounded at each step. -/
def gelu (a : Nat) : Nat :=
  let cube := f32Mul (f32Mul a a) a
  let t := f32Tanh (f32Mul 0x3F4C422A (f32Add a (f32Mul 0x3D372713 cube)))
  f32Mul (f32Mul 0x3F000000 a) (f32Add 0x3F800000 t)

/-- The angle of pair `i` of a head: PARAM2 × PARAM^(−i/MODE). -/
def ropeAngle (v : VecCmd) (i : Nat) : Nat :=
  f32Mul (natF32 v.param2) (f32Pow v.param (f32Neg (f32Div (natF32 i) (natF32 v.mode))))

/-- One pair rotated by an angle. -/
def rotate (t x y : Nat) : List Nat :=
  let cs := f32Cos t
  let sn := f32Sin t
  [f32Sub (f32Mul x cs) (f32Mul y sn), f32Add (f32Mul x sn) (f32Mul y cs)]

/-- The pairs of a vector rotated, pair number `j` first. -/
def ropePairs (v : VecCmd) : Nat → List Nat → List Nat
  | j, x :: y :: l => rotate (ropeAngle v (j % v.mode)) x y ++ ropePairs v (j + 1) l
  | _, l => l

/-- ROPE: an element without a partner (an odd N) has no stated result and takes a free value. (DEDUCED: notes/assumptions/15.md.) -/
def vecRope (d c : Nat) (q : Issued) (v : VecCmd) (s : State) : State :=
  withRead d c .vector q v.a (v.n * elemBytes v.sfmt) (fun a s =>
    let r := ropePairs v 0 (elems v.sfmt (v.n / 2 * 2) a)
    let (w, s) := if v.n % 2 = 0 then ([], s) else let (w, s) := takeNat s; ([w % 2 ^ 32], s)
    engWrite d c q v.dst (elemsOut v.dfmt (r ++ w)) s) s

/-- A value times 2^SHIFT, in FP32. (DESIGN CHOICE: notes/assumptions/16.md.) -/
def shifted (k : Int) (x : Nat) : Nat :=
  match read32 x with
  | .fin s m e => fmt32.write (.fin s m (e + k))
  | y => fmt32.write y

/-! ### CNT (R252) -/

/-- Whether an element satisfies a comparison (Table 10.2). -/
def cntHit (v : VecCmd) (x : Nat) : Bool :=
  let u32 := natBit v.mode 3
  let lt (a b : Nat) : Bool := if u32 then decide (a < b) else f32Lt a b
  let eq (a b : Nat) : Bool := if u32 then a == b else f32Eq a b
  match v.mode % 8 with
  | 0 => eq x v.param
  | 1 => !eq x v.param
  | 2 => lt v.param x
  | 3 => lt v.param x || eq x v.param
  | 4 => lt x v.param || lt v.param2 x || (!u32 && !f32Fin x)
  | _ => !f32Fin x

/-- CNT: the count as a U32, and with CHECK a non-zero count fails the stitch check. -/
def vecCnt (d c : Nat) (q : Issued) (v : VecCmd) (s : State) : State :=
  withRead d c .vector q v.a (4 * v.n) (fun b s =>
    let n := ((leChunks 4 v.n b).filter (cntHit v)).length
    let s := engWrite d c q v.dst (leBytes 4 n) s
    if natBit v.mode 4 && n != 0 then failStitch d c q.slot (finc s (coreB d c) F.VEC_CNT_CHECK_COUNT) else s) s

/-! ### SAMPLE (R384, R385, R395) -/

/-- A candidate record: NONFIN, m, S, and the candidates as (token, v). -/
structure Cands where
  nonfin : Bool
  m : Nat
  sum : Nat
  list : List (Nat × Nat)
  deriving DecidableEq, Repr

/-- Whether candidate `a` comes before `b`: the larger value, ties to the lower token. -/
def candBefore (a b : Nat × Nat) : Bool := f32Lt b.2 a.2 || (!f32Lt a.2 b.2 && decide (a.1 < b.1))

/-- A candidate put in its place. -/
def candInsert (a : Nat × Nat) : List (Nat × Nat) → List (Nat × Nat)
  | [] => [a]
  | b :: l => if candBefore a b then a :: b :: l else b :: candInsert a l

/-- The 64 first candidates of a list. -/
def topCands (l : List (Nat × Nat)) : List (Nat × Nat) := l.foldl (fun t a => (candInsert a t).take 64) []

/-- A candidate record read from its 528 bytes. -/
def candsOf (b : List Byte) : Cands :=
  ⟨natBit (leAt b 2 1) 0, leAt b 4 4, leAt b 8 4,
    (List.range (min 64 (leAt b 1 1))).map fun i => (leAt b (16 + 8 * i) 4, leAt b (20 + 8 * i) 4)⟩

/-- The 528 bytes of a candidate record. -/
def candsBytes (r : Cands) : List Byte :=
  [0x10#8, BitVec.ofNat 8 r.list.length, BitVec.ofNat 8 (b2n r.nonfin), 0#8] ++ leBytes 4 r.m ++ leBytes 4 r.sum ++ leBytes 4 0 ++
    (r.list.flatMap fun p => leBytes 4 p.1 ++ leBytes 4 p.2) ++ List.replicate (8 * (64 - r.list.length)) 0#8

/-- A record of values that the spec does not state: NONFIN with a NaN among what is ordered. (DEDUCED: notes/assumptions/15.md.) -/
def freeCands (n : Nat) (s : State) : Cands × State :=
  let (h, s) := takeWords (2 + 2 * n) s
  (⟨true, h.getD 0 0, h.getD 1 0, (List.range n).map fun i => (h.getD (2 + 2 * i) 0, h.getD (3 + 2 * i) 0)⟩, s)

/-- The largest of FP32 values without a NaN. -/
def f32Max (a b : Nat) : Nat := if f32Lt a b then b else a

/-- Whether FP32 bits are a NaN. -/
def f32Nan (a : Nat) : Bool := read32 a == .nan

/-- SAMPLE LOCAL. -/
def sampleLocal (d c : Nat) (q : Issued) (v : VecCmd) (s : State) : State :=
  withRead d c .vector q v.a (4 * v.n) (fun b s =>
    let x := (leChunks 4 v.n b).map fun z => f32Mul z v.param
    let (r, s) :=
      if x.any f32Nan then freeCands (min 64 v.n) s
      else
        let m := x.foldl f32Max (x.headD 0)
        ((⟨x.any (fun a => !f32Fin a), m, laneSum (x.map fun a => f32Exp (f32Sub a m)),
          topCands (x.zipIdx.map fun p => ((v.param2 + p.2) % 2 ^ 32, p.1))⟩ : Cands), s)
    engWrite d c q v.dst (candsBytes r) s) s

/-- SAMPLE MERGE. -/
def sampleMerge (d c : Nat) (q : Issued) (v : VecCmd) (s : State) : State :=
  withRead d c .vector q v.a 528 (fun ab s => withRead d c .vector q v.b 528 (fun bb s =>
    let a := candsOf ab
    let b := candsOf bb
    let l := a.list ++ b.list
    let (r, s) :=
      if f32Nan a.m || f32Nan b.m || l.any (fun p => f32Nan p.2) then
        let (r, s) := freeCands (min 64 l.length) s
        ({ r with nonfin := a.nonfin || b.nonfin }, s)
      else
        let m := f32Max a.m b.m
        let part (x : Cands) : Nat := f32Mul x.sum (f32Exp (f32Sub x.m m))
        ((⟨a.nonfin || b.nonfin, m, f32Add (part a) (part b), topCands l⟩ : Cands), s)
    engWrite d c q v.dst (candsBytes r) s) s) s

/-- What a sampling row holds (Table 15.7): seed, greedy, TOPP, TOPK, the position of the token drawn. -/
structure SampleRow where
  seed : Nat
  greedy : Bool
  topp : Nat
  topk : Nat
  pos : Nat
  deriving DecidableEq, Repr

/-- A sampling row read: TEMP is 0 when GREEDY, and TOPK 0 keeps 64. -/
def sampleRowOf (b : List Byte) : SampleRow :=
  ⟨leAt b 32 8, leAt b 40 4 % 2 ^ 31 == 0, leAt b 44 4, if leAt b 48 1 = 0 then 64 else leAt b 48 1, leAt b 8 4 + leAt b 12 4⟩

/-- u of a stream at a position, as FP32 (R385). -/
def drawU (r : SampleRow) (stream : Nat) : Nat := dyF32 ⟨philoxU24 r.seed r.pos stream 0 0, -24⟩

/-- A list's shortest leading run whose running sum reaches a target; the whole list where none does. -/
def leadRun (target : Nat) : Nat → List (Nat × Nat) → List (Nat × Nat)
  | _, [] => []
  | acc, p :: l =>
    let a := f32Add acc p.2
    if f32Lt a target then p :: leadRun target a l else [p]

/-- The TOPK and TOPP run of a record as (token, weight) (R385). -/
def sampleRun (r : SampleRow) (x : Cands) : List (Nat × Nat) :=
  let kept := (x.list.take r.topk).map fun p => (p.1, f32Exp (f32Sub p.2 x.m))
  leadRun (f32Mul r.topp (laneSum (kept.map fun p => p.2))) 0 kept

/-- The first of a run whose running sum exceeds a threshold; the last where none does. -/
def pickOver (thr : Nat) : Nat → List (Nat × Nat) → Option (Nat × Nat)
  | _, [] => none
  | acc, [p] => let _ := acc; some p
  | acc, p :: l =>
    let a := f32Add acc p.2
    if f32Lt thr a then some p else pickOver thr a l

/-- A draw from weights with a u: the token and its share. -/
def drawFrom (u : Nat) (run : List (Nat × Nat)) : Option (Nat × Nat) :=
  let w := laneSum (run.map fun p => p.2)
  (pickOver (f32Mul u w) 0 run).map fun p => (p.1, f32Div p.2 w)

/-- TAIL (R385): 1 − (weight of the candidates) / S; 0 under greedy sampling (Table 24.8). -/
def tailOf (greedy : Bool) (x : Cands) : Nat :=
  if greedy then 0 else f32Sub 0x3F800000 (f32Div (laneSum (x.list.map fun p => f32Exp (f32Sub p.2 x.m))) x.sum)

/-- The 16 bytes of a draw record. (DESIGN CHOICE: notes/assumptions/16.md.) -/
def drawBytes (accepted greedy nonfin : Bool) (token p tail : Nat) : List Byte :=
  [0x10#8, BitVec.ofNat 8 (b2n accepted + 2 * b2n greedy + 4 * b2n nonfin), 0#8, 0#8] ++ leBytes 4 token ++ leBytes 4 p ++ leBytes 4 tail

/-- A token and probability where there are none to draw: free values. (DEDUCED: notes/assumptions/15.md.) -/
def orFree (o : Option (Nat × Nat)) (s : State) : (Nat × Nat) × State :=
  match o with
  | some p => (p, s)
  | none =>
    let (l, s) := takeWords 2 s
    ((l.getD 0 0, l.getD 1 0), s)

/-- The stitch check failed where a record is NONFIN (R384). -/
def checkNonfin (d c t : Nat) (bad : Bool) (s : State) : State := if bad then failStitch d c t s else s

/-- SAMPLE DRAW (R385). -/
def sampleDraw (d c : Nat) (q : Issued) (v : VecCmd) (s : State) : State :=
  withRead d c .vector q v.a 528 (fun b s => withRead d c .vector q v.aux 64 (fun rb s =>
    let x := candsOf b
    let r := sampleRowOf rb
    let (p, s) := orFree (if r.greedy then x.list.head?.map (fun p => (p.1, 0x3F800000)) else drawFrom (drawU r 0) (sampleRun r x)) s
    let s := engWrite d c q v.dst (drawBytes false r.greedy x.nonfin p.1 p.2 (tailOf r.greedy x)) s
    checkNonfin d c q.slot x.nonfin s) s) s

/-- A token's weight in a run over the run's weight, 0 outside it. -/
def shareOf (run : List (Nat × Nat)) (t : Nat) : Nat :=
  match run.find? fun p => p.1 == t with
  | some p => f32Div p.2 (laneSum (run.map fun p => p.2))
  | none => 0

/-- The weights max(0, P_i − q_i) over the base's run (R395); the run's own P_i where all are 0. -/
def residual (base appr : List (Nat × Nat)) : List (Nat × Nat) :=
  let w := laneSum (base.map fun p => p.2)
  let ps := base.map fun p => (p.1, f32Div p.2 w)
  let rs := ps.map fun p => (p.1, f32Max 0 (f32Sub p.2 (shareOf appr p.1)))
  if rs.all fun p => f32Eq p.2 0 then ps else rs

/-- SAMPLE ACCEPT (R395): the row at AUX is followed by the draft's draw record. (DESIGN CHOICE: notes/assumptions/16.md.) -/
def sampleAccept (d c : Nat) (q : Issued) (v : VecCmd) (s : State) : State :=
  withRead d c .vector q v.a 528 (fun ab s => withRead d c .vector q v.b 528 (fun bb s => withRead d c .vector q v.aux 80 (fun rb s =>
    let base := candsOf ab
    let appr := candsOf bb
    let r := sampleRowOf rb
    let draft := leAt rb 68 4
    let run := sampleRun r base
    let pd := shareOf run draft
    let first := base.list.head?.map (fun p => (p.1, 0x3F800000))
    let ok := if r.greedy then (match first with | some p => p.1 == draft | none => false)
      else f32Lt (drawU r 1) (f32Div pd (leAt rb 72 4))
    let (p, s) := orFree (if r.greedy then first else if ok then some (draft, pd)
      else drawFrom (drawU r 2) (residual run (sampleRun r appr))) s
    let bad := base.nonfin || appr.nonfin
    let s := engWrite d c q v.dst (drawBytes ok r.greedy bad p.1 p.2 (tailOf r.greedy base)) s
    checkNonfin d c q.slot bad s) s) s) s

/-! ### The commands -/

/-- VEC_QUANT (R264). -/
def execVecQuant (d c : Nat) (s : State) : Host.Outcome State Fault Refusal := .next (runVec d c 1 none (vecQuant d c) s)
/-- VEC_NORM (R263). -/
def execVecNorm (d c : Nat) (s : State) : Host.Outcome State Fault Refusal := .next (runVec d c 2 (some 0) (vecNorm d c) s)
/-- VEC_NORM_SUMSQ (R263). -/
def execVecNormSumsq (d c : Nat) (s : State) : Host.Outcome State Fault Refusal := .next (runVec d c 2 (some 1) (vecSumSq d c) s)
/-- VEC_NORM_PRESUM (R263). -/
def execVecNormPresum (d c : Nat) (s : State) : Host.Outcome State Fault Refusal := .next (runVec d c 2 (some 2) (vecPreSum d c) s)
/-- VEC_ACT_GATED (R263). -/
def execVecActGated (d c : Nat) (s : State) : Host.Outcome State Fault Refusal := .next (runVec d c 3 (some 0) (mapAB d c gated) s)
/-- VEC_ACT_GELU (R263). -/
def execVecActGelu (d c : Nat) (s : State) : Host.Outcome State Fault Refusal :=
  .next (runVec d c 3 (some 1) (mapA d c fun _ l => l.map gelu) s)
/-- VEC_ROPE (R263). -/
def execVecRope (d c : Nat) (s : State) : Host.Outcome State Fault Refusal := .next (runVec d c 4 none (vecRope d c) s)
/-- VEC_ADD (R263). -/
def execVecAdd (d c : Nat) (s : State) : Host.Outcome State Fault Refusal := .next (runVec d c 5 none (mapAB d c f32Add) s)
/-- VEC_MUL (R263). -/
def execVecMul (d c : Nat) (s : State) : Host.Outcome State Fault Refusal := .next (runVec d c 6 none (mapAB d c f32Mul) s)
/-- VEC_CONV (R138, R263). -/
def execVecConv (d c : Nat) (s : State) : Host.Outcome State Fault Refusal :=
  .next (runVec d c 7 none (mapA d c fun v l => l.map (shifted v.shift)) s)
/-- VEC_CNT (R252). -/
def execVecCnt (d c : Nat) (s : State) : Host.Outcome State Fault Refusal := .next (runVec d c 9 none (vecCnt d c) s)
/-- SAMPLE_LOCAL (R384). -/
def execSampleLocal (d c : Nat) (s : State) : Host.Outcome State Fault Refusal := .next (runVec d c 8 (some 0) (sampleLocal d c) s)
/-- SAMPLE_MERGE (R384). -/
def execSampleMerge (d c : Nat) (s : State) : Host.Outcome State Fault Refusal := .next (runVec d c 8 (some 1) (sampleMerge d c) s)
/-- SAMPLE_DRAW (R385). -/
def execSampleDraw (d c : Nat) (s : State) : Host.Outcome State Fault Refusal := .next (runVec d c 8 (some 2) (sampleDraw d c) s)
/-- SAMPLE_ACCEPT (R395). -/
def execSampleAccept (d c : Nat) (s : State) : Host.Outcome State Fault Refusal := .next (runVec d c 8 (some 3) (sampleAccept d c) s)

end Sys2Proof.Machine
end

