-- ==== Sys2Proof/Machine/Memory.lean ====
section
/-! DEFINITION. The memory controllers and address translation (spec/13_memory_and_translation.md R322–R344). -/

namespace Sys2Proof.Machine

/-! ### Reads and writes (R329) -/

/-- Whether a DRAM offset is valid and its die serves requests (Table 13.1, R337). -/
def dramServes (s : State) (d off : Nat) : Bool :=
  decide (off < 0x1800000000) && fget s (dieB d) F.MEMC_STAT_FILLED (stackOf (folioOf off)) == 1

/-- Whether accesses to a folio are held by its remap copy (R339). -/
def folioHeld (s : State) (d off : Nat) : Bool :=
  let f := folioOf off
  match (memcOf s d (stackOf f)).copying with
  | some (p, _) => p == f / 2
  | none => false

/-- The answer of a controller: bytes, or poisoned. -/
def memAnswer (d st : Nat) (l : Option (List Byte)) (s : State) : State :=
  modMemc d st (fun m => { m with resp := l.getD [], respPoison := l.isNone }) s

/-- DRAM_READ: the folio is fetched and decoded, and the bytes requested in it are returned. An access to a folio under its remap copy
waits; a die in reset answers poisoned (R337). -/
def dramReadCmd (d off len : Nat) (s : State) : State :=
  let st := stackOf (folioOf off)
  if !dramServes s d off then memAnswer d st none s
  else if folioHeld s d off then modMemc d st (fun m => { m with waiting := m.waiting ++ [.rd off len] }) s
  else
    match readDram d off (min len (2048 - off % 2048)) 0 (.read off len) s with
    | (some b, s) => memAnswer d st (some b) s
    | (none, s) => s

/-- DRAM_WRITE: the write is taken, merged into its folio's buffer entry. A write that spans two folios is handled as two. -/
def dramWriteCmd (d off : Nat) (data : List Byte) (s : State) : State :=
  if !dramServes s d off then s
  else if folioHeld s d off then modMemc d (stackOf (folioOf off)) (fun m => { m with waiting := m.waiting ++ [.wr off data] }) s
  else dramWrite d off data s

/-! ### Remap, scrubbing (R338–R340) -/

/-- The number of the first free remap entry. -/
def freeRemap (s : State) (d st : Nat) : Option Nat := ((remapsOf s d st).zipIdx.find? fun p => p.1.isNone).map fun p => p.2

/-- A remap entry written: the folio is now the spare. -/
def putRemap (d st e phi : Nat) (s : State) : State := dropErrors d st phi (setRemaps d st ((remapsOf s d st).set e (some phi)) s)

/-- The data folios of a stack (R325). -/
def stackFolios : Nat := 25165824

/-- A folio corrected in two passes running is copied to a spare (R339). -/
def proactive (d st phi : Nat) (s : State) : State :=
  if (remapsOf s d st).contains (some phi) then s
  else
    match freeRemap s d st with
    | none => notice 0x0600 d 0 (memDetail s d st phi) s
    | some e => fault 0x0602 d st (memDetail s d st phi) (modMemc d st (fun m => { m with copying := some (phi, e) }) s)

/-- The next scrub read: a folio corrected is written back whole. -/
def scrubRead (d st : Nat) (s : State) : State :=
  let b := dieB d
  let phi := fget s b F.MEMC_SCRUBPOS_FOLIO st
  let s := odInc (finc s b F.MEMC_CNT_SCRUB_COUNT 1 st) (0x5000 + d) 8
  let s := match fetchFolio d st phi 2 s with
    | (none, s) => needReread d st phi 2 .none s
    | (some (_, false), s) => s
    | (some (l, true), s) =>
      let s := mergeInto d st phi l [] s
      let twice := (memcOf s d st).prevPass.contains phi
      let s := modMemc d st (fun m => { m with thisPass := m.thisPass ++ [phi] }) s
      if twice then proactive d st phi s else s
  let last := decide (phi + 1 ≥ stackFolios)
  let s := fset s b F.MEMC_SCRUBPOS_FOLIO (if last then 0 else phi + 1) st
  if last then modMemc d st (fun m => { m with prevPass := m.thisPass, thisPass := [] }) s else s

/-- Whether a controller makes no scrub read: a copy or a re-read is under way. -/
def scrubBlocked (s : State) (d st : Nat) : Bool := (memcOf s d st).copying.isSome || !(memcOf s d st).reread.isEmpty

/-- The scrub reads owed made, while nothing blocks them; SCRUB_BEHIND is cleared when none is owed. -/
def scrubOwed (d st : Nat) : Nat → State → State
  | 0, s => s
  | k + 1, s =>
    if (memcOf s d st).owed = 0 then fset s (dieB d) F.MEMC_STAT_SCRUB_BEHIND 0 st
    else if scrubBlocked s d st then s
    else scrubOwed d st k (scrubRead d st (modMemc d st (fun m => { m with owed := m.owed - 1 }) s))

/-- SCRUB_TICK (R340): one more read is owed, and what is owed is read. (DEDUCED: notes/assumptions/59.md.) -/
def scrubTick (d st : Nat) (s : State) : State :=
  let b := dieB d
  if fget s b F.MEMC_CTRL_SCRUB_EN st = 0 ∨ fget s b F.MEMC_STAT_FILLED st = 0 then s
  else
    let s := modMemc d st (fun m => { m with owed := m.owed + 1 }) s
    let n := (memcOf s d st).owed
    let s := if n ≥ 64 then fset s b F.MEMC_STAT_SCRUB_BEHIND 1 st else s
    scrubOwed d st (n + 1) s

/-- The accesses that a copy held, in order. (DEDUCED: notes/assumptions/59.md.) -/
def serveHeld (d : Nat) : List MemReq → State → State
  | [], s => s
  | .rd off len :: l, s => serveHeld d l (dramReadCmd d off len s)
  | .wr off data :: l, s => serveHeld d l (dramWriteCmd d off data s)

/-- REMAP_COPY_DONE (R339): the entry is in force, and the accesses held during the copy proceed. (DEDUCED: notes/assumptions/59.md.) -/
def remapDone (d st : Nat) (s : State) : State :=
  match (memcOf s d st).copying with
  | none => s
  | some (phi, e) =>
    let l := (memcOf s d st).waiting
    let s := modMemc d st (fun m => { m with copying := none, waiting := [] }) s
    let s := finc (putRemap d st e phi s) (dieB d) F.MEMC_CNT_PROREMAP_COUNT 1 st
    serveHeld d l (closeF1 0x0602 d st s)

/-- REMAP_RESET_STACK (R339): a maker's write to OD 0xF110. -/
def remapReset (w : Writer) (v : OdVal) (s : State) : State :=
  let n := v.nat
  odWrite w 0xF110 0 v (dieState s (n % 8) != 3) (fun s => if n ≥ 16 then (0x02, s) else (0, setRemaps (n % 8) (n / 8) noRemaps s)) s

/-! ### Translation (R332, R333) -/

/-- What translating an address for a unit gives: the global address, a miss, or a fault. -/
inductive Xl where
  | ok (g : Nat)
  | miss
  | bad (kind level : Nat)
  deriving DecidableEq, Repr

/-- The use of a leaf (R332): a read needs R and a DRAM leaf; a write needs W, and a COMMIT leaf takes only appends. The appends of an audit run,
which are held and never released, need R alone: the frames of its step are mapped read-only for it (R502, R504). -/
def useLeaf (big : Bool) (pte va : Nat) (write append run : Bool) : Xl :=
  let lvl := if big then 3 else 4
  let sp := natBits pte 4 2
  let ok := if write && !(append && run) then natBit pte 3 && (!natBit pte 6 || append) else natBit pte 2 && sp == 0
  if !ok then .bad 2 lvl
  else .ok (natBits pte 48 14 * 2 ^ 50 + sp * 2 ^ 48 + pteAddr pte + va % (if big then 2 ^ 21 else 2 ^ 16))

/-- A page in a list of translations. (DESIGN CHOICE: notes/assumptions/66.md.) -/
def findPage (page : Nat) : List (Nat × Bool × Nat) → Option (Bool × Nat)
  | [] => none
  | (p, big, e) :: l => if p = page ∨ (big ∧ p / 32 = page / 32) then some (big, e) else findPage page l

/-- An address translated for a run: by a page it has had, else by the core's cache (R333). -/
def xlate (s : State) (d c : Nat) (r : Run) (va : Nat) (write append : Bool) : Xl :=
  let page := va / 2 ^ 16 % 2 ^ 32
  let tctx := fget s (coreB d c) F.CORE_TTAG_TCTX r.q.slot
  let tlb := ((coreOf s d c).tlb.filter fun e => e.tctx == tctx).map fun e => (e.page, e.big, e.pte)
  match findPage page (r.pages ++ tlb) with
  | some (big, e) => useLeaf big e va write append (decide ((taskOf s d c r.q.slot).step ≥ runBit))
  | none => .miss

/-- The page-walk cache with entries put in front, at most 128. (DESIGN CHOICE: notes/assumptions/66.md.) -/
def fillPwc (d : Nat) (l : List PwcEnt) (s : State) : State :=
  modDie s d fun x => { x with pwc := ((l.filter fun e => !x.pwc.contains e) ++ x.pwc).take 128 }

/-- A translation put in a core's cache of 64 entries, the oldest leaving. (DESIGN CHOICE: notes/assumptions/66.md.) -/
def fillTlb (d c : Nat) (e : TlbEnt) (s : State) : State :=
  modCore s d c fun x => { x with tlb := (e :: x.tlb.filter fun y => !(y.tctx == e.tctx && y.page == e.page)).take 64 }

/-! ### Invalidation (R334) -/

/-- INVALIDATION_START: MEMC_INVCMD with GO. No page and no WHOLE is a reserved encoding (Table 13.10). -/
def invalStart (d tctx : Nat) (whole : Bool) (page pages : Nat) (s : State) : State :=
  let b := dieB d
  if fget s b F.MEMC_INVSTAT_BUSY = 1 then s
  else if !whole ∧ pages = 0 then notice 0x0700 d 0 0x01001804 s
  else
    let s := unmapFreed d tctx whole page pages (fset (fset s b F.MEMC_INVVA_PAGE page) b F.MEMC_INVLEN_PAGES pages)
    modDie (fset s b F.MEMC_INVSTAT_BUSY 1) d fun x => { x with inval := some ⟨tctx, whole, page, pages⟩ }

/-- Whether an invalidation drops a translation of `n` 64 KiB pages from `page`. -/
def invalHits (i : Inval) (tctx page n : Nat) : Bool :=
  tctx == i.tctx && (i.whole || (decide (page < i.page + i.pages) && decide (i.page < page + n)))

/-- Whether an invalidation drops a page-walk entry: one whose range meets the pages. -/
def pwcHits (i : Inval) (e : PwcEnt) : Bool :=
  let sz := 2 ^ (32 - 9 * e.level)
  invalHits i e.tctx (e.vbits * sz) sz

/-- What an invalidation on a die that has now completed frees (R334, R420): frames and ranges whose entries have all been cleared, and the
steps that wait for a copied page. -/
def noteInvalDone (d : Nat) (i : Inval) (s : State) : State :=
  let held (g : Nat) : Bool := s.serve.unmaps.any (fun u => u.group == some g) || s.serve.cows.any fun w => !w.done && w.dst == g
  let g := s.serve.groups.map fun p =>
    if p.2.freeing && p.2.die == d && p.2.binding == i.tctx && !held p.1 then (p.1, { p.2 with invalDone := true }) else p
  let r := s.serve.ranges.map fun p => if p.freeing && p.binding == i.tctx && !rangePending s p.binding p.base p.len then { p with invalDone := true } else p
  let moved (w : Cow) : Bool :=
    let x := groupOf s w.dst
    w.done && x.die == d && invalHits i w.binding (pageVa s w.binding (ctxOf s w.ctx).kvva w.page / 65536) x.frames
  sendPrepares { s with serve := { s.serve with groups := g, ranges := r, cows := s.serve.cows.filter fun w => !moved w } }

/-- INVALIDATION_DONE: every core cache and the page-walk cache of the die have dropped the matching entries. -/
def invalDone (d : Nat) (s : State) : State :=
  match (dieOf s d).inval with
  | none => s
  | some i =>
    let s := coreList.foldl (fun s c => modCore s d c fun x => { x with
      tlb := x.tlb.filter fun e => !invalHits i e.tctx (if e.big then e.page / 32 * 32 else e.page) (if e.big then 32 else 1) }) s
    let s := modDie s d fun x => { x with inval := none, pwc := x.pwc.filter fun e => !pwcHits i e }
    let b := dieB d
    noteInvalDone d i (fset (fset s b F.MEMC_INVSTAT_BUSY 0) b F.MEMC_INVSTAT_SEQ (fget s b F.MEMC_INVSTAT_SEQ + 1))

/-! ### The commands -/

/-- DRAM_READ (R329). -/
def execDramRead (d off len : Nat) (s : State) : Host.Outcome State Fault Refusal := .next (dramReadCmd d off len s)
/-- DRAM_WRITE (R329). -/
def execDramWrite (d off : Nat) (data : List Byte) (s : State) : Host.Outcome State Fault Refusal := .next (dramWriteCmd d off data s)
/-- WRITE_MERGE_EXPIRY (R329). -/
def execWriteMergeExpiry (d stack phi : Nat) (s : State) : Host.Outcome State Fault Refusal := .next (issueBuf d stack phi s)
/-- SCRUB_TICK (R340). -/
def execScrubTick (d stack : Nat) (s : State) : Host.Outcome State Fault Refusal := .next (scrubTick d stack s)
/-- REMAP_COPY_DONE (R339). -/
def execRemapCopyDone (d stack : Nat) (s : State) : Host.Outcome State Fault Refusal := .next (remapDone d stack s)
/-- REMAP_RESET_STACK (R339). -/
def execRemapResetStack (w : Writer) (v : OdVal) (s : State) : Host.Outcome State Fault Refusal := .next (remapReset w v s)
/-- INVALIDATION_START (R334). -/
def execInvalidationStart (d tctx : Nat) (whole : Bool) (page pages : Nat) (s : State) : Host.Outcome State Fault Refusal :=
  .next (invalStart d tctx whole page pages s)
/-- INVALIDATION_DONE (R334). -/
def execInvalidationDone (d : Nat) (s : State) : Host.Outcome State Fault Refusal := .next (invalDone d s)

end Sys2Proof.Machine
end

