-- ==== Sys2Proof/Machine/Porter.lean ====
section
/-! DEFINITION. The porter: descriptors, the append buffer, decryption and neighbour pushes (R267–R272), and how any unit meets
translation (R333–R336). -/

namespace Sys2Proof.Machine

/-! ### Units and translation (R335) -/

/-- Whether a die injects no data packet: it has arrived at an open snapshot (R446). -/
def snapHeld (s : State) (d : Nat) : Bool :=
  s.fab.gops.any fun p => p.2.isOpen && p.2.kind == 2 && (tget (fun _ => DieOp.none) p.2.dies d).own

/-- PROGRESS written back by a channel (R270). -/
def noteProgress (d c u n : Nat) (s : State) : State := modCore s d c fun x => { x with progress := tset (fun _ => 0) x.progress u n }

/-- A unit suspended at a translation fault (R335): the record goes to the hub. Kind 0x05 is an F1. -/
def faultRun (d c u kind level va : Nat) (wr : Bool) (r : Run) (s : State) : State :=
  let b := coreB d c
  let s := setRun d c u (some { r with wait := .fault kind level va wr }) s
  let s := finc (if u < 4 then noteProgress d c u r.prog (fset s b F.PORT_CH_FAULT 1 u) else s) b F.PORT_CNT_XLT_COUNT
  let s := odInc (finc (fset s b F.CORE_TCTL_SUSPENDED 1 r.q.slot) (dieB d) F.MEMC_CNT_XFAULT_COUNT) (0x5000 + d) 9
  if kind = 5 then fault 0x0701 d c va s else notice 0x0700 d c va s

/-- The fault record of a suspended unit (Table 13.5). -/
def faultRecord (s : State) (d c u : Nat) : List Byte :=
  match runOf s d c u with
  | some ⟨q, _, .fault kind level va wr, _, _, _, _⟩ =>
    leBytes 1 0x10 ++ leBytes 1 kind ++ leBytes 1 (level + 8 * b2n wr + 16 * u) ++ leBytes 1 c ++ leBytes 1 d ++ leBytes 1 q.slot ++
      leBytes 2 (fget s (coreB d c) F.CORE_TTAG_TCTX q.slot) ++ leBytes 6 va ++ leBytes 2 0
  | _ => []

/-- A unit that waits. -/
def waitRun (d c u : Nat) (w : Wait) (r : Run) (s : State) : State := setRun d c u (some { r with wait := w }) s

/-- A unit's command that ends with nothing more delivered, its stitch check failed (R335, R337). -/
def failRun (d c u : Nat) (r : Run) (s : State) : State := failStitch d c r.q.slot (setRun d c u none s)

/-- Bytes at a global address, for a unit: at hand, or not, where the unit waits. -/
inductive Fetch where
  | here (l : List Byte) (r : Run) (s : State)
  | stop (s : State)

/-- `n` bytes at a virtual address within one page, translated to `g`: what the command has already had from there, or from the die's
own DRAM, a folio of which may have to be re-read; of another die they are asked for with a request packet, and a refused request
is an access error. -/
def fetchGlobal (d c u va g n : Nat) (r : Run) (s : State) : Fetch :=
  let num := g / 2 ^ 50
  match r.got.find? fun p => p.1 == va && decide (n ≤ p.2.length) with
  | some p => .here (sliceBytes p.2 0 n) r s
  | none =>
    if num = dieNum s d then
      match readDram d (g % 2 ^ 48) n 0 (.unit d c u) s with
      | (some b, s) => .here b { r with got := r.got ++ [(va, b)] } (countRing d c n s)
      | (none, s) => .stop (waitRun d c u .folio r s)
    else if snapHeld s d then .stop (waitRun d c u .held r s)
      else
        let s := countRing d c n s
        let b := coreB d c
        let id := s.fab.reqid + 1
        let s := { s with fab := { s.fab with reqid := id } }
        let x := dataPacket 2 num (fget s b F.CORE_TCTL_TENANT r.q.slot) (fget s b F.CORE_TTAG_TASKTAG r.q.slot) n g id []
        let (ok, s) := inject d x s
        .stop (if ok then waitRun d c u (.resp va id) r s else failRun d c u r s)

/-! ### Descriptors (Table 10.9) -/

/-- A descriptor's fields. -/
structure PortCmd where
  op : Nat
  decrypt : Bool
  srcLocal : Bool
  dstLocal : Bool
  dir : Nat
  keyslot : Nat
  src : Nat
  dst : Nat
  len : Nat
  list : Nat
  count : Nat
  tweak : Nat
  deriving DecidableEq, Repr

/-- A descriptor's fields read from its body. -/
def portOf (b : List Byte) : PortCmd :=
  let f := leAt b 2 1
  ⟨leAt b 1 1, natBit f 0, natBit f 1, natBit f 2, natBits f 3 2, leAt b 4 2, leAt b 8 8, leAt b 16 8, leAt b 24 4 % 2 ^ 28,
    addr21 b 32, leAt b 36 2, leAt b 40 8⟩

/-- Whether a descriptor is a KV-form append (R414). -/
def isKv (p : PortCmd) : Bool := p.op == 4 && !p.dstLocal && decide (p.dst / 2 ^ 62 = 3)

/-- The bytes that a descriptor moves. -/
def PortCmd.total (p : PortCmd) : Nat := if p.op = 1 ∨ p.op = 5 then p.len else p.len * p.count

/-- The virtual address of a source byte, `none` where the source is local. -/
def srcVa (p : PortCmd) (l : List Nat) (i : Nat) : Option Nat :=
  if p.op = 2 then some ((l.getD (i / p.len) 0 + i % p.len) % 2 ^ 48)
  else if p.srcLocal then none else some ((p.src + i) % 2 ^ 48)

/-- The virtual address of a destination byte, `none` where the destination is local or a neighbour. -/
def dstVa (p : PortCmd) (l : List Nat) (i : Nat) : Option Nat :=
  if p.op = 3 ∨ p.op = 4 then some ((l.getD (i / p.len) 0 + i % p.len) % 2 ^ 48)
  else if p.dstLocal ∨ p.op = 5 then none else some ((p.dst + i) % 2 ^ 48)

/-- What is left of an address's folio. -/
def folioLeft (va : Option Nat) (n : Nat) : Nat := match va with | some a => 2048 - a % 2048 | none => n

/-- The bytes moved at once from byte `i`: to the end of an element, and of a folio (so of a page) where an address is global. -/
def pieceLen (p : PortCmd) (l : List Nat) (i : Nat) : Nat :=
  let n := if p.op = 1 ∨ p.op = 5 then p.len - i else p.len - i % p.len
  let a := srcVa p l i
  let b := dstVa p l i
  min n (min (folioLeft a n) (folioLeft b n))

/-- The pages of a range. -/
def spanPages (va n : Nat) : List Nat :=
  if n = 0 then [] else (List.range ((va + n - 1) / 2 ^ 16 + 1 - va / 2 ^ 16)).map fun i => (va / 2 ^ 16 + i) * 2 ^ 16 % 2 ^ 48

/-- Every page that a descriptor names: address and whether it is written. -/
def allPages (p : PortCmd) (l : List Nat) : List (Nat × Bool) :=
  let n := if p.op = 1 ∨ p.op = 5 then 1 else p.count
  (List.range n).flatMap fun e =>
    let i := e * p.len
    (match srcVa p l i with | some a => (spanPages a p.len).map fun x => (x, false) | none => []) ++
    (match dstVa p l i with | some a => (spanPages a p.len).map fun x => (x, true) | none => [])

/-! ### Keys and decryption (R271) -/

/-- The key of a slot that a task may use: a data key of its tenant, as its step began with it (R350). -/
def taskKey (s : State) (d c t slot : Nat) : Option (List Byte) :=
  let task := taskOf s d c t
  let held := match s.models.kept.find? fun k => k.slot == slot && k.binding == task.binding && k.step == task.step with
    | some k => some k.key
    | none => tget (fun _ => none) s.models.keys slot
  match held with
  | some k => if k.dataKey && k.tenant == fget s (coreB d c) F.CORE_TCTL_TENANT t then some k.key else none
  | none => none

/-- What a piece of `n` bytes from byte `i` of a descriptor reads: with DECRYPT the whole blocks of 16 bytes that it lies in (R271). The
bytes before it, and their number. -/
def fetchSpan (p : PortCmd) (i n : Nat) : Nat × Nat :=
  if p.decrypt then (i % 16, (i + n + 15) / 16 * 16 - i / 16 * 16) else (0, n)

/-- Bytes decrypted, starting at byte `off` of a descriptor's source: AES-256 in XTS mode, data units of 4,096 B. -/
def xtsBytes (key : List Byte) (tweak : Nat) : Nat → Nat → List Byte → List Byte
  | 0, _, _ => []
  | k + 1, off, l =>
    if l.isEmpty then []
    else leBytes 16 (Config.xtsBlock key (tweak + off / 4096) (l.take 16) (off % 4096 / 16)).toNat ++ xtsBytes key tweak k (off + 16) (l.drop 16)

/-! ### Moving (R267–R270) -/

/-- Whole 64 B lines that bytes `i` to `i + n` of a transfer add to a count of them. -/
def linesAdded (i n : Nat) : Nat := (i + n + 63) / 64 - (i + 63) / 64

/-- One piece's bytes put where they go. -/
def deliver (d c u i : Nat) (p : PortCmd) (g : Option Nat) (b : List Byte) (r : Run) (s : State) : Run × State :=
  let cb := coreB d c
  let t := r.q.slot
  let ten := fget s cb F.CORE_TCTL_TENANT t
  let tag := fget s cb F.CORE_TTAG_TASKTAG t
  match g with
  | some g =>
    if p.op = 4 then ({ r with acc := r.acc ++ [(g, b)] }, s)
    else
      let remote := g / 2 ^ 50 != dieNum s d
      let s := (putGlobal d (coreKey d c + 1) (unitOf d c u) ten tag g b s).2
      (r, if remote then meter d c t 3 (linesAdded i b.length) s else s)
  | none =>
    if p.op = 5 then
      match neighbour c p.dir with
      | some c' => (r, { s with wire := s.wire ++ [⟨2 ^ 20 + coreKey d c * 4 + p.dir, d, c', ten, tag, p.dst % 2 ^ 21 + i, b, unitOf d c u, []⟩] })
      | none => (r, s)
    else
      match relMap s d c t (p.dst % 2 ^ 21) p.total true with
      | some a => (r, openTargets d c t (p.dst % 2 ^ 21 + i) b.length (spWrite d c (a + i) b s))
      | none => (r, s)

/-- The bytes of a local source: zeros where the source is not valid (R256); none where a line is poisoned (R251). -/
def localBytes (d c i n : Nat) (p : PortCmd) (r : Run) (s : State) : Option (List Byte) × State :=
  match relMap s d c r.q.slot (p.src % 2 ^ 21) p.total false with
  | none => (some (List.replicate n 0), s)
  | some a => spRead d c r.q.slot .porter (p.src % 2 ^ 21 + i) r.q.entry (a + i) n s

/-- What a run has gathered put in the append buffer (R269); of a KV-form append with the row and position of each write. -/
def holdAppend (d c : Nat) (r : Run) (elems : List (Nat × Nat)) (s : State) : State :=
  let k := taskOf s d c r.q.slot
  let b := coreB d c
  let a : Append := ⟨k.binding, k.step, r.q.no, d, fget s b F.CORE_TCTL_TENANT r.q.slot, fget s b F.CORE_TTAG_TASKTAG r.q.slot, r.acc, elems⟩
  modCore s d c fun x => { x with appends := x.appends ++ [a] }

/-- The adapter of the task's binding that a virtual address lies in (R192, R356). (DEDUCED: notes/assumptions/77.md.) -/
def adapterAt (s : State) (d c t va : Nat) : Option Nat :=
  if va < 2 ^ 41 ∨ 2 ^ 41 + 2 ^ 44 ≤ va then none
  else (s.models.objs.find? fun p => match p.2 with
    | some o => o.kind == 2 && o.binding == (taskOf s d c t).binding && p.1 % 4096 == (va - 2 ^ 41) / 2 ^ 32
    | none => false).map fun p => p.1

/-- The DRAM lines of one piece metered: `a` lines read from `src`, `b` lines written. -/
def meterPiece (d c t : Nat) (src : Option Nat) (a b : Nat) (s : State) : State :=
  let plain (n : Nat) (s : State) : State := if n = 0 then s else meter d c t 2 n s
  match src.bind (adapterAt s d c t) with
  | some h => plain b (if a = 0 then s else meterAdapter d c t h a s)
  | none => plain (a + b) s

/-- A descriptor moved on from PROGRESS until it ends or waits; `k` bounds the pieces. -/
def porterLoop (d c u : Nat) (p : PortCmd) : Nat → Run → State → State
  | 0, r, s => setRun d c u (some r) s
  | k + 1, r, s =>
    let i := r.prog
    if i ≥ p.total then
      let s := setRun d c u none s
      if p.op = 4 then holdAppend d c r [] s else s
    else
      let n := pieceLen p r.list i
      let sx : Xl := match srcVa p r.list i with | some a => xlate s d c r a false false | none => .ok 0
      let dx : Xl := match dstVa p r.list i with | some a => xlate s d c r a true (p.op == 4) | none => .ok 0
      let sa := (srcVa p r.list i).getD 0
      let da := (dstVa p r.list i).getD 0
      match sx, dx with
      | .miss, _ => waitRun d c u (.walk sa false) r s
      | .bad kind level, _ => faultRun d c u kind level sa false r s
      | _, .miss => waitRun d c u (.walk da true) r s
      | _, .bad kind level => faultRun d c u kind level da true r s
      | .ok sg, .ok dg =>
        let spad := (dstVa p r.list i).isSome && dg / 2 ^ 48 % 4 == 1
        let missing := if spad then (allPages p r.list).find? fun x => match xlate s d c r x.1 x.2 (p.op == 4) with | .ok _ => false | _ => true else none
        if spad && decide (p.len > 2 ^ 20) then setRun d c u none (notice 0x0100 d c (leAt r.q.body 0 8) s)
        else
          match missing with
          | some (a, wr) =>
            (match xlate s d c r a wr (p.op == 4) with
            | .bad kind level => faultRun d c u kind level a wr r s
            | _ => waitRun d c u (.walk a wr) r s)
          | none =>
            if (dstVa p r.list i).isSome && p.op != 4 && dg / 2 ^ 50 != dieNum s d && snapHeld s d then waitRun d c u .held r s
            else
              let sp := fetchSpan p i n
              let fetched : Fetch :=
                if (srcVa p r.list i).isSome then fetchGlobal d c u (sa - sp.1) (sg - sp.1) sp.2 r s
                else
                  match localBytes d c (i - sp.1) sp.2 p r s with
                  | (some b, s) => .here b r s
                  | (none, s) => .stop (setRun d c u none s)
              match fetched with
              | .stop s => s
              | .here b r s =>
                let b := if p.decrypt then
                    (match taskKey s d c r.q.slot p.keyslot with
                    | some key => ((xtsBytes key p.tweak (sp.2 / 16 + 1) (i - sp.1) b).drop sp.1).take n
                    | none => b)
                  else b
                let dram (g : Option Nat) (x : Nat) : Nat := if g.isSome && x / 2 ^ 48 % 4 == 0 then linesAdded i n else 0
                let s := meterPiece d c r.q.slot (srcVa p r.list i) (dram (srcVa p r.list i) sg) (dram (dstVa p r.list i) dg) s
                let s := finc s (coreB d c) F.PORT_CNT_BYTES_COUNT (linesAdded i n)
                let (r, s) := deliver d c u i p (if (dstVa p r.list i).isSome then some dg else none) b r s
                porterLoop d c u p k { r with prog := i + n, got := r.got.filter fun x => x.1 != sa - sp.1 } s

/-- A bound on the pieces of a descriptor. -/
def pieceBound (p : PortCmd) : Nat := p.total / 1024 + 4 * p.count + 8

/-- A channel's descriptor moved on. -/
def porterGo (d c u : Nat) (r : Run) (s : State) : State :=
  let p := portOf r.q.body
  porterLoop d c u p (pieceBound p) { r with wait := .go } s

/-! ### Starting a descriptor -/

/-- The bytes that the append buffer holds, each element rounded up to lines, and its descriptors. -/
def appendHeld (s : State) (d c : Nat) : Nat × Nat :=
  let l := (coreOf s d c).appends
  (((l.flatMap fun a => a.writes).map fun w => (w.2.length + 63) / 64 * 64).sum, l.length)

/-- The bytes and descriptors that APPENDs at work on the channels have been accepted for. -/
def appendTaken (s : State) (d c : Nat) : Nat × Nat :=
  let l := (List.range 4).filterMap fun u => match runOf s d c u with
    | some r => let p := portOf r.q.body; if p.op = 4 ∧ !isKv p then some p.total else none
    | none => none
  (l.sum, l.length)

/-- Whether an APPEND of `n` bytes finds room beside those held and at work: 64 KiB and 128 descriptors (R269). -/
def appendRoom (s : State) (d c n : Nat) : Bool :=
  let h := appendHeld s d c
  let k := appendTaken s d c
  decide (h.1 + k.1 + n ≤ 65536) && decide (h.2 + k.2 < 128)

/-- The append buffer found full, a push that has no partner, or a key that is not used: an F0 notice, and the stitch check fails
(R269, R271, R272). -/
def porterRefuse (d c : Nat) (q : Issued) (s : State) : State := failStitch d c q.slot (notice 0x0100 d c (leAt q.body 0 8) s)

/-- Local addresses that are not valid (R256): noted once for a descriptor. -/
def checkLocal (d c : Nat) (q : Issued) (p : PortCmd) (s : State) : State :=
  let bad (a : Nat) (write : Bool) : Bool := (relMap s d c q.slot (a % 2 ^ 21) p.total write).isNone
  let s := if (srcVa p [] 0).isNone && bad p.src false then boundBreak d c q.slot (p.src % 2 ^ 21) s else s
  if (dstVa p [] 0).isNone && p.op != 5 && bad p.dst true then boundBreak d c q.slot (p.dst % 2 ^ 21) s else s

/-- What a local destination holds is open until the descriptor's bytes land there (R297). (DEDUCED: notes/assumptions/12.md.) -/
def openDst (d c : Nat) (q : Issued) (p : PortCmd) (s : State) : State :=
  if (dstVa p [] 0).isNone && p.op != 5 then openWin d c q.slot (p.dst % 2 ^ 21) p.total s else s

/-- A descriptor taken from its queue. -/
def porterBegin (d c ch : Nat) (q : Issued) (s : State) : State :=
  let p := portOf q.body
  let partnerBad : Bool := match neighbour c p.dir with | some c' => coreFenced s d c' | none => true
  if p.op = 5 ∧ partnerBad then porterRefuse d c q s
  else if p.op = 4 ∧ !appendRoom s d c p.total then porterRefuse d c q s
  else if p.decrypt ∧ (taskKey s d c q.slot p.keyslot).isNone then porterRefuse d c q s
  else
    let s := openDst d c q p (checkLocal d c q p s)
    if p.op = 1 ∨ p.op = 5 then porterGo d c ch ⟨q, 0, .go, [], [], [], []⟩ s
    else withRead d c .porter q p.list (8 * p.count) (fun b s => porterGo d c ch ⟨q, 0, .go, [], [], leChunks 8 p.count b, []⟩ s) s

/-- A porter row: the front descriptor of a channel that is free, where it has this operation. -/
def runPorter (d c ch op : Nat) (s : State) : State :=
  if (runOf s d c ch).isSome then s
  else runFront d c (21 + ch) (fun b => leAt b 1 1 == op && !isKv (portOf b)) (porterBegin d c ch) s

/-! ### The commands -/

/-- PORTER_COPY (R267, R268). -/
def execPorterCopy (d c ch : Nat) (s : State) : Host.Outcome State Fault Refusal := .next (runPorter d c ch 1 s)
/-- PORTER_GATHER (R268). -/
def execPorterGather (d c ch : Nat) (s : State) : Host.Outcome State Fault Refusal := .next (runPorter d c ch 2 s)
/-- PORTER_SCATTER (R268). -/
def execPorterScatter (d c ch : Nat) (s : State) : Host.Outcome State Fault Refusal := .next (runPorter d c ch 3 s)
/-- PORTER_APPEND (R269). -/
def execPorterAppend (d c ch : Nat) (s : State) : Host.Outcome State Fault Refusal := .next (runPorter d c ch 4 s)
/-- PORTER_PUSH (R268, R272). -/
def execPorterPush (d c ch : Nat) (s : State) : Host.Outcome State Fault Refusal := .next (runPorter d c ch 5 s)

end Sys2Proof.Machine
end

