-- ==== Sys2Proof/Machine/Attention.lean ====
section
/-! DEFINITION. The attention engine and the KV-form append (spec/16_attention_and_kv.md R401–R415, spec/10_core_and_scratchpad.md
R266). -/

namespace Sys2Proof.Machine

/-! ### Virtual reads that wait -/

/-- `n` bytes at a virtual address that may span pages, in pieces of at most 4,096; `k` bounds the pieces. -/
def readVa (d c u : Nat) : Nat → Nat → Nat → Run → State → Fetch
  | 0, _, _, r, s => .here [] r s
  | k + 1, va, n, r, s =>
    if n = 0 then .here [] r s
    else
      let m := min n (min 4096 (2 ^ 16 - va % 2 ^ 16))
      match xlate s d c r va false false with
      | .miss => .stop (waitRun d c u (.walk va false) r s)
      | .bad kind level => .stop (faultRun d c u kind level va false r s)
      | .ok g =>
        match fetchGlobal d c u va g m r s with
        | .stop s => .stop s
        | .here b r s =>
          match readVa d c u k ((va + m) % 2 ^ 48) (n - m) r s with
          | .stop s => .stop s
          | .here l r s => .here (b ++ l) r s

/-- Several ranges (virtual address, length) read, one after another. -/
def readRanges (d c u : Nat) : List (Nat × Nat) → Run → State → Fetch
  | [], r, s => .here [] r s
  | (va, n) :: l, r, s =>
    match readVa d c u (n / 4096 + 4) va n r s with
    | .stop s => .stop s
    | .here b r s =>
      match readRanges d c u l r s with
      | .stop s => .stop s
      | .here x r s => .here (b ++ x) r s

/-! ### The step table (R378, R405, Table 15.7) -/

/-- A row of the step table as the engine uses it: its index, first step position, first position, positions taken, KV_VA. -/
structure KvRow where
  idx : Nat
  k0 : Nat
  f : Nat
  t : Nat
  kva : Nat
  deriving DecidableEq, Repr

/-- The rows of a step table, in order. -/
def tableRows (b : List Byte) : List KvRow :=
  ((List.range (leAt b 2 2)).foldl (fun (a : Nat × List KvRow) i =>
    let o := 256 + 64 * i
    let t := leAt b (o + 12) 4
    (a.1 + t, a.2 ++ [⟨i, a.1, leAt b (o + 8) 4, t, leAt b (o + 16) 6⟩])) (0, [])).2

/-- The step positions of a table. -/
def tableTotal (l : List KvRow) : Nat := (l.map fun r => r.t).sum

/-- The row of a step position. -/
def rowOf (l : List KvRow) (k : Nat) : Option KvRow := l.find? fun r => decide (r.k0 ≤ k) && decide (k < r.k0 + r.t)

/-- What a unit needs first: the rows of its slot's step table, from the row buffer or through translation. -/
inductive RowsOut where
  | rows (l : List KvRow) (r : Run) (s : State)
  | stop (s : State)

/-- The row buffer loaded once per step (R405). -/
def needRows (d c u : Nat) (r : Run) (s : State) : RowsOut :=
  let t := r.q.slot
  let have0 := tget (fun _ => []) (coreOf s d c).rowBuf t
  if !have0.isEmpty then .rows (tableRows have0) r s
  else
    let va := stabVa s d c t
    match readVa d c u 4 va 256 r s with
    | .stop s => .stop s
    | .here h r s =>
      match readVa d c u 24 ((va + 256) % 2 ^ 48) (64 * min 1024 (leAt h 2 2)) r s with
      | .stop s => .stop s
      | .here b r s =>
        .rows (tableRows (h ++ b)) r (modCore s d c fun x => { x with rowBuf := tset (fun _ => []) x.rowBuf t (h ++ b) })

/-! ### KV addresses (R401, R402, R407) -/

/-- Attention dies, this die's index and PSTRIDE of a slot. -/
def kvGeom (s : State) (d c t : Nat) : Nat × Nat × Nat :=
  (max 1 (fget s (coreB d c) F.ATTN_KVGEOM_D t), fget s (coreB d c) F.ATTN_KVGEOM_A t, fget s (coreB d c) F.ATTN_KVGEOM_PSTRIDE t)

/-- Whether this die holds a position. -/
def holdsPos (g : Nat × Nat × Nat) (p : Nat) : Bool := p / 64 % g.1 == g.2.1

/-- The virtual address of the K vector of a position, from the row's KV_VA and the command's offset. -/
def kvVa (g : Nat × Nat × Nat) (kva off p : Nat) : Nat :=
  (kva + off + p / 64 / g.1 * g.2.2 * 0x10000 + p % 64 * 128) % 2 ^ 48

/-! ### Commands (Table 10.8) and blocks (Table 16.2) -/

/-- An attention command's fields. -/
structure AttnCmd where
  op : Nat
  q : Nat
  st : Nat
  out : Nat
  first : Bool
  causal : Bool
  heads : Nat
  scale : Int
  kvva : Nat
  pos : Nat
  count : Nat
  deriving DecidableEq, Repr

/-- An attention command's fields read from its body. -/
def attnOf (b : List Byte) : AttnCmd :=
  let f := leAt b 11 1
  ⟨leAt b 1 1, addr21 b 2, addr21 b 5, addr21 b 8, natBit f 0, natBit f 1, leAt b 12 1 % 32, sext 8 (leAt b 13 1),
    leAt b 16 6, leAt b 24 4 % 2 ^ 21, leAt b 28 4 % 2 ^ 22⟩

/-- Whether a query block's header is one the engine takes. -/
def queryOk (addr : Nat) (b : List Byte) : Bool :=
  verOk b && addr % 16 == 0 && decide (leAt b 2 2 < 16384) && decide (1 ≤ leAt b 4 2) && decide (leAt b 4 2 ≤ 16384)

/-- Whether a fresh block's header is one the engine takes. -/
def freshOk (addr : Nat) (b : List Byte) : Bool :=
  verOk b && addr % 16 == 0 && decide (leAt b 2 2 < 16384) && decide (1 ≤ leAt b 4 2) && decide (leAt b 4 2 ≤ 4095)

/-! ### Softmax states (R408–R411, Table 16.3) -/

/-- A softmax state: flags, UFL, and m, S and acc as FP32 bits. -/
structure SmState where
  empty : Bool
  nonfin : Bool
  ufl : Nat
  m : Nat
  sum : Nat
  acc : List Nat
  deriving DecidableEq, Repr

/-- The empty state. -/
def SmState.none : SmState := ⟨true, false, 0, 0xFF800000, 0, List.replicate 128 0⟩

/-- A state's 528 bytes. -/
def SmState.bytes (x : SmState) : List Byte :=
  leBytes 1 0x10 ++ leBytes 1 (b2n x.empty + 2 * b2n x.nonfin) ++ leBytes 2 x.ufl ++ leBytes 4 x.m ++ leBytes 4 x.sum ++ leBytes 4 0 ++
    x.acc.flatMap (leBytes 4)

/-- A state read from its bytes. -/
def smOf (b : List Byte) : SmState :=
  let f := leAt b 1 1
  ⟨natBit f 0, natBit f 1, leAt b 2 2, leAt b 4 4, leAt b 8 4, leChunks 4 128 (b.drop 16)⟩

/-- A magnitude below 2⁻¹²⁶ flushed to zero (R409). -/
def ftz (x : Nat) : Nat := if x % 2 ^ 31 < 2 ^ 23 then 0 else x

/-- An exponential of R409: the value, and whether it was flushed. -/
def expFlush (x : Nat) : Nat × Nat :=
  let e := f32Exp x
  if e < 2 ^ 23 then (0, 1) else (e, 0)

/-- The rescale factor `exp(m − m')`: 1 exactly for an unchanged maximum. -/
def rescale (m m' : Nat) : Nat × Nat := if f32Eq m m' then (0x3F800000, 0) else expFlush (f32Sub m m')

/-- A score (R408): the exact dot product rounded once, times a power of two. -/
def kvScore (scale : Int) (q k : List Byte) : Nat :=
  let v (x : Byte) : Fp := readE4m3 x.toNat
  if (q ++ k).any fun x => !(v x).isFin then fmt32.nan
  else
    let r := dyF32 (Dy.sum ((q.zip k).map fun p => (v p.1).dy.mul (v p.2).dy))
    match read32 r with
    | .fin n m e => ftz (fmt32.write (.fin n m (e + scale)))
    | x => fmt32.write x

/-- One block of positions (K and V bytes) attended by a query: the state, the non-finite scores or operands met, and the
weights and factors flushed. (DEDUCED: notes/assumptions/62.md.) -/
def attendBlock (scale : Int) (q : List Byte) (blk : List (List Byte × List Byte)) (x : SmState) : SmState × Nat × Nat :=
  let sc := blk.map fun p => kvScore scale q p.1
  let bad := (blk.zip sc).filter fun p => !f32Fin p.2 || p.1.2.any fun b => !(readE4m3 b.toNat).isFin
  if x.nonfin || !bad.isEmpty then ({ x with empty := false, nonfin := true }, bad.length, 0)
  else
    let m' := sc.foldl f32Max (if x.empty then 0xFF800000 else x.m)
    let c := if x.empty then (0, 0) else rescale x.m m'
    let w := sc.map fun y => expFlush (ftz (f32Sub y m'))
    let fl := c.2 + (w.map fun p => p.2).sum
    let wd := w.map fun p => f32Dy p.1
    let sum := ftz (f32Add (ftz (f32Mul c.1 x.sum)) (ftz (dyF32 (Dy.sum wd))))
    let acc := x.acc.zipIdx.map fun a =>
      let t := Dy.sum ((wd.zip blk).map fun p => p.1.mul (readE4m3 (leAt p.2.2 a.2 1)).dy)
      ftz (f32Add (ftz (f32Mul c.1 a.1)) (ftz (dyF32 t)))
    (⟨false, false, satAdd 16 fl x.ufl, m', sum, acc⟩, 0, fl)

/-- Two states merged (R411), and the factors flushed. (DEDUCED: notes/assumptions/62.md.) -/
def mergeStates (a b : SmState) : SmState × Nat :=
  if b.empty then (a, 0)
  else if a.empty then (b, 0)
  else if a.nonfin || b.nonfin then ({ a with nonfin := true, ufl := satAdd 16 b.ufl a.ufl }, 0)
  else
    let m := f32Max a.m b.m
    let ca := rescale a.m m
    let cb := rescale b.m m
    let f (x y : Nat) : Nat := ftz (f32Add (ftz (f32Mul ca.1 x)) (ftz (f32Mul cb.1 y)))
    (⟨false, false, satAdd 16 (b.ufl + ca.2 + cb.2) a.ufl, m, f a.sum b.sum, (a.acc.zip b.acc).map fun p => f p.1 p.2⟩, ca.2 + cb.2)

/-- FINAL's output of a state (R412). -/
def finalOut (x : SmState) : List Nat :=
  if x.nonfin then List.replicate 128 0x7FC00000
  else if x.empty then List.replicate 128 0
  else x.acc.map fun a => ftz (f32Div a x.sum)

/-! ### SCAN (R407) -/

/-- The committed positions of a row that a command attends to on this die, one page after another: first position and count. -/
def pageRuns (g : Nat × Nat × Nat) (a : AttnCmd) (r : KvRow) : List (Nat × Nat) :=
  let hi := min r.f (a.pos + a.count)
  if hi ≤ a.pos then []
  else
    ((List.range ((hi - 1) / 64 + 1 - a.pos / 64)).map fun i => a.pos / 64 + i).filterMap fun i =>
      if i % g.1 = g.2.1 then
        let lo := max a.pos (64 * i)
        some (lo, min hi (64 * i + 64) - lo)
      else none

/-- The fresh positions of a row that a command attends to on this die. -/
def freshRun (g : Nat × Nat × Nat) (a : AttnCmd) (r : KvRow) : List Nat :=
  ((List.range r.t).map fun i => r.f + i).filter fun p => decide (a.pos ≤ p) && decide (p < a.pos + a.count) && holdsPos g p

/-- The highest position of a row that a query of a command's `n` step positions from `lo` sees (R407). -/
def topSeen (a : AttnCmd) (r : KvRow) (lo n : Nat) : Nat := if a.causal then r.f + min (lo + n) (r.k0 + r.t) - 1 - r.k0 else r.f + r.t - 1

/-- A position with its K and V bytes. -/
structure KvPos where
  p : Nat
  k : List Byte
  v : List Byte
  deriving DecidableEq, Repr

/-- The positions of runs, from the bytes read for them: for each run its K vectors, then its V vectors. -/
def splitRuns : List (Nat × Nat) → List Byte → List KvPos
  | [], _ => []
  | (p, n) :: l, b =>
    ((List.range n).map fun i => ⟨p + i, sliceBytes b (128 * i) 128, sliceBytes b (128 * (n + i)) 128⟩) ++ splitRuns l (b.drop (256 * n))

/-- The fresh positions that a fresh block holds, of those given. -/
def freshKv (r : KvRow) (fb : List Byte) (l : List Nat) : List KvPos :=
  let lo := leAt fb 2 2
  l.filterMap fun p =>
    let k := r.k0 + p - r.f
    if lo ≤ k ∧ k < lo + leAt fb 4 2 then
      let o := 16 + 256 * (k - lo)
      some ⟨p, sliceBytes fb o 128, sliceBytes fb (o + 128) 128⟩
    else none

/-- Positions in blocks of one ⌊p/64⌋, in order. -/
def kvBlocks (l : List KvPos) : List (List KvPos) :=
  ((l.map fun x => x.p / 64).eraseDups).map fun i => l.filter fun x => x.p / 64 == i

/-- A query scanned over a row's positions. -/
def scanQuery (a : AttnCmd) (qpos : Nat) (q : List Byte) (l : List KvPos) (x : SmState) : SmState × Nat × Nat :=
  let vis := if a.causal then l.filter fun y => decide (y.p ≤ qpos) else l
  (kvBlocks vis).foldl (fun z b =>
    let y := attendBlock a.scale q (b.map fun y => (y.k, y.v)) z.1
    (y.1, z.2.1 + y.2.1, z.2.2 + y.2.2)) (x, 0, 0)

/-- The rows that a command serves. -/
def servedRows (l : List KvRow) (lo n : Nat) : List KvRow := l.filter fun r => decide (r.k0 < lo + n) && decide (lo < r.k0 + r.t)

/-- The bytes that pages give a scan, read through translation row by row. -/
def pageRanges (g : Nat × Nat × Nat) (a : AttnCmd) (l : List KvRow) : List (Nat × Nat) :=
  l.flatMap fun r => (pageRuns g a r).flatMap fun p =>
    let va := kvVa g r.kva a.kvva p.1
    [(va, 128 * p.2), ((va + 0x2000) % 2 ^ 48, 128 * p.2)]

/-- The KV bytes of each row's pages. -/
def rowBytes (g : Nat × Nat × Nat) (a : AttnCmd) (r : KvRow) : Nat := 256 * ((pageRuns g a r).map fun p => p.2).sum

/-- Each row's positions from the bytes read for all of them. -/
def rowKv (g : Nat × Nat × Nat) (a : AttnCmd) (fb : List Byte) : List KvRow → List Byte → List (KvRow × List KvPos)
  | [], _ => []
  | r :: l, b => (r, splitRuns (pageRuns g a r) b ++ freshKv r fb (freshRun g a r)) :: rowKv g a fb l (b.drop (rowBytes g a r))

/-- KV bytes counted for the rows (R403): of a task of tenant 0 to each row, otherwise to the task's tenant. -/
def countKv (d c t : Nat) (l : List (Nat × Nat)) (s : State) : State :=
  let n := (l.map fun p => p.2).sum
  if fget s (coreB d c) F.CORE_TCTL_TENANT t = 0 then
    let k := taskOf s d c t
    modStep (fincSat s (coreB d c) F.CORE_MDRAM_LINES (n / 64) t) k.binding k.step fun p =>
      { p with kv := l.foldl (fun m x => tmod (fun _ => 0) m x.1 (· + x.2)) p.kv }
  else meter d c t 2 (n / 64) s

/-- A command that the engine rejects (R9): a notice, and nothing of it is done. -/
def attnReject (d c : Nat) (r : Run) (s : State) : State :=
  notice 0x0100 d c (leAt r.q.body 0 8) (setRun d c 4 none s)

/-- The states of `n` (k, h) pairs at an address. -/
def statesAt (n : Nat) (b : List Byte) : List SmState := (List.range n).map fun i => smOf (sliceBytes b (528 * i) 528)

/-- Whether every state of a list of bytes has a version that the engine takes. -/
def statesOk (n : Nat) (b : List Byte) : Bool := (List.range n).all fun i => verOk (sliceBytes b (528 * i) 528)

/-- States written at completion. -/
def putStates (d c : Nat) (q : Issued) (addr : Nat) (l : List SmState) (s : State) : State :=
  if l.isEmpty then s else engWrite d c q addr (l.flatMap SmState.bytes) s

/-- A scratchpad read of a unit at work; the unit completes with nothing more delivered where a line is poisoned. -/
def unitRead (d c u : Nat) (q : Issued) (a n : Nat) (k : List Byte → State → State) (s : State) : State :=
  match winRead d c (if u < 4 then .porter else .attention) q a n s with
  | (none, s) => setRun d c u none s
  | (some b, s) => k b s

/-- SCAN with every byte it needs. (DEDUCED: notes/assumptions/62.md.) -/
def scanDone (d c : Nat) (r : Run) (a : AttnCmd) (kv : List (KvRow × List KvPos)) (lo : Nat) (qb : List Byte) (st : List SmState)
    (s : State) : State :=
  let b := coreB d c
  let out := st.zipIdx.map fun p =>
    let k := lo + p.2 / a.heads
    match kv.find? fun x => decide (x.1.k0 ≤ k) && decide (k < x.1.k0 + x.1.t) with
    | some x => scanQuery a (x.1.f + k - x.1.k0) (sliceBytes qb (128 * p.2) 128) x.2 p.1
    | none => (p.1, 0, 0)
  let g := kvGeom s d c r.q.slot
  let fl := (out.map fun p => p.2.2).sum
  let nf := (out.map fun p => p.2.1).sum
  let top (w : KvRow) : Nat := topSeen a w lo (st.length / a.heads)
  let want := (kv.map fun x => ((freshRun g a x.1).filter fun p => decide (p ≤ top x.1)).length).sum
  let fresh := (kv.map fun x => (x.2.filter fun y => decide (x.1.f ≤ y.p) && decide (y.p ≤ top x.1)).length).sum
  let s := odInc (finc (finc s b F.ATTN_CNT_UFL_COUNT fl) b F.ATTN_CNT_NF_COUNT nf) (0x7070 + d) 6 fl
  let s := finc (finc s b F.ATTN_CNT_FRESH_COUNT fresh) b F.ATTN_CNT_FMISS_COUNT (want - fresh)
  let s := if want > fresh then failStitch d c r.q.slot s else s
  let s := finc s b F.ATTN_CNT_BYTES_COUNT ((kv.map fun x => rowBytes g a x.1).sum / 64)
  let s := countKv d c r.q.slot (kv.map fun x => (x.1.idx, rowBytes g a x.1)) s
  setRun d c 4 none (putStates d c r.q a.st (out.map fun p => p.1) s)

/-- SCAN (R407): the pages it needs are read, then it is computed whole. -/
def scanGo (d c : Nat) (r : Run) (a : AttnCmd) (rows : List KvRow) (lo n : Nat) (qh : List Byte) (s : State) : State :=
  let g := kvGeom s d c r.q.slot
  let sv := servedRows rows lo n
  match readRanges d c 4 (pageRanges g a sv) r s with
  | .stop s => s
  | .here pages r s =>
    let fa := addr21 qh 8
    unitRead d c 4 r.q fa 16 (fun fh s =>
      if !freshOk fa fh then attnReject d c r s
      else
        unitRead d c 4 r.q fa (16 + 256 * leAt fh 4 2) (fun fb s =>
          unitRead d c 4 r.q (a.q + 16) (128 * a.heads * n) (fun qb s =>
            let kv := rowKv g a fb sv pages
            if a.first then scanDone d c r a kv lo qb (List.replicate (n * a.heads) .none) s
            else
              unitRead d c 4 r.q a.st (528 * a.heads * n) (fun sb s =>
                if statesOk (n * a.heads) sb then scanDone d c r a kv lo qb (statesAt (n * a.heads) sb) s
                else attnReject d c r s) s) s) s) s

/-- MERGE (R411). -/
def mergeGo (d c : Nat) (r : Run) (a : AttnCmd) (n : Nat) (s : State) : State :=
  let m := n * a.heads
  unitRead d c 4 r.q a.st (528 * m) (fun x s => unitRead d c 4 r.q a.out (528 * m) (fun y s =>
    if !statesOk m x || !statesOk m y then attnReject d c r s
    else
      let l := ((statesAt m x).zip (statesAt m y)).map fun p => mergeStates p.1 p.2
      let fl := (l.map fun p => p.2).sum
      let s := odInc (finc s (coreB d c) F.ATTN_CNT_UFL_COUNT fl) (0x7070 + d) 6 fl
      setRun d c 4 none (putStates d c r.q a.st (l.map fun p => p.1) s)) s) s

/-- FINAL (R412). -/
def finalGo (d c : Nat) (r : Run) (a : AttnCmd) (n : Nat) (s : State) : State :=
  let m := n * a.heads
  unitRead d c 4 r.q a.st (528 * m) (fun x s =>
    if !statesOk m x then attnReject d c r s
    else
      let l := statesAt m x
      let s := if l.any fun y => y.empty || y.nonfin then failStitch d c r.q.slot s else s
      let s := if m = 0 then s else engWrite d c r.q a.out (l.flatMap fun y => (finalOut y).flatMap (leBytes 4)) s
      setRun d c 4 none s) s

/-- The attention command of a core moved on. A step position at or beyond the step's last is skipped (R406). -/
def attnGo (d c : Nat) (r : Run) (s : State) : State :=
  let a := attnOf r.q.body
  match needRows d c 4 r s with
  | .stop s => s
  | .rows rows r s =>
    unitRead d c 4 r.q a.q 16 (fun h s =>
      if !queryOk a.q h then attnReject d c r s
      else
        let lo := leAt h 2 2
        let n := min (leAt h 4 2) (tableTotal rows - lo)
        match a.op with
        | 1 => scanGo d c r a rows lo n h s
        | 2 => mergeGo d c r a n s
        | _ => finalGo d c r a n s) s

/-- An attention row: the front command of the engine, where it is free and the command has this operation. -/
def runAttn (d c op : Nat) (s : State) : State :=
  if (runOf s d c 4).isSome then s
  else runFront d c 20 (fun b => leAt b 1 1 == op) (fun q s => attnGo d c ⟨q, 0, .go, [], [], [], []⟩ s) s

/-! ### The KV-form append (R414) -/

/-- The elements that a KV-form append takes: step position and position. -/
def kvElems (g : Nat × Nat × Nat) (rows : List KvRow) (fh : List Byte) : List (Nat × Nat × KvRow) :=
  ((List.range (leAt fh 4 2)).map fun i => leAt fh 2 2 + i).filterMap fun k =>
    match rowOf rows k with
    | some r => let p := r.f + k - r.k0; if holdsPos g p then some (k, p, r) else none
    | none => none

/-- The writes of the elements, or what the first that is not translated meets. -/
def kvWrites (d c u off : Nat) (g : Nat × Nat × Nat) (fb : List Byte) : Nat → List (Nat × Nat × KvRow) → Run → State → Run ⊕ State
  | _, [], r, _ => .inl r
  | i, (k, p, w) :: l, r, s =>
    let va := kvVa g w.kva off p
    let vb := (va + 0x2000) % 2 ^ 48
    let o := 16 + 256 * (k - leAt fb 2 2)
    let stop (x : Xl) (a : Nat) : Run ⊕ State :=
      match x with
      | .bad kind level => .inr (faultRun d c u kind level a true { r with prog := 256 * i } s)
      | _ => .inr (waitRun d c u (.walk a true) { r with prog := 256 * i } s)
    match xlate s d c r va true true, xlate s d c r vb true true with
    | .ok ga, .ok gb =>
      kvWrites d c u off g fb (i + 1) l { r with acc := r.acc ++ [(ga, sliceBytes fb o 128), (gb, sliceBytes fb (o + 128) 128)] } s
    | .ok _, x => stop x vb
    | x, _ => stop x va

/-- The elements held for the commit gate. -/
def kvHold (d c u : Nat) (r : Run) (rows : List KvRow) (fb : List Byte) (s : State) : State :=
  let g := kvGeom s d c r.q.slot
  let l := kvElems g rows fb
  if !appendRoom s d c (256 * l.length) then porterRefuse d c r.q (setRun d c u none s)
  else
    match kvWrites d c u ((portOf r.q.body).dst % 2 ^ 48) g fb 0 l { r with acc := [] } s with
    | .inr s => s
    | .inl r =>
      let s := finc s (coreB d c) F.ATTN_CNT_APPEND_COUNT l.length
      let s := countKv d c r.q.slot (((l.map fun e => e.2.2.idx).eraseDups).map fun i =>
        (i, 256 * (l.filter fun e => e.2.2.idx == i).length)) s
      holdAppend d c r (l.flatMap fun e => [(e.2.2.idx, e.2.1), (e.2.2.idx, e.2.1)]) (setRun d c u none s)

/-- A KV-form append moved on: its rows, then its fresh block, local or by address. -/
def kvGo (d c u : Nat) (r : Run) (s : State) : State :=
  let p := portOf r.q.body
  match needRows d c u r s with
  | .stop s => s
  | .rows rows r s =>
    if p.srcLocal then
      let a := p.src % 2 ^ 21
      unitRead d c u r.q a 16 (fun fh s =>
        if !freshOk a fh then notice 0x0100 d c (leAt r.q.body 0 8) (setRun d c u none s)
        else unitRead d c u r.q a (16 + 256 * leAt fh 4 2) (fun fb s => kvHold d c u r rows fb s) s) s
    else
      let va := p.src % 2 ^ 48
      match readVa d c u 4 va 16 r s with
      | .stop s => s
      | .here fh r s =>
        if !freshOk va fh then notice 0x0100 d c (leAt r.q.body 0 8) (setRun d c u none s)
        else
          match readVa d c u 512 va (16 + 256 * leAt fh 4 2) r s with
          | .stop s => s
          | .here fb r s => kvHold d c u r rows fb s

/-- A KV-form append at the front of a channel that is free. -/
def runKv (d c ch : Nat) (s : State) : State :=
  if (runOf s d c ch).isSome then s
  else runFront d c (21 + ch) (fun b => isKv (portOf b)) (fun q s => kvGo d c ch ⟨q, 0, .go, [], [], [], []⟩ s) s

/-! ### The commands -/

/-- ATTN_SCAN (R407–R410). -/
def execAttnScan (d c : Nat) (s : State) : Host.Outcome State Fault Refusal := .next (runAttn d c 1 s)
/-- ATTN_MERGE (R411). -/
def execAttnMerge (d c : Nat) (s : State) : Host.Outcome State Fault Refusal := .next (runAttn d c 2 s)
/-- ATTN_FINAL (R412). -/
def execAttnFinal (d c : Nat) (s : State) : Host.Outcome State Fault Refusal := .next (runAttn d c 3 s)
/-- KV_APPEND (R414). -/
def execKvAppend (d c ch : Nat) (s : State) : Host.Outcome State Fault Refusal := .next (runKv d c ch s)

end Sys2Proof.Machine
end

