-- ==== Sys2Proof/Machine/Transfer.lean ====
section
/-! DEFINITION. What a waiting unit is woken by: a finished page walk, the hub's answer to a translation fault, the response of
another die, the end of a snapshot (spec/13_memory_and_translation.md R330–R336). -/

namespace Sys2Proof.Machine

/-- A unit's command moved on. -/
def continueRun (d c u : Nat) (r : Run) (s : State) : State :=
  if u = 4 then attnGo d c r s
  else if isKv (portOf r.q.body) then kvGo d c u r s
  else porterGo d c u r s

/-- TRANSLATION_WALK_DONE (R330, R333): the walk of a unit's page; a leaf goes to the caches and the unit moves on, else the unit
is suspended at a fault (R335). A walk whose table folio is uncorrectable waits for the re-read (R337). -/
def walkDone (d c u : Nat) (s : State) : State :=
  match runOf s d c u with
  | some r =>
    match r.wait with
    | .walk va wr =>
      if rereadDue s d (.unit d c u) then s
      else
        let b := coreB d c
        let tctx := fget s b F.CORE_TTAG_TCTX r.q.slot
        match unitWalk d c u tctx (fget s b F.CORE_TCTL_TENANT r.q.slot) va s with
        | (none, s) => s
        | (some (o, notes), s) =>
          let s := fillPwc d notes (finc s (dieB d) F.MEMC_CNT_WALK_COUNT)
          match o with
          | .leaf big pte =>
            let page := va / 2 ^ 16 % 2 ^ 32
            let s := fillTlb d c ⟨tctx, page, big, pte⟩ s
            let r : Run := { r with wait := .go, pages := r.pages ++ [(page, big, pte)] }
            continueRun d c u r s
          | .bad kind level => faultRun d c u kind level va wr r s
    | _ => s
  | none => s

/-- A suspended unit's fault answered: PORT_CH.FAULT, and SUSPENDED where no other unit of the slot is suspended; the F1 of kind
0x05 closes. -/
def answered (d c u : Nat) (r : Run) (s : State) : State :=
  let b := coreB d c
  let other := (List.range 5).any fun v => v != u && (match runOf s d c v with
    | some ⟨q, _, .fault .., _, _, _, _⟩ => q.slot == r.q.slot
    | _ => false)
  let s := if u < 4 then fset s b F.PORT_CH_FAULT 0 u else s
  let s := if other then s else fset s b F.CORE_TCTL_SUSPENDED 0 r.q.slot
  closeF1 0x0701 d c s

/-- XRESP_RESUME (R335, R336): the unit continues; a descriptor with a list restarts at its element, an attention command from its
first position. -/
def xrespResume (d c u : Nat) (s : State) : State :=
  match runOf s d c u with
  | some r =>
    match r.wait with
    | .fault .. =>
      let p := portOf r.q.body
      let prog := if u < 4 ∧ (p.op = 2 ∨ p.op = 3 ∨ p.op = 4) then r.prog / p.len * p.len else r.prog
      continueRun d c u { r with wait := .go, prog := prog, got := [] } (answered d c u r s)
    | _ => s
  | none => s

/-- XRESP_FAIL (R335): the unit completes with nothing more written, and the stitch check fails. -/
def xrespFail (d c u : Nat) (s : State) : State :=
  match runOf s d c u with
  | some r =>
    match r.wait with
    | .fault .. => failRun d c u r (answered d c u r s)
    | _ => s
  | none => s

/-- XLTWAIT_EXPIRY (R335): FAIL, with an F0 notice. -/
def xltExpiry (d c u : Nat) (s : State) : State :=
  match runOf s d c u with
  | some r =>
    match r.wait with
    | .fault _ _ va _ => notice 0x0700 d c va (xrespFail d c u s)
    | _ => s
  | none => s

/-- The unit of a die that waits for a response: core, unit and its run. -/
def waiter (s : State) (d id : Nat) : Option (Nat × Nat × Run) :=
  (coreList.flatMap fun c => (List.range 5).filterMap fun u =>
    match runOf s d c u with
    | some r => (match r.wait with | .resp _ i => if i = id then some (c, u, r) else none | _ => none)
    | none => none).head?

/-- A read response delivered to its requester; a poisoned one, or one without data, ends the command and fails the stitch check
(R337, R432). -/
def takeResponse (d id : Nat) (poison : Bool) (l : List Byte) (s : State) : State :=
  match waiter s d id with
  | some (c, u, r) =>
    if poison || l.isEmpty then failRun d c u r s
    else
      match r.wait with
      | .resp va _ => continueRun d c u { r with wait := .go, got := r.got ++ [(va, l)] } s
      | _ => s
  | none => s

/-- The units of a die that a snapshot held move on (R446). -/
def wakeHeld (d : Nat) (s : State) : State :=
  coreList.foldl (fun s c => (List.range 5).foldl (fun s u =>
    match runOf s d c u with
    | some r => if r.wait == .held then continueRun d c u { r with wait := .go } s else s
    | none => s) s) s

/-! ### The commands -/

/-- TRANSLATION_WALK_DONE (R333). -/
def execTranslationWalkDone (d c u : Nat) (s : State) : Host.Outcome State Fault Refusal := .next (walkDone d c u s)
/-- XRESP_RESUME (R335). -/
def execXrespResume (d c u : Nat) (s : State) : Host.Outcome State Fault Refusal := .next (xrespResume d c u s)
/-- XRESP_FAIL (R335). -/
def execXrespFail (d c u : Nat) (s : State) : Host.Outcome State Fault Refusal := .next (xrespFail d c u s)
/-- XLTWAIT_EXPIRY (R335). -/
def execXltwaitExpiry (d c u : Nat) (s : State) : Host.Outcome State Fault Refusal := .next (xltExpiry d c u s)

end Sys2Proof.Machine
end

