-- ==== Sys2Proof/Machine/Mesh.lean ====
section
/-! DEFINITION. The die network, its clock islands and the die barrier (spec/12_die_network_and_seam.md). -/

namespace Sys2Proof.Machine

/-! ### Mesh links (R307, R310) -/

/-- How often in a row a flit has been resent at a router's port. -/
def resentAt (s : State) (d r p : Nat) : Nat := tget (fun _ => 0) (dieOf s d).resent (4 * r + p)

/-- The count of resends at a port set. -/
def setResent (d r p n : Nat) (s : State) : State :=
  modDie s d fun x => { x with resent := tset (fun _ => 0) x.resent (4 * r + p) n }

/-- MESH_FLIT_RECEIVE (R307): a flit that fails its parity check is resent, up to two times; a clean resend is an F1, and a third
failure puts the receiving router Out. -/
def flitReceive (d r p : Nat) (ok : Bool) (s : State) : State :=
  let n := resentAt s d r p
  if (dieOf s d).outRouters.contains r then s
  else if ok then
    if n = 0 then s
    else
      let s := odInc (finc (setResent d r p 0 s) (dieB d) F.MESH_CNT_REPLAY_COUNT) (0x3070 + d) 7
      closeF1 0x0501 d 0 (fault 0x0501 d 0 0 s)
  else if n < 2 then setResent d r p (n + 1) s
  else fault 0x0502 d r 0 (routerOut d r (2 ^ p) (setResent d r p 0 s))

/-- The routes that a core lacks: to enabled cores, and to any ring port (R310). -/
def lackedRoutes (s : State) (d c : Nat) : Nat :=
  let l := reachable (dieOf s d).outRouters c
  let cores := (coreList.filter fun x => x != c && coreEnabled s d x && !coreFenced s d x && !l.contains x).length
  cores + (if l.any fun r => decide (r < 12) || decide (60 ≤ r) then 0 else 1)

/-- The enabled core that lacks the most routes, the higher-numbered of equals; none where every core has all. -/
def worstCore (s : State) (d : Nat) : Option Nat :=
  ((coreList.filter fun c => coreEnabled s d c && !coreFenced s d c).foldl (fun (a : Nat × Option Nat) c =>
    let n := lackedRoutes s d c
    if n > 0 ∧ n ≥ a.1 then (n, some c) else a) (0, none)).2

/-- Cores without routes fenced, one after another (R310); `k` bounds them. -/
def fenceUnrouted (d : Nat) : Nat → State → State
  | 0, s => s
  | k + 1, s =>
    match worstCore s d with
    | none => s
    | some c =>
      let s := fault 0x0502 d c 0 s
      if coreFenced s d c then fenceUnrouted d k s else s

/-- ROUTE_RECOMPUTE_DONE (R310): the new routes are in force, and the epoch rises. -/
def routesDone (d : Nat) (s : State) : State :=
  let b := dieB d
  if fget s b F.MESH_ROUTE_BUSY = 0 then s
  else
    let s := fenceUnrouted d 72 s
    let s := finc (fset s b F.MESH_ROUTE_BUSY 0) b F.MESH_ROUTE_EPOCH
    barrierCheck d (fset s b F.MESH_STAT_DETOUR (b2n (anyDetour s d)))

/-- SEAM_HEARTBEAT_TIMEOUT (R316): the seam is lost, an F2 on the die. -/
def seamLost (d : Nat) (s : State) : State :=
  if !(dieOf s d).fwUp ∨ dieState s d > 3 then s else fault 0x0503 d 0 0 (fset s (dieB d) F.MESH_STAT_SEAM_LOST 1)

/-- DIE_BARRIER_ARRIVE (R318). -/
def barrierArrive (d c : Nat) (s : State) : State :=
  if coreEnabled s d c && !coreFenced s d c then
    barrierCheck d (modDie s d fun x => { x with barrier := if x.barrier.contains c then x.barrier else x.barrier ++ [c] })
  else s

/-! ### Clocks (R273, R312) -/

/-- The cores of a half. -/
def halfCores (h : Nat) : List Nat := coreList.filter fun c => halfOf c == h

/-- MESH_SEAM.SLOWSIDE as the halves' clocks stand. -/
def showSlow (d : Nat) (s : State) : State :=
  fset s (dieB d) F.MESH_SEAM_SLOWSIDE (b2n (fget s (dieB d) F.MESH_HCLK_ACT 1 < fget s (dieB d) F.MESH_HCLK_ACT 0))

/-- A half's code brought into force once no core of it runs above it (R319). -/
def settleHalf (d h : Nat) (s : State) : State :=
  let b := dieB d
  let code := fget s b F.MESH_HCLK_CODE h
  if (halfCores h).all fun c => fget s (coreB d c) F.CORE_CLK_CLK_ACT ≤ code then
    showSlow d (fset (fset s b F.MESH_HCLK_ACT code h) b F.MESH_HCLK_CHANGING 0 h)
  else fset s b F.MESH_HCLK_CHANGING 1 h

/-- A core's clock requested: its half's code caps it (R312). -/
def requestClock (d c k : Nat) (s : State) : State :=
  let b := coreB d c
  let k := min k (fget s (dieB d) F.MESH_HCLK_CODE (halfOf c))
  if fget s b F.CORE_CLK_CLK_REQ = k then s
  else fset (fset s b F.CORE_CLK_CLK_REQ k) b F.CORE_CLK_CHANGING (b2n (k != fget s b F.CORE_CLK_CLK_ACT))

/-- A half's code requested, with its cause: the cores that run above it are lowered first (R312, R319). -/
def requestHalf (d h code cause : Nat) (s : State) : State :=
  let b := dieB d
  let s := fset (fset s b F.MESH_HCLK_CODE code h) b F.MESH_HCLK_CAUSE cause h
  let s := (halfCores h).foldl (fun s c => if fget s (coreB d c) F.CORE_CLK_CLK_REQ > code then requestClock d c code s else s) s
  settleHalf d h s

/-- CORE_CLOCK_CHANGE_DONE (R273): CLK_ACT reports the code asked for, and the half's change may follow. -/
def clockDone (d c : Nat) (s : State) : State :=
  let b := coreB d c
  if fget s b F.CORE_CLK_CHANGING = 0 then s
  else
    let s := fset (fset s b F.CORE_CLK_CLK_ACT (fget s b F.CORE_CLK_CLK_REQ)) b F.CORE_CLK_CHANGING 0
    if fget s (dieB d) F.MESH_HCLK_CHANGING (halfOf c) = 1 then settleHalf d (halfOf c) s else s

/-! ### The commands -/

/-- MESH_FLIT_RECEIVE (R307). -/
def execMeshFlitReceive (d router port : Nat) (ok : Bool) (s : State) : Host.Outcome State Fault Refusal :=
  .next (flitReceive d router port ok s)
/-- SEAM_HEARTBEAT_TIMEOUT (R316). -/
def execSeamHeartbeatTimeout (d : Nat) (s : State) : Host.Outcome State Fault Refusal := .next (seamLost d s)
/-- CORE_CLOCK_CHANGE_DONE (R273). -/
def execCoreClockChangeDone (d c : Nat) (s : State) : Host.Outcome State Fault Refusal := .next (clockDone d c s)

end Sys2Proof.Machine
end

