-- ==== Sys2Proof/Machine/Fabric.lean ====
section
/-! DEFINITION. The fabric: cables, training, classification, link retry, packets on arrival, link-state records and route tables,
and global operations (spec/17_fabric.md). -/

namespace Sys2Proof.Machine

/-! ### Cables, training (R44, R429, R430) -/

/-- The partner die of a port (Table 19.3): as its last IDENT named it, else as the plan has it. -/
def partnerDie (s : State) (d p : Nat) : Nat :=
  let b := dieB d
  if fget s b F.LINK_PARTNER_VALID p = 1 then fget s b F.LINK_PARTNER_DIE p else ((gridOf s).facing (dieNum s d) p).getD 0

/-- A port brought Down by the link layer (R431): an F2 where it was Routed, unless its partner has marked it Down (R486);
then a full retrain. -/
def portDown (d p : Nat) (s : State) : State :=
  let b := dieB d
  let routed := portClass s d p == 1
  let warned := fget s b F.LINK_PARTNER_VALID p == 1 && !internalPort d p &&
    (lsaOf s (fget s b F.LINK_PARTNER_DIE p) (fget s b F.LINK_PARTNER_PORT p)).cls != 1
  let m := partnerDie s d p
  let s := linkDown d p s
  let s := if routed && !warned then fault 0x0803 d p m s else notice 0x0800 d 0 m s
  startTraining d p s

/-- CABLE_INSERTED (R44). -/
def cableIn (d p : Nat) (s : State) : State :=
  let k := d * 8 + p
  if internalPort d p || s.power.cables.contains k then s
  else
    let s := { s with power := { s.power with cables := s.power.cables ++ [k] } }
    startTraining d p s

/-- CABLE_REMOVED (R44): the port has no cable; a Routed link has gone Down. -/
def cableOut (d p : Nat) (s : State) : State :=
  let k := d * 8 + p
  if internalPort d p || !s.power.cables.contains k then s
  else
    let s := { s with power := { s.power with cables := s.power.cables.filter fun x => x != k } }
    let s := if portClass s d p = 1 then portDown d p s else dropPort d p s
    setPort d p 0 (lostClass s d p) false s

/-- PORT_TRAINING_DONE (R429): four lanes, two (an F1), or none. -/
def trained (d p lanes : Nat) (s : State) : State :=
  let b := dieB d
  if portState s d p ≠ 2 then s
  else
    let lanes := if lanes = 2 ∧ fget s b F.LINK_CTRL_WIDTHPOL p = 1 then 0 else lanes
    if lanes = 4 ∨ lanes = 2 then
      let s := closeF1 0x0801 d p s
      let s := if lanes = 2 then fault 0x0801 d p (partnerDie s d p) s else s
      let s := fset (fset s b F.LINK_PARTNER_VALID 0 p) b F.LINK_STAT_VERSION 0 p
      let s := modPort d p (fun x => { PortSt.off with since := x.since, fretr := x.fretr }) s
      sendIdent d p (setPort d p 3 (portClass s d p) (lanes == 2) s)
    else
      let s := if (portAt s d p).noted then s else notice 0x0800 d 0 (partnerDie s d p) s
      let s := modPort d p (fun x => { x with noted := true }) s
      setPort d p 1 (portClass s d p) false s

/-- TRAINING_RETRY_TICK (R429). -/
def retryTraining (d p : Nat) (s : State) : State := if portState s d p = 1 then
    (if mayTrain s d p then setPort d p 2 (portClass s d p) false s else s) else s

/-- LINK_RETRAIN: a full retrain of the port, which is Missing until it is classified again. -/
def retrain (d p : Nat) (s : State) : State := startTraining d p (dropPort d p s)

/-! ### Classification (R436, R437) -/

/-- What IDENT is expected to say: serial, die number, port. -/
def partnerOf (s : State) (d p : Nat) : Option (List Byte × Nat × Nat) :=
  match (gridOf s).facing (dieNum s d) p with
  | some m =>
    let own := (s.flash.serial ++ List.replicate 16 0#8).take 16
    some (if planned s then serialAt (planBytes s) ((gridOf s).posOf m) else own, m, p + 1 - 2 * (p % 2))
  | none => none

/-- MISREASON of an IDENT at an expected port: 0 where it is what the plan says (Table 17.4). -/
def misreason (s : State) (d p : Nat) (i : Ident) : Nat :=
  match partnerOf s d p with
  | none => 2
  | some (ser, die, port) =>
    if (i.serial ++ List.replicate 16 0#8).take 16 ≠ ser then 1
    else if i.die ≠ die ∨ i.port ≠ port then 2
    else if i.planHash ≠ planHash s then 3
    else if !natBit i.majors 1 then 4 else 0

/-- A port classified by its IDENT: Routed, Extra or Miswired; a new Extra, Miswired or version finding is an F0 notice. -/
def classify (d p : Nat) (s : State) : State :=
  match (portAt s d p).ident with
  | none => s
  | some i =>
    let b := dieB d
    let exp := expected s d p
    let why := if exp then misreason s d p i else if natBit i.majors 1 then 0 else 4
    let cls := if !exp then 3 else if why = 0 then 1 else 4
    let was := (portClass s d p, fget s b F.LINK_STAT_MISREASON p)
    let s := fset (fset s b F.LINK_STAT_MISREASON why p) b F.LINK_STAT_VERSION (if natBit i.majors 1 then 0x10 else 0) p
    let s := setPort d p (if cls = 1 then 3 else 4) cls (fget s b F.LINK_STAT_X2 p == 1) s
    if cls ≠ 1 ∧ was ≠ (cls, why) then notice 0x0800 d 0 (partnerDie s d p) s else s

/-- IDENT_RECEIVED (R430, R436): the partner is noted and the port classified. -/
def identReceived (d p : Nat) (i : Ident) (s : State) : State :=
  let b := dieB d
  if portState s d p < 3 then s
  else
    let s := fset (fset (fset s b F.LINK_PARTNER_DIE i.die p) b F.LINK_PARTNER_PORT i.port p) b F.LINK_PARTNER_VALID 1 p
    classify d p (modPort d p (fun x => { x with ident := some i }) s)

/-- IDENT_SEND_TICK (R430): while the port is Quarantined. -/
def identTick (d p : Nat) (s : State) : State := if portState s d p = 4 then sendIdent d p s else s

/-- DISCTO_EXPIRY (R436): an expected port without IDENT is Missing, an F0. -/
def disctoExpiry (d p : Nat) (s : State) : State :=
  if expected s d p && portClass s d p == 0 && (portAt s d p).ident.isNone then
    notice 0x0800 d 0 (partnerDie s d p) (setPort d p (portState s d p) 2 (fget s (dieB d) F.LINK_STAT_X2 p == 1) s)
  else s

/-! ### Link retry (R431) -/

/-- A replay noted; more than 16 within 1 ms start a fast retrain, and three of these within 1 s bring the port Down.
(DESIGN CHOICE: notes/assumptions/67.md.) -/
def noteReplay (d p : Nat) (s : State) : State :=
  let b := dieB d
  let now := hubTime s
  let s := odInc (finc s b F.LINK_CNT_REPLAY_COUNT 1 p) (0x6040 + d) 8
  let s := modPort d p (fun x => { x with replays := now :: x.replays.filter fun t => decide (now < t + 1000) }) s
  if (portAt s d p).replays.length > 16 ∧ !(portAt s d p).retraining then
    let s := finc s b F.LINK_CNT_FRETRAIN_COUNT 1 p
    let s := modPort d p (fun x => { x with
      replays := [], retraining := true, fretr := now :: x.fretr.filter fun t => decide (now < t + 1000000) }) s
    let s := fault 0x0802 d p (partnerDie s d p) s
    if (portAt s d p).fretr.length ≥ 3 then portDown d p (closeF1 0x0802 d p s) else s
  else s

/-- One bit more in a CRC-64 by the ECMA-182 polynomial. -/
def crcBit (c : Nat) (bit : Bool) : Nat :=
  let c' := 2 * c % 2 ^ 64
  if natBit c 63 != bit then c' ^^^ 0x42F0E1EBA9EA3693 else c'

/-- The CRC-64 of a flit (R426), most significant bits first from zero. (DESIGN CHOICE: notes/assumptions/67.md.) -/
def crc64 (l : List Byte) : Nat :=
  l.foldl (fun c x => (List.range 8).foldl (fun c i => crcBit c (natBit x.toNat (7 - i))) c) 0

/-- Whether a flit of 256 bytes carries its CRC. -/
def flitOk (l : List Byte) : Bool := l.length == 256 && crc64 (l.take 248) == leAt l 248 8

/-- LINK_FLIT_RECEIVE (R426, R431): the lanes' codewords counted, as many as the lanes' decoders have corrected and found uncorrectable; a
flit whose CRC fails, or whose SEQ is not the next in order, is discarded and a replay asked for; ACKSEQ frees the replay buffer. -/
def flitIn (d p corr unc : Nat) (flit : List Byte) (s : State) : State :=
  let b := dieB d
  let seq := leAt flit 2 2 % 4096
  let ack := leAt flit 4 2 % 4096
  if portState s d p < 3 then s
  else
    let s := finc (finc (finc s b F.LINK_CNT_RXFLIT_COUNT 1 p) b F.LINK_CNT_FECCORR_COUNT corr p) b F.LINK_CNT_FECUNC_COUNT unc p
    let s := odInc s (0x6040 + d) 7 unc
    let x := portAt s d p
    if flitOk flit && seq == x.expSeq then
      let un := match x.unacked.findIdx? fun k => k == ack with | some i => x.unacked.drop (i + 1) | none => x.unacked
      modPort d p (fun x => { x with expSeq := (x.expSeq + 1) % 4096, asked := false, unacked := un }) s
    else if x.asked then s
    else noteReplay d p (modPort d p (fun x => { x with asked := true }) s)

/-- LINK_REPLAY (R431): the sender goes back to the SEQ asked for; the replay buffer holds 64 flits.
(DESIGN CHOICE: notes/assumptions/67.md.) -/
def replay (d p seq : Nat) (s : State) : State :=
  match (portAt s d p).unacked.findIdx? fun k => k == seq with
  | some i =>
    if i < 64 then
      let n := min 64 (portAt s d p).unacked.length - i
      noteReplay d p (finc s (dieB d) F.LINK_CNT_TXFLIT_COUNT n p)
    else s
  | none => s

/-- FAST_RETRAIN_DONE (R431). (DESIGN CHOICE: notes/assumptions/67.md.) -/
def fastDone (d p : Nat) (ok : Bool) (s : State) : State :=
  if !(portAt s d p).retraining then s
  else
    let s := closeF1 0x0802 d p (modPort d p (fun x => { x with retraining := false }) s)
    if ok then s else portDown d p s

/-! ### Packets on arrival (R432, R433, R440) -/

/-- A packet dropped on arrival. -/
def dropPacket (d p : Nat) (s : State) : State := finc s (dieB d) F.LINK_CNT_DROP_COUNT 1 p

/-- The tenant presence table (R433, R453). -/
def tenantPresent (s : State) (t : Nat) : Bool :=
  t == 0 || (match tget (fun _ => none) s.tenants t with | some x => x.st != 0 | none => false) || s.serve.queues.any (fun p => p.2.tenant == t) || s.serve.ctxs.any (fun p => p.2.st != 0 && p.2.tenant == t) ||
  s.models.keys.any (fun p => match p.2 with | some k => k.tenant == t | none => false) ||
  s.models.objs.any (fun p => match p.2 with | some o => o.tenant == t | none => false)

/-- Whether a DRAM range of a die lies in regions that the hub has given to a tenant (R433): the regions of its private objects; to tenant
0x0000, whose contexts map every use of DRAM, all of them. (DEDUCED: notes/assumptions/81.md.) -/
def ownsRange (s : State) (d t a n : Nat) : Bool :=
  t == 0 || (List.range ((a + max 1 n - 1) / 2 ^ 21 + 1 - a / 2 ^ 21)).all fun i => tget (fun _ => 0) s.fab.owner (d * 2 ^ 17 + a / 2 ^ 21 + i) == t

/-- Link bytes that a die injects for a tenant, outside a task of its own. -/
def linkBytes (t n : Nat) (s : State) : State :=
  match tget (fun _ => none) s.tenants t with
  | some x =>
    let u := [0, 0, 0, n]
    { s with tenants := tset (fun _ => none) s.tenants t (some { x with bal := payInt x.budget x.bal u, used := addLists x.used u }) }
  | none => s

/-- A data packet injected by a die, or held back until its snapshot ends (R446). -/
def injectHeld (d : Nat) (x : Packet) (s : State) : State :=
  if snapHeld s d then { s with fab := { s.fab with heldTx := s.fab.heldTx ++ [(d, x)] } }
  else linkBytes x.tenant x.data.length (inject d x s).2

/-- A read response. -/
def answerRead (d : Nat) (x : Packet) (poison : Bool) (l : List Byte) (s : State) : State :=
  injectHeld d { dataPacket 3 x.src x.tenant x.tag l.length x.addr x.reqid l with poison := poison } s

/-- A read request of another die served: its bytes, or nothing where the die is in reset or the space is not DRAM; a folio that is
uncorrectable is re-read first (R337). -/
def readFor (d : Nat) (x : Packet) (s : State) : State :=
  let off := x.addr % 2 ^ 48
  if x.addr / 2 ^ 48 % 4 = 0 ∧ dramServes s d off then
    match readDram d off x.len 0 (.answer x) s with
    | (some b, s) => answerRead d x false b s
    | (none, s) => s
  else answerRead d x true [] s

/-- A data packet at its destination (R433, R258). -/
def deliverPacket (d p : Nat) (x : Packet) (s : State) : State :=
  let off := x.addr % 2 ^ 48
  let dram := x.addr / 2 ^ 48 % 4 == 0
  let s := { s with fab := { s.fab with del := tmod (fun _ => 0) s.fab.del d (· + 1) } }
  let bad := x.typ != 3 && (!tenantPresent s x.tenant || (dram && !ownsRange s d x.tenant off x.len))
  if bad || (x.typ == 3 && !tenantPresent s x.tenant) then
    let s := notice 0x0800 d 0 (partnerDie s d p) (dropPacket d p s)
    if x.typ = 2 then answerRead d x false [] s else s
  else
    match x.typ with
    | 1 =>
      if dram then (if dramServes s d off then dramWrite d off (x.data.take x.len) s else s)
      else { s with wire := s.wire ++ [⟨2 ^ 24 + x.src * 4 + 2 * x.epoch + b2n x.esc, d, off / 2 ^ 21 % 128, x.tenant, x.tag, off % 2 ^ 21,
        x.data.take x.len, if dieList.any fun e => dieNum s e == x.src then x.reqid else 0, []⟩] }
    | 2 => readFor d x s
    | 3 => takeResponse d x.reqid x.poison x.data s
    | _ => dropPacket d p s

/-- A packet on arrival at a port: dropped at a Quarantined port, with another major version, at HOPS 255, or where its next link
is not Routed; forwarded by its own EPOCH and ESC; or delivered. -/
def packetIn (d p : Nat) (x : Packet) (s : State) : State :=
  if portState s d p ≠ 3 ∨ x.ver / 16 ≠ 1 ∨ x.typ = 0 ∨ x.typ > 4 then dropPacket d p s
  else if x.dst = dieNum s d then (if x.ctl || x.typ == 4 then s else deliverPacket d p x s)
  else
    let r := routeOf s d x.epoch x.dst
    let q := if x.esc then r.esc else r.dor
    if x.hops + 1 ≥ 255 ∨ q > 5 then dropPacket d p s
    else if portClass s d q ≠ 1 then dropPacket d p s
    else sendOn d q { x with hops := x.hops + 1, vc := nextVc s d q (some p) x } s

/-- PACKET_ARRIVAL: on an internal link the oldest packet that the partner die has sent; on an external one what the cable
brings. (DEDUCED: notes/assumptions/57.md.) -/
def packetArrival (d p : Nat) (x : Packet) (s : State) : State :=
  if internalPort d p then
    let e := d + 2 ^ (p / 2) - 2 * 2 ^ (p / 2) * (d / 2 ^ (p / 2) % 2)
    let k := e * 8 + (p + 1 - 2 * (p % 2))
    match tget (fun _ => []) s.fab.wire k with
    | [] => s
    | y :: l => packetIn d p y { s with fab := { s.fab with wire := tset (fun _ => []) s.fab.wire k l } }
  else packetIn d p x s

/-! ### Link-state records and route tables (R439, R442) -/

/-- LSA_RECEIVED (R439): the newest record of each port is kept, and flooded on. -/
def lsaReceived (d p : Nat) (r : Lsa) (s : State) : State :=
  if portClass s d p ≠ 1 ∨ (localDie s r.die).isSome then s
  else
    let old := lsaOf s r.die r.port
    if old.seq < r.seq ∨ (old.cls = 0 ∧ old.seq = 0) then flood r (some (d, p)) (keepLsa r s) else s

/-- LSA_PERIODIC_TICK (R439). -/
def lsaTick (s : State) : State := allPorts.foldl (fun s q => ownLsa q.1 q.2 s) s

/-- Route tables of every die written into an epoch. -/
def writeRoutes (epoch : Nat) (s : State) : State :=
  let dst := plannedDies s
  let t := dieList.foldl (fun t d =>
    let n := dieNum s d
    let tree := treeDepths s n
    let base := t.filter fun p => decide (p.1 / 2 ^ 14 ≠ 2 * d + epoch)
    dst.foldl (fun t m => tset (fun _ => Route.none) t ((d * 2 + epoch) * 2 ^ 14 + m) (routeFor s tree n m)) base) s.fab.routes
  { s with fab := { s.fab with routes := t } }

/-! ### Group trees (R443) -/

/-- A group's operation. -/
def gopOf (s : State) (g : Nat) : GOp := tget (fun _ => GOp.idle) s.fab.gops g

/-- A group's operation changed. -/
def modGop (g : Nat) (f : GOp → GOp) (s : State) : State :=
  { s with fab := { s.fab with gops := tmod (fun _ => GOp.idle) s.fab.gops g f } }

/-- One local die in an operation. -/
def dieOpOf (o : GOp) (d : Nat) : DieOp := tget (fun _ => DieOp.none) o.dies d

/-- The list of a group (OD 0x6060.g): module positions. -/
def groupList (s : State) (g : Nat) : List Nat := let b := (odGet s 0x6060 g).bytesOf; leChunks 4 (b.length / 4) b

/-- The digest of a group's list that an arrival carries; zero for group 0. -/
def listDigest (s : State) (g : Nat) : Nat := if g = 0 then 0 else (Config.sha384 ((odGet s 0x6060 g).bytesOf)).toNat % 2 ^ 64

/-- The members of a group. -/
def members (s : State) (g : Nat) : List Nat :=
  if g = 0 then
    let l := reachOf s (dieNum s 0)
    (plannedDies s).filter fun n => (distOf l n).isSome
  else (groupList s g).flatMap fun m => (List.range 8).map fun i => (gridOf s).dieAt m i

/-- The root of a group. -/
def rootOf (s : State) (g : Nat) : Nat := match members s g with | [] => 0 | a :: l => l.foldl min a

/-- The next die towards a root: dimension order, or the escape next hop where that link is not Routed. -/
def towards (s : State) (root n : Nat) : Option Nat :=
  if n = root then none
  else
    match routedTo s n (dorPort (gridOf s) n root) with
    | some m => some m
    | none =>
      match escapePort s (treeDepths s n) n root with
      | some p => routedTo s n p
      | none => none

/-- The path of a die to a root, without itself; `k` bounds the hops. -/
def pathTo (s : State) (root : Nat) : Nat → Nat → List Nat
  | 0, _ => []
  | k + 1, n => match towards s root n with | some m => m :: pathTo s root k m | none => []

/-- A die's parent in a group tree: the next member on its way to the root; dies that are no members forward. -/
def parentOf (s : State) (g n : Nat) : Option Nat := (pathTo s (rootOf s g) 256 n).find? fun m => (members s g).contains m

/-- A die's children in a group tree. -/
def childrenOf (s : State) (g n : Nat) : List Nat := (members s g).filter fun m => parentOf s g m == some n

/-- The depth of a group tree (LINK_BAR.DEPTH). -/
def groupDepth (s : State) (g : Nat) : Nat := ((members s g).map fun n => (pathTo s (rootOf s g) 256 n).length).foldl max 0

/-! ### Global operations (R445–R447) -/

/-- A control message sent towards a die number. -/
def sendTo (d dst typ : Nat) (body : List Byte) (s : State) : State :=
  (inject d ⟨0x10, 4, true, 0, false, false, 0, dst, 0, 0, 0, body.length, typ, 0, body, 0⟩ s).2

/-- Every data packet counted by the local dies. -/
def packetSums (s : State) : Nat × Nat := ((s.fab.inj.map fun p => p.2).sum, (s.fab.del.map fun p => p.2).sum)

/-- LINK_BAR of a die as an operation opens. -/
def openBar (d g kind seq : Nat) (s : State) : State :=
  let b := dieB d
  let s := fset (fset (fset s b F.LINK_BAR_GROUP g) b F.LINK_BAR_KIND kind) b F.LINK_BAR_SEQ seq
  fset (fset s b F.LINK_BAR_DEPTH (min 255 (groupDepth s g))) b F.LINK_BAR_OPEN 1

/-- The snapshot record (R446); its layout is the model's. -/
def snapRecord (s : State) (g seq : Nat) : List Byte :=
  let c := packetSums s
  leBytes 1 0x10 ++ leBytes 1 g ++ leBytes 2 seq ++ leBytes 4 0 ++ leBytes 8 (hubTime s) ++ leBytes 8 c.1 ++ leBytes 8 c.2 ++
    (List.range 4).flatMap fun b => leBytes 8 (bindOf s b).committed

/-- A die's arrival of its own noted in an operation; a snapshot's last arrival leaves its record. -/
def ownArrive (d g : Nat) (s : State) : State :=
  let s := modGop g (fun o => { o with dies := tmod (fun _ => DieOp.none) o.dies d fun x => { x with own := true } }) s
  if (gopOf s g).kind = 2 then odPut s 0x6062 0 (.bytes (snapRecord s g (gopOf s g).seq)) else s

/-- The packets that snapshots held back sent once no die of the module is held. -/
def freeHeld (s : State) : State :=
  let l := s.fab.heldTx
  let s := { s with fab := { s.fab with heldTx := [] } }
  let s := l.foldl (fun s p => injectHeld p.1 p.2 s) s
  dieList.foldl (fun s d => if snapHeld s d then s else wakeHeld d s) s

/-- The relation of hub times at a group-0 release (R447): own time, the root's time carried, the uncertainty, the root. -/
def relateTime (d rootTime : Nat) (s : State) : State :=
  let s := odSet (odSet s 0x6030 1 (1000 * hubTime s)) 0x6030 2 rootTime
  let s := odSet s 0x6030 3 ((pathTo s (rootOf s 0) 256 (dieNum s d)).length * 110 + 100)
  odSet s 0x6030 4 (rootOf s 0)

/-- A local die released: RELEASE goes to its children, and with the last die of the module the operation is over. A group-0 release
but a snapshot's switches the epoch where tables have been written (R442, R449). `k` bounds the local dies on a path. -/
def releaseDie (g rootTime : Nat) : Nat → Nat → State → State
  | 0, _, s => s
  | k + 1, d, s =>
    let b := dieB d
    let o := gopOf s g
    let kids := childrenOf s g (dieNum s d)
    let s := modGop g (fun o => { o with dies := tset (fun _ => DieOp.none) o.dies d DieOp.none }) s
    let s := fset s b F.LINK_BAR_OPEN 0
    let s := if g = 0 then relateTime d rootTime s else s
    let s := if g = 0 ∧ o.kind ≠ 2 ∧ s.fab.written then fset s b F.LINK_FAB_EPOCH (1 - fget s b F.LINK_FAB_EPOCH) else s
    let s := kids.foldl (fun s n =>
      match localDie s n with
      | some e => releaseDie g rootTime k e s
      | none => sendTo d n 4 (leBytes 1 g ++ leBytes 1 0 ++ leBytes 2 o.seq ++ leBytes 4 0 ++ leBytes 8 rootTime) s) s
    if (gopOf s g).dies.isEmpty && (gopOf s g).isOpen then
      let s := modGop g (fun o => { o with isOpen := false, bad := none }) s
      let s := if g = 0 ∧ o.kind ≠ 2 ∧ s.fab.written then odInc { s with fab := { s.fab with written := false } } 0x6011 5 else s
      freeHeld s
    else s

/-- Whether a local die is a member of a group. -/
def isMember (s : State) (g d : Nat) : Bool := (members s g).contains (dieNum s d)

/-- RETRY at a local die (R446): it and its subtree arrive again. -/
def retryDie (g : Nat) : Nat → Nat → State → State
  | 0, _, s => s
  | k + 1, d, s =>
    let kids := childrenOf s g (dieNum s d)
    let seq := (gopOf s g).seq
    let s := modGop g (fun o => { o with dies := tset (fun _ => DieOp.none) o.dies d ⟨true, [], false⟩ }) s
    let s := odPut s 0x6062 0 (.bytes (snapRecord s g seq))
    kids.foldl (fun s n =>
      match localDie s n with
      | some e => retryDie g k e s
      | none => sendTo d n 5 (leBytes 1 g ++ leBytes 1 0 ++ leBytes 2 seq) s) s

/-- A die's counts with those of its subtree: injected, delivered. -/
def subtreeSums (s : State) (g d : Nat) : Nat × Nat :=
  let l := (dieOpOf (gopOf s g) d).kids
  (tget (fun _ => 0) s.fab.inj d + (l.map fun p => p.2.1).sum, tget (fun _ => 0) s.fab.del d + (l.map fun p => p.2.2).sum)

/-- An operation that its root ends because list digests differ (R443). -/
def endBad (g : Nat) (s : State) : State :=
  let l := (gopOf s g).dies
  let s := l.foldl (fun s p => fset s (dieB p.1) F.LINK_BAR_OPEN 0) s
  freeHeld (notice 0x0800 hubDie 0 0 (modGop g (fun o => { o with isOpen := false, dies := [], bad := none }) s))

/-- Arrivals carried as far up the local part of a tree as they go; `k` bounds the rounds. -/
def advance (g : Nat) : Nat → State → State
  | 0, s => s
  | k + 1, s =>
    let o := gopOf s g
    if !o.isOpen then s
    else
      let ready := dieList.find? fun d =>
        let x := dieOpOf o d
        x.own && !x.sent && (childrenOf s g (dieNum s d)).all fun n => x.kids.any fun y => y.1 == n
      match ready with
      | none => s
      | some d =>
        let c := subtreeSums s g d
        let n := dieNum s d
        let s := modGop g (fun o => { o with dies := tmod (fun _ => DieOp.none) o.dies d fun x => { x with sent := true } }) s
        match parentOf s g n with
        | none =>
          if o.bad.isSome then endBad g s
          else if o.kind = 2 ∧ c.1 ≠ c.2 then advance g k (retryDie g 9 d s)
          else releaseDie g (1000 * hubTime s) 9 d s
        | some m =>
          match localDie s m with
          | some e => advance g k (modGop g (fun o => { o with
              dies := tmod (fun _ => DieOp.none) o.dies e fun x => { x with kids := x.kids ++ [(n, c.1, c.2)] } }) s)
          | none =>
            advance g k (sendTo d m 3 (leBytes 1 g ++ leBytes 1 o.kind ++ leBytes 2 o.seq ++ leBytes 8 (o.bad.getD (listDigest s g)) ++
              leBytes 8 c.1 ++ leBytes 8 c.2) s)

/-- An operation begun by this module's hub: each local member arrives, with CORES set once its die barrier has released; the hubs' own
barriers involve no core (R447). A group in an operation keeps it. -/
def startGop (g kind : Nat) (s : State) (cores : Bool := true) : State :=
  if (gopOf s g).isOpen then s
  else
    let l := dieList.filter fun d => isMember s g d
    if l.isEmpty then s
    else
      let seq := ((gopOf s g).seq + 1) % 65536
      let old := (gopOf s g).dies
      let s := modGop g (fun o => { o with isOpen := true, kind := kind, seq := seq, dies := old, bad := o.bad }) s
      let s := l.foldl (fun s d =>
        let s := openBar d g kind seq s
        if cores && fget s (dieB d) F.LINK_BAR_CORES == 1 then s else ownArrive d g s) s
      advance g 64 s

/-- What a die barrier's release does for the operations that wait for it (LINK_BAR.CORES, R445). -/
def barReleased (d : Nat) (s : State) : State :=
  (List.range 16).foldl (fun s g =>
    if (gopOf s g).isOpen && isMember s g d && !(dieOpOf (gopOf s g) d).own && fget s (dieB d) F.LINK_BAR_CORES == 1 then
      advance g 64 (ownArrive d g s)
    else s) s

/-- A command after which die barriers that have released are told to the operations that wait for them. -/
def withBarrier (f : State → State) (s : State) : State :=
  dieList.foldl (fun s d =>
    if (dieOf s d).barDone then barReleased d (modDie s d fun x => { x with barDone := false }) else s) (f s)

/-- BARRIER_ARRIVE (R445): ARRIVE of a die reaches its parent here, with its subtree's counts. An arrival before this module's own is
kept. -/
def arriveMsg (d frm g digest inj del : Nat) (s : State) : State :=
  if g ≥ 16 ∨ !isMember s g d ∨ !(childrenOf s g (dieNum s d)).contains frm then s
  else
    let s := modGop g (fun o => { o with
      bad := if digest = listDigest s g then o.bad else some digest
      dies := tmod (fun _ => DieOp.none) o.dies d fun x => { x with kids := x.kids.filter (fun y => y.1 != frm) ++ [(frm, inj, del)] } }) s
    advance g 64 s

/-- BARRIER_RELEASE (R445): RELEASE reaches a local die from its parent. -/
def releaseMsg (d g seq rootTime : Nat) (s : State) : State :=
  let o := gopOf s g
  if g < 16 ∧ o.isOpen ∧ o.seq = seq ∧ (dieOpOf o d).sent then releaseDie g rootTime 9 d s else s

/-- SNAPSHOT_RETRY (R446): RETRY reaches a local die from its parent. -/
def retryMsg (d g seq : Nat) (s : State) : State :=
  let o := gopOf s g
  if g < 16 ∧ o.isOpen ∧ o.kind = 2 ∧ o.seq = seq ∧ (dieOpOf o d).sent then advance g 64 (retryDie g 9 d s) else s

/-- A broadcast going down the tree from a local die: it holds the bytes, and its children are sent them. -/
def bcastDown (g seq : Nat) (l : List Byte) : Nat → Nat → State → State
  | 0, _, s => s
  | k + 1, d, s =>
    let s := modGop g (fun o => { o with payload := l }) s
    let s := fset (fset (fset s (dieB d) F.LINK_BAR_GROUP g) (dieB d) F.LINK_BAR_KIND 1) (dieB d) F.LINK_BAR_SEQ seq
    (childrenOf s g (dieNum s d)).foldl (fun s n =>
      match localDie s n with
      | some e => bcastDown g seq l k e s
      | none => sendTo d n 6 (leBytes 1 g ++ leBytes 1 0 ++ leBytes 2 seq ++ l) s) s

/-- BROADCAST (R445): a member sends up to 192 B to the root; a root, or a die that its parent sends them to (`down`), holds them and
sends them down. -/
def broadcast (d g seq : Nat) (down : Bool) (l : List Byte) (s : State) : State :=
  if g ≥ 16 ∨ l.length > 192 ∨ !isMember s g d then s
  else if down || dieNum s d == rootOf s g then bcastDown g seq l 9 d s
  else sendTo d (rootOf s g) 6 (leBytes 1 g ++ leBytes 1 0 ++ leBytes 2 seq ++ l) s

/-- Dies re-send ARRIVE on the tree as it now is (Table 17.8). -/
def resend (g : Nat) (s : State) : State :=
  if (gopOf s g).isOpen then
    advance g 64 (modGop g (fun o => { o with dies := o.dies.map fun p =>
      (p.1, { p.2 with sent := false, kids := p.2.kids.filter fun k => (childrenOf s g (dieNum s p.1)).contains k.1 }) }) s)
  else s

/-- ROUTE_TABLE_COMPUTE (R439, R442): records unchanged for 100 µs give tables for the inactive epoch, which the release of a
group-0 barrier puts in force. -/
def computeRoutes (s : State) : State :=
  if hubTime s < s.fab.lsaAt + 100 then s
  else
    let e := 1 - fget s (dieB 0) F.LINK_FAB_EPOCH
    let s := writeRoutes e s
    let s := startGop 0 0 { s with fab := { s.fab with written := true } } false
    (List.range 16).foldl (fun s g => resend g s) s

/-! ### Fabric reset (R445) -/

/-- The reset of this module's part: data flits and packets in routers discarded, ports' sequences reset, both epochs rebuilt with
EPOCH 0, every step abandoned, and arrival at a group-0 barrier. A reset under way takes in another. -/
def fabricReset (not : Option (Nat × Nat)) (die seq : Nat) (s : State) : State :=
  if (gopOf s 0).isOpen && (gopOf s 0).kind == 3 then s
  else
    let s := (allPorts.filter fun q => portClass s q.1 q.2 == 1 && not != some q && !internalPort q.1 q.2).foldl (fun s q =>
      sendCtl q.1 q.2 7 0 (leBytes 2 die ++ leBytes 2 seq) s) s
    let s := abandonWhere .other (fun _ => true) s
    let ports := s.fab.ports.map fun p => (p.1, { p.2 with replays := [], expSeq := 0, txSeq := 0, unacked := [], asked := false })
    let s : State := { s with wire := [], fab := { s.fab with
      wire := [], inj := [], del := [], heldTx := [], written := false, gops := []
      ports := ports.filter fun p => p.2 != PortSt.off } }
    let s := dieList.foldl (fun s d => fset (fset s (dieB d) F.LINK_FAB_EPOCH 0) (dieB d) F.LINK_BAR_OPEN 0) s
    startGop 0 3 (notice 0x0800 hubDie 0 0 (writeRoutes 1 (writeRoutes 0 s)))

/-- FABRIC_RESET: a write of OD 0x6022, or a RESET message on a Routed port. -/
def fabricResetCmd (w : Writer) (v : OdVal) (msg : Bool) (d p die seq : Nat) (s : State) : State :=
  if msg then (if portClass s d p = 1 then fabricReset (some (d, p)) die seq s else s)
  else odWrite w 0x6022 0 v true (fun s => (0, fabricReset none (dieNum s 0) ((gopOf s 0).seq + 1) s)) s

/-! ### Dictionary writes (R434, R443) -/

/-- Whether a plan is encoded as R434 lays it out: a major version the hub implements, and reserved fields zero (R554 check 5). -/
def planForm (b : List Byte) : Bool :=
  let zero (l : List Byte) : Bool := l.all fun x => x == 0#8
  leAt b 0 1 / 16 == 1 && decide (leAt b 1 1 < 8) && zero (sliceBytes b 5 3) && zero (sliceBytes b 12 52) && b.length % 32 == 0 &&
    (List.range ((b.length - 64) / 32)).all fun m => zero (sliceBytes b (64 + 32 * m + 16) 16)

/-- Whether a plan is one that R434 accepts on this module, and the module's position in it. -/
def planCheck (s : State) (b : List Byte) : Option Nat :=
  let g := gridIn b
  let n := g.positions
  let dims := [leAt b 2 1, leAt b 3 1, leAt b 4 1].all fun k => decide (1 ≤ k) && decide (k ≤ 64)
  let sers := (List.range n).map fun m => serialAt b m
  let used := sers.filter fun l => !isVacant l
  let own := (s.flash.serial ++ List.replicate 16 0#8).take 16
  if dims && decide (n ≤ 2048) && b.length == 64 + 32 * n && used.eraseDups.length == used.length then
    match sers.findIdx? fun l => l == own with
    | some m => if !isVacant own && (s.models.gens.isEmpty || odNum s 0x6002 == m) then some m else none
    | none => none
  else none

/-- The numbers of the dies, the group trees and every port under a new plan: IDENT is sent anew, and classification restarts. -/
def replan (s : State) : State :=
  let g := gridOf s
  let s := dieList.foldl (fun s d =>
    fset (fset s (dieB d) F.LINK_FAB_PLANNED 1) (dieB d) F.LINK_FAB_DIE (g.dieAt (odNum s 0x6002) d)) s
  let s : State := { s with fab := { s.fab with lsas := [] } }
  allPorts.foldl (fun s q =>
    let s := setPort q.1 q.2 (portState s q.1 q.2) 0 (fget s (dieB q.1) F.LINK_STAT_X2 q.2 == 1) s
    let s := ownLsa q.1 q.2 s
    if portState s q.1 q.2 ≥ 3 then classify q.1 q.2 (sendIdent q.1 q.2 s) else s) s

/-- FABRIC_PLAN_WRITE (R434, R451): a write of OD 0x6000. -/
def planWrite (w : Writer) (v : OdVal) (s : State) : State :=
  odWrite w 0x6000 0 v true (fun s =>
    if !planForm v.bytesOf then (0x02, s) else
    match planCheck s v.bytesOf with
    | none => (0x06, s)
    | some m =>
      let s := odSet (odPut s 0x6000 0 v) 0x6002 0 m
      let s := odPut s 0x6001 0 (.bytes (planHash s))
      (0, replan s)) s

/-- A write of OD 0x6061 (Table 17.11): group, and barrier or snapshot. A group of which this module is no member is rejected. -/
def globalStart (w : Writer) (v : OdVal) (s : State) : State :=
  let g := v.nat % 16
  odWrite w 0x6061 0 v (!(gopOf s g).isOpen) (fun s =>
    if v.nat ≥ 32 then (0x02, s)
    else if !(dieList.any fun d => isMember s g d) then (0x06, s)
    else (0, startGop g (if natBit v.nat 4 then 2 else 0) s)) s

/-! ### The commands -/

/-- CABLE_INSERTED (R44). -/
def execCableInserted (d p : Nat) (s : State) : Host.Outcome State Fault Refusal := .next (cableIn d p s)
/-- CABLE_REMOVED (R44). -/
def execCableRemoved (d p : Nat) (s : State) : Host.Outcome State Fault Refusal := .next (cableOut d p s)
/-- PORT_TRAINING_DONE (R429). -/
def execPortTrainingDone (d p lanes : Nat) (s : State) : Host.Outcome State Fault Refusal := .next (trained d p lanes s)
/-- TRAINING_RETRY_TICK (R429). -/
def execTrainingRetryTick (d p : Nat) (s : State) : Host.Outcome State Fault Refusal := .next (retryTraining d p s)
/-- LINK_RETRAIN (R429). -/
def execLinkRetrain (d p : Nat) (s : State) : Host.Outcome State Fault Refusal := .next (retrain d p s)
/-- IDENT_RECEIVED (R436). -/
def execIdentReceived (d p : Nat) (ident : Ident) (s : State) : Host.Outcome State Fault Refusal := .next (identReceived d p ident s)
/-- IDENT_SEND_TICK (R430). -/
def execIdentSendTick (d p : Nat) (s : State) : Host.Outcome State Fault Refusal := .next (identTick d p s)
/-- LINK_FLIT_RECEIVE (R431). -/
def execLinkFlitReceive (d p corr unc : Nat) (flit : List Byte) (s : State) : Host.Outcome State Fault Refusal :=
  .next (flitIn d p corr unc flit s)
/-- LINK_REPLAY (R431). -/
def execLinkReplay (d p seq : Nat) (s : State) : Host.Outcome State Fault Refusal := .next (replay d p seq s)
/-- FAST_RETRAIN_DONE (R431). -/
def execFastRetrainDone (d p : Nat) (ok : Bool) (s : State) : Host.Outcome State Fault Refusal := .next (fastDone d p ok s)
/-- PACKET_ARRIVAL (R433). -/
def execPacketArrival (d p : Nat) (pkt : Packet) (s : State) : Host.Outcome State Fault Refusal := .next (packetArrival d p pkt s)
/-- DISCTO_EXPIRY (R436). -/
def execDisctoExpiry (d p : Nat) (s : State) : Host.Outcome State Fault Refusal := .next (disctoExpiry d p s)
/-- FABRIC_PLAN_WRITE (R434). -/
def execFabricPlanWrite (w : Writer) (v : OdVal) (s : State) : Host.Outcome State Fault Refusal := .next (planWrite w v s)
/-- LSA_RECEIVED (R439). -/
def execLsaReceived (d p : Nat) (lsa : Lsa) (s : State) : Host.Outcome State Fault Refusal := .next (lsaReceived d p lsa s)
/-- LSA_PERIODIC_TICK (R439). -/
def execLsaPeriodicTick (s : State) : Host.Outcome State Fault Refusal := .next (lsaTick s)
/-- ROUTE_TABLE_COMPUTE (R439). -/
def execRouteTableCompute (s : State) : Host.Outcome State Fault Refusal := .next (computeRoutes s)
/-- BARRIER_ARRIVE (R445). -/
def execBarrierArrive (d frm grp digest inj del : Nat) (s : State) : Host.Outcome State Fault Refusal :=
  .next (withBarrier (arriveMsg d frm grp digest inj del) s)
/-- BARRIER_RELEASE (R445). -/
def execBarrierRelease (d grp seq rootTime : Nat) (s : State) : Host.Outcome State Fault Refusal := .next (releaseMsg d grp seq rootTime s)
/-- SNAPSHOT_RETRY (R446). -/
def execSnapshotRetry (d grp seq : Nat) (s : State) : Host.Outcome State Fault Refusal := .next (retryMsg d grp seq s)
/-- BROADCAST (R445). -/
def execBroadcast (d grp seq : Nat) (down : Bool) (data : List Byte) (s : State) : Host.Outcome State Fault Refusal :=
  .next (broadcast d grp seq down data s)
/-- FABRIC_RESET (R445). -/
def execFabricReset (w : Writer) (v : OdVal) (msg : Bool) (d p die seq : Nat) (s : State) : Host.Outcome State Fault Refusal :=
  .next (fabricResetCmd w v msg d p die seq s)
/-- GLOBAL_BARRIER_START (R443). -/
def execGlobalBarrierStart (w : Writer) (v : OdVal) (s : State) : Host.Outcome State Fault Refusal := .next (globalStart w v s)
/-- GLOBAL_SNAPSHOT_START (R446). -/
def execGlobalSnapshotStart (w : Writer) (v : OdVal) (s : State) : Host.Outcome State Fault Refusal := .next (globalStart w v s)
/-- SYNC_PERIOD_TICK (R447). -/
def execSyncPeriodTick (s : State) : Host.Outcome State Fault Refusal := .next (withBarrier (fun s => startGop 0 0 s false) s)
/-- ROUTE_RECOMPUTE_DONE (R310). -/
def execRouteRecomputeDone (d : Nat) (s : State) : Host.Outcome State Fault Refusal := .next (withBarrier (routesDone d) s)
/-- DIE_BARRIER_ARRIVE (R318). -/
def execDieBarrierArrive (d c : Nat) (s : State) : Host.Outcome State Fault Refusal := .next (withBarrier (barrierArrive d c) s)

end Sys2Proof.Machine
end

