-- ==== Sys2Proof/Machine/Care.lean ====
section
/-! DEFINITION. Write windows, programming, re-tempering, rehoming and logic tests (spec/09_assay_and_cell_care.md R230–R243). -/

namespace Sys2Proof.Machine

/-! ### Write windows (R236, R237, R525) -/

/-- The write window of half-die h = 2 × die + half. -/
def winOf (s : State) (h : Nat) : Win := tget (fun _ => Win.closed) s.care.wins h

/-- A write window changed. -/
def modWin (h : Nat) (f : Win → Win) (s : State) : State :=
  { s with care := { s.care with wins := tmod (fun _ => Win.closed) s.care.wins h f } }

/-- The half-die of a core. -/
def halfDie (d c : Nat) : Nat := 2 * d + halfOf c

/-- Half-dies whose window is open or asked of the die. -/
def windowsOut (s : State) : Nat := (s.care.wins.filter fun p => decide (p.2.st ≥ 2)).length

/-- Whether a core's junction lies within 20 °C and an upper limit. -/
def coreWithin (s : State) (d c : Nat) (hi : Rat) : Bool :=
  decide (20 ≤ degrees (junction s d c)) && decide (degrees (junction s d c) ≤ hi)

/-- Whether every enabled core of a half-die lies within 20 °C and the window target (OD 0x9025). -/
def halfWithin (s : State) (h : Nat) : Bool :=
  (halfCores (h % 2)).all fun c => !coreEnabled s (h / 2) c || coreWithin s (h / 2) c (odRat s 0x9025)

/-- A waiting request may be granted (R236): WINHD and WINGAP, which a load or a rehoming observes only as R356 and R242 say. -/
def grantable (s : State) (h : Nat) : Bool :=
  let w := winOf s h
  dieState s (h / 2) == 2 && (!w.gap || w.forced) &&
  (decide (windowsOut s < odNum s 0x4319) || (w.forced && s.serve.steps.isEmpty))

/-- The die asked for a window: the window code starts at the code in force (R525). -/
def askWindow (h : Nat) (s : State) : State :=
  let b := dieB (h / 2)
  let s := modWin h (fun w => { w with st := 2, closing := false }) { s with care := { s.care with winQ := s.care.winQ.filter fun x => x != h } }
  fset (fset s b F.THRM_HALF_WINREQ 1 (h % 2)) b F.THRM_HALF_WINCODE (fget s b F.MESH_HCLK_ACT (h % 2)) (h % 2)

/-- Waiting requests granted in their order of arrival. -/
def grantWindows (s : State) : State :=
  s.care.winQ.foldl (fun s h => if grantable s h then askWindow h s else s) s

/-- A window requested: by a load or a rehoming (`forced`), by the operator (`asked`), or for re-tempering. A request that meets a closing
window is queued when it has closed. -/
def requestWindow (h : Nat) (forced asked : Bool) (s : State) : State :=
  let w := winOf s h
  let s := modWin h (fun w => { w with forced := w.forced || forced, asked := w.asked || asked, again := w.again || w.closing }) s
  if w.st ≠ 0 || w.again then grantWindows s
  else grantWindows (modWin h (fun w => { w with st := 1 }) { s with care := { s.care with winQ := s.care.winQ ++ [h] } })

/-! ### What is due -/

/-- Whether the codes of the tile that an array is to hold are resident: some generation that names it has landed it. A rehoming's
target is named by none. -/
def codesHeld (s : State) (key : Nat) : Bool :=
  !arrayNamed s key || s.models.gens.any fun g => g.tiles.any fun t => t.arr == key && t.landed

/-- Whether re-tempering is due for an array (R212, R213): it is Serving or Staging with TRIG, or Offline. -/
def arrayDue (s : State) (key : Nat) : Bool :=
  let x := arrOf s key
  codesHeld s key && (x.st == 4 || ((accOf s key).trig && (x.st == 2 || (x.st == 3 && arrayNamed s key))))

/-- The arrays of a core for which re-tempering is due, in its order: Offline first, then by descending δ (R235). -/
def dueArrays (s : State) (d c : Nat) : List Nat :=
  let l := (s.loom.arrs.filter fun p => p.1 / 512 == coreKey d c && arrayDue s p.1).map fun p => p.1 % 512
  let off := l.filter fun a => (arrOf s (arrKey d c a)).st == 4
  let trig := l.filter fun a => (arrOf s (arrKey d c a)).st != 4
  off ++ trig.mergeSort fun a b => decide ((accOf s (arrKey d c b)).dev2 ≤ (accOf s (arrKey d c a)).dev2)

/-- Whether a core has programming to do. -/
def coreHasWork (s : State) (d c : Nat) : Bool :=
  !coreFenced s d c && (!(careOf s d c).queue.isEmpty || !(dueArrays s d c).isEmpty)

/-- Whether a half-die has programming to do. -/
def halfHasWork (s : State) (h : Nat) : Bool := (halfCores (h % 2)).any fun c => coreHasWork s (h / 2) c

/-- Whether a half-die has programming under way. -/
def halfBusy (s : State) (h : Nat) : Bool := (halfCores (h % 2)).any fun c => (careOf s (h / 2) c).prog.isSome

/-- A window released (R236, R525): WINGAP begins and the next request may be granted; what asked while it closed waits its turn. -/
def closeWindow (h : Nat) (s : State) : State :=
  let b := dieB (h / 2)
  let w := winOf s h
  let s := if w.again then
      let s := modWin h (fun w => { w with st := 1, closing := false, gap := true, again := false }) s
      { s with care := { s.care with winQ := s.care.winQ ++ [h] } }
    else modWin h (fun w => { w with st := 0, closing := false, gap := true, forced := false, asked := false }) s
  let s := fset (fset s b F.THRM_HALF_WINREQ 0 (h % 2)) b F.THRM_HALF_WINOPEN 0 (h % 2)
  grantWindows (fset s b F.THRM_HALF_WINCODE (odNum s 0x9026) (h % 2))

/-- An open window closed where nothing is under way and no array is due, or WINMAX has passed. A rehoming holds it to its end. -/
def closeIfDone (h : Nat) (s : State) : State :=
  let w := winOf s h
  if w.st = 3 && !halfBusy s h && (w.closing || !halfHasWork s h) then closeWindow h s else s

/-! ### Target levels (R96, R100, R101, R133, R357) -/

/-- The address of an array's golden slot. -/
def goldenAddr (d c a : Nat) : Nat := dramAddr d (goldenOffset c a)

/-- The address of a tile's codes in its golden slot. -/
def codesAddr (d c a : Nat) : Nat := goldenAddr d c a + 0x30000

/-- The slice value that a data column's pair is to hold in a row, from the codes of the tile. -/
def pairTarget (s : State) (d c a row col : Nat) : Int :=
  let x := arrOf s (arrKey d c a)
  if x.mode = 1 then
    let e := col / 4 * 512 + row
    let b := (mget s (codesAddr d c a + e / 2)).toNat
    let n := if e % 2 = 0 then b % 16 else b / 16
    if x.wfmt = 1 then e2m1Val2 n else sext 4 n
  else
    let q := sext 8 (mget s (codesAddr d c a + (col / 6 * 512 + row))).toNat
    let l := (q + 8) % 16 - 8
    if col % 6 < 4 then (q - l) / 16 else l

/-- The level that a data column is to hold in a row. -/
def dataTarget (s : State) (d c a row col : Nat) : Nat :=
  let v := pairTarget s d c a row col
  if col % 2 = 0 then v.toNat else (-v).toNat

/-- The data column that a spare replaces. -/
def spareServes (s : State) (key e : Nat) : Option Nat :=
  ((tget (fun _ => ArrPerm.none) s.loom.perm key).remap.find? fun p => p.1 == e).map fun p => p.2

/-- The level that a column of group 0–12 is to hold in a row: data, or the data column a spare replaces, else 0. -/
def cellTarget (s : State) (d c a row col : Nat) : Nat :=
  if col < 768 then dataTarget s d c a row col
  else match spareServes s (arrKey d c a) (col - 768) with
    | some x => dataTarget s d c a row x
    | none => 0

/-- A cell written. Witness cells hold the values of R98 always, and have no place in the table. -/
def putCell (key row col level : Nat) (s : State) : State :=
  if col < 816 then { s with loom := { s.loom with cells := tset (fun _ => 0) s.loom.cells (key * 2 ^ 19 + row * 2 ^ 10 + col) level } } else s

/-! ### Flash records of an array -/

/-- What flash keeps of an array. -/
def permOf (s : State) (key : Nat) : ArrPerm := tget (fun _ => ArrPerm.none) s.loom.perm key

/-- What flash keeps of an array changed. -/
def modPerm (key : Nat) (f : ArrPerm → ArrPerm) (s : State) : State :=
  { s with loom := { s.loom with perm := tmod (fun _ => ArrPerm.none) s.loom.perm key f } }

/-- A tile of a retired array is unplaced (Table 14.12). -/
def unplaceTile (key : Nat) (s : State) : State :=
  { s with models := { s.models with gens := s.models.gens.map fun g =>
    { g with tiles := g.tiles.map fun t => if t.arr = key then { t with unplaced := true } else t } } }

/-- An array retired for a reason (R233, R234), an F1. -/
def retireArray (d c a reason : Nat) (s : State) : State :=
  let key := arrKey d c a
  let s := modPerm key (fun p => { p with reason := reason }) s
  fault 0x0303 d c a (unplaceTile key (putState key 5 s))

/-! ### Starting a programming (R234, R235) -/

/-- The columns of an output (R233): six in nested mode, four in lean mode. -/
def outputColumns (s : State) (key j : Nat) : List Nat :=
  if (arrOf s key).mode = 1 then (List.range 4).map fun i => 4 * j + i else (List.range 6).map fun i => 6 * j + i

/-- The generation and mode that a queued tile gives its array. -/
def tileGen (s : State) (d c a : Nat) : Option Gen := s.models.gens.find? fun g => g.names (arrKey d c a) && decide (g.st ≤ 2)

/-- A queued tile taken from its core's queue. -/
def unqueue (d c a : Nat) (s : State) : State := modCare d c (fun x => { x with queue := x.queue.filter (fun b => b != a) }) s

/-- An array at the end of its cycles is not programmed again (R234): one due for re-tempering is retired; a tile that a load or a rehoming
brings has no place in it and is served at P16 cover. (DEDUCED: notes/assumptions/55.md.) -/
def wornOut (d c a why : Nat) (s : State) : State :=
  if why = 1 then retireArray d c a 2 s
  else
    let home := match (dieOf s d).rehome.find? fun p => p.2 == c with | some p => p.1 | none => c
    unqueue d c a (unplaceTile (arrKey d home a) s)

/-- The programming of an array begun: a record that names it is invalidated, CYC rises, the array is Programming once an operation
on it has ended. `why`: 0 a load, 1 a re-tempering, 2 a rehoming. -/
def startProg (d c a why : Nat) (s : State) : State :=
  let key := arrKey d c a
  if (permOf s key).cyc ≥ 10000 then wornOut d c a why s
  else
    let s := invalidateRecords key s
    let cyc := (permOf s key).cyc + 1
    let s := modPerm key (fun p => { p with cyc := cyc, part := true }) s
    let s := if cyc = odNum s 0x4320 then notice 0x0300 d c a s else s
    let s := match why, tileGen s d c a with
      | 0, some g => modArr key (fun x => { x with mode := g.mode, wfmt := g.wfmt, gen := g.gen }) s
      | _, _ => s
    let s := setArrState d c a 1 s
    let marks := (accOf s key).marks.flatMap (outputColumns s key)
    let s := modAcc key (fun x => { x with noted := false, marks := [] }) s
    modCare d c (fun x => { x with prog := some ⟨a, why, 0, false, 0, marks, marks.length, [], 0, 0, [], []⟩ }) (unqueue d c a s)

/-- Why a queued array is programmed: a rehoming where the core is a rehoming target. -/
def queueWhy (s : State) (d c : Nat) : Nat := if (dieOf s d).rehome.any fun p => p.2 == c then 2 else 0

/-- The next array of a core begun, where its window is open: queued tiles in ascending order, then what is due for re-tempering. The count
bounds the arrays at the end of their cycles that are passed over. -/
def startNextFrom (d c : Nat) : Nat → State → State
  | 0, s => s
  | n + 1, s =>
    let w := winOf s (halfDie d c)
    let x := careOf s d c
    if w.st ≠ 3 || w.closing || x.prog.isSome || coreFenced s d c then s
    else
      match x.queue, dueArrays s d c with
      | a :: _, _ => startNextFrom d c n (startProg d c a (queueWhy s d c) s)
      | [], a :: _ => startNextFrom d c n (startProg d c a 1 s)
      | [], [] => s

/-- The next array of a core begun: at most one, since its engine is then at work. -/
def startNext (d c : Nat) (s : State) : State := startNextFrom d c 1024 s

/-- The next array begun on every core of a half-die. -/
def startHalf (h : Nat) (s : State) : State := (halfCores (h % 2)).foldl (fun s c => startNext (h / 2) c s) s

/-- A tile queued for a core's engine, with a window asked for (R356, R242). -/
def queueTile (d c a : Nat) (s : State) : State :=
  let s := modCare d c (fun x => { x with queue := if x.queue.contains a then x.queue else (x.queue ++ [a]).mergeSort fun i j => decide (i ≤ j) }) s
  startNext d c (requestWindow (halfDie d c) true false s)

/-! ### The commands of windows -/

/-- WINDOW_OPEN (R237, R525): every enabled core of the half-die lies in range, so the window opens and work begins. -/
def windowOpen (h : Nat) (s : State) : State :=
  let b := dieB (h / 2)
  if (winOf s h).st = 2 && halfWithin s h then
    let s := modWin h (fun w => { w with st := 3 }) s
    let s := finc (fset s b F.THRM_HALF_WINOPEN 1 (h % 2)) b F.THRM_CNT_WIN_COUNT
    closeIfDone h (startHalf h s)
  else s

/-- RTHOLD_EXPIRY (R236): under AUTO a TRIG of the half-die has waited for RTHOLD. -/
def rthold (h : Nat) (s : State) : State :=
  if odNum s 0x4314 = 0 && halfHasWork s h then requestWindow h false false s else s

/-- WINDOW_REQUEST: a write to OD 0x4315. -/
def writeWindow (w : Writer) (v : OdVal) (s : State) : State :=
  odWrite w 0x4315 0 v (dieState s (v.nat / 2 % 8) != 3) (fun s => accept (requestWindow v.nat false true s)) s

/-- WINMAX_EXPIRY (R236): no new array starts, and the window closes when those in progress end. -/
def winmax (h : Nat) (s : State) : State :=
  let w := winOf s h
  if w.st = 3 && !w.forced then closeIfDone h (modWin h (fun w => { w with closing := true }) s) else s

/-- Whether an array of a half-die is Offline and due. -/
def halfOffline (s : State) (h : Nat) : Bool :=
  (halfCores (h % 2)).any fun c => (dueArrays s (h / 2) c).any fun a => (arrOf s (arrKey (h / 2) c a)).st == 4

/-- Under AUTO, the request of a half-die with an Offline array (R236). -/
def askOffline (h : Nat) (s : State) : State := if odNum s 0x4314 = 0 && halfOffline s h then requestWindow h false false s else s

/-- WINGAP_EXPIRY (R236): the half-die may have a window again; Offline arrays ask for one under AUTO. -/
def wingap (h : Nat) (s : State) : State :=
  if (winOf s h).gap then grantWindows (askOffline h (modWin h (fun w => { w with gap := false }) s)) else s

/-! ### Programming (R230–R233) -/

/-- Whether a core's engine may issue pulses: its junction within 20–70 °C (R232). -/
def pulseRange (s : State) (d c : Nat) : Bool := coreWithin s d c 70

/-- The conductance of a level in units of 0.01 µS (R95). -/
def levelG (l : Nat) : Nat := 40 + 160 * l

/-- The level that a column of a row is to hold: a witness cell's from R98. -/
def verifyTarget (s : State) (d c a row col : Nat) : Nat :=
  if col < 816 then cellTarget s d c a row col
  else
    let v := ([15, -15, 8, -8, 4, -4, 1, -1] : List Int).getD ((col - 816) / 2) 0
    if col % 2 = 0 then v.toNat else (-v).toNat

/-- What a verify read of a cell says (Table 9.3): 0 below its band or not yet reset, 1 in its band, 2 above it. `fresh`: the iteration was a
reset pulse, after which only a cell of level 0 can be in its band. -/
def verifyRead (fresh : Bool) (target g : Nat) : Nat :=
  let lo := levelG target - 20
  let hi := levelG target + 20
  if fresh then (if target = 0 ∧ lo ≤ g ∧ g ≤ hi then 1 else 0) else if g > hi then 2 else if lo ≤ g then 1 else 0

/-- The columns of the group at work that the engine still drives: witness columns only in a re-tempering, and no column that is accepted or
failing (R230). -/
def groupOpen (p : Prog) : List Nat :=
  (((List.range 64).map fun i => 64 * p.group + i).filter fun col => decide (col < 816) || p.why == 1).filter fun col =>
    !p.accepted.contains col && !p.failing.contains col

/-- One iteration's verify reads taken: accepted cells stop, a cell above its band restarts from reset at the next iteration and fails at its
third overshoot, and a cell not in its band after 24 set iterations fails (Table 9.3). The group ends when no cell is left. -/
def takeReads (s : State) (d c : Nat) (p : Prog) (reads : List Nat) : Prog :=
  let l := groupOpen p
  let at_ (col : Nat) : Nat := verifyRead (p.iter == 0 || p.restart.contains col) (verifyTarget s d c p.arr p.row col) (reads.getD (col % 64) 0)
  let ok := l.filter fun col => at_ col == 1
  let high := l.filter fun col => at_ col == 2
  let overs := high.foldl (fun t col => tmod (fun _ => 0) t col (· + 1)) p.overs
  let bad := l.filter fun col => !ok.contains col && (decide (tget (fun _ => 0) overs col ≥ 3) || decide (p.iter ≥ 24))
  let p' : Prog := { p with
    restarts := satAdd 16 high.length p.restarts, failing := p.failing ++ bad, failed := satAdd 8 bad.length p.failed, overs := overs
    accepted := p.accepted ++ ok, restart := high, iter := p.iter + 1 }
  if (groupOpen p').isEmpty then { p' with group := p.group + 1, iter := 0, accepted := [], restart := [], overs := [] } else p'

/-- The codes of a tile, which the engine reads at the start of a row, fetched from DRAM; false where a folio is uncorrectable, whose re-read
leads to a die reset (R337). (DEDUCED: notes/assumptions/59.md.) -/
def fetchCodes (d c a : Nat) (s : State) : Bool × State :=
  let r := readDram d (goldenOffset c a + 0x30000) 0x10000 0 .none s
  (r.1.isSome, r.2)

/-- WRITE_VERIFY_ITERATION (R230): one iteration of the engine on the group of 64 columns at work, with the conductance that the verify read
finds in each column, in units of 0.01 µS. The first iteration of a group is the reset pulse. Accepted cells hold their level. -/
def writeVerify (d c : Nat) (reads : List Nat) (s : State) : State :=
  match (careOf s d c).prog with
  | none => s
  | some p =>
    let key := arrKey d c p.arr
    if p.paused || decide (p.row ≥ 512) || (arrOf s key).st != 1 || !pulseRange s d c || decide (p.group > 12) then s
    else
      let (had, s) := if p.group = 0 ∧ p.iter = 0 then fetchCodes d c p.arr s else (true, s)
      if !had then s
      else
        let ok := (groupOpen p).filter fun col =>
          verifyRead (p.iter == 0 || p.restart.contains col) (verifyTarget s d c p.arr p.row col) (reads.getD (col % 64) 0) == 1
        let s := ok.foldl (fun s col => putCell key p.row col (cellTarget s d c p.arr p.row col) s) s
        modCare d c (fun x => { x with prog := some (takeReads s d c p reads) }) s

/-- The lowest spare that is free and has not failed. (DEDUCED: notes/assumptions/55.md.) -/
def freeColumn (s : State) (key : Nat) : Option Nat :=
  let p := permOf s key
  (List.range 48).find? fun e => !p.bad.contains e && !p.remap.any fun x => x.1 == e

/-- A failing column remapped (R233): the entry written, and the spare's cells of the rows already written programmed. `none`: the
array is retired. -/
def remapColumn (d c a row col : Nat) (s : State) : Option State :=
  let key := arrKey d c a
  if col ≥ 816 then none
  else
    let serves := if col < 768 then some col else spareServes s key (col - 768)
    let s := if col ≥ 768 then modPerm key (fun p => { p with bad := p.bad ++ [col - 768], remap := p.remap.filter fun x => x.1 != col - 768 }) s else s
    let s := if col < 768 then
        match (permOf s key).remap.find? fun x => x.2 == col with
        | some x => modPerm key (fun p => { p with bad := p.bad ++ [x.1], remap := p.remap.filter fun y => y.1 != x.1 }) s
        | none => s
      else s
    match serves with
    | none => some s
    | some x =>
      match freeColumn s key with
      | none => none
      | some e =>
        let s := modPerm key (fun p => { p with remap := p.remap ++ [(e, x)] }) s
        some ((List.range (row + 1)).foldl (fun s r => putCell key r (768 + e) (dataTarget s d c a r x) s) s)

/-- The failing columns of a row remapped one after another; the reason of retirement where one cannot be. -/
def remapAll (d c a row : Nat) : List Nat → State → Nat × State
  | [], s => (0, s)
  | col :: l, s =>
    match remapColumn d c a row col s with
    | some s => remapAll d c a row l s
    | none => (if col ≥ 816 then 3 else 1, s)

/-- A core's engine freed, and what follows on its half-die. -/
def progEnded (d c : Nat) (s : State) : State :=
  let s := modCare d c (fun x => { x with prog := none }) s
  closeIfDone (halfDie d c) (startNext d c s)

/-- PROGRAMMING_ROW_DONE (R233): with the 13 groups of the row done, failing columns are remapped, and the next row follows. -/
def rowDone (d c : Nat) (s : State) : State :=
  match (careOf s d c).prog with
  | none => s
  | some p =>
    if p.paused || decide (p.row ≥ 512) || (arrOf s (arrKey d c p.arr)).st != 1 || decide (p.group ≤ 12) then s
    else
      let r := remapAll d c p.arr p.row p.failing s
      if r.1 = 0 then modCare d c (fun x => { x with prog := some { p with row := p.row + 1, failing := [], overs := [], group := 0 } }) r.2
      else progEnded d c (retireArray d c p.arr r.1 r.2)

/-- PROGRAMMING_PAUSE (R232). -/
def progPause (d c : Nat) (s : State) : State :=
  match (careOf s d c).prog with
  | none => s
  | some p => if p.paused || pulseRange s d c then s else finc (pauseProg d c s) (coreB d c) F.ASSY_CNT_PAUSE_COUNT

/-- PROGRAMMING_RESUME (R232, Table 9.7): the junction is in range again, after a die reset with the codes resident; written rows are
verified, so their cells hold what they held. -/
def progResume (d c : Nat) (s : State) : State :=
  match (careOf s d c).prog with
  | none => s
  | some p =>
    let key := arrKey d c p.arr
    if !p.paused || !pulseRange s d c || halted s || dieState s d != 2 || !codesHeld s key then s
    else
      let s := putState key (if (arrOf s key).st = 4 then 1 else (arrOf s key).st) s
      modCare d c (fun x => { x with prog := some { p with paused := false } }) s

/-! ### Rehoming (R242) -/

/-- The golden slots of a fenced core copied to its spare's (R357). -/
def copyGolden (d c t : Nat) (s : State) : State :=
  (tilesOnCore s d c).foldl (fun s a => mcopy (goldenAddr d c a) (goldenAddr d c a + 0x40000) (goldenAddr d t a) s) s

/-- The mode, weight coding and generation that a tile gives its array: of the generation that names it. -/
def tileKind (s : State) (key : Nat) : Arr → Arr :=
  match s.models.gens.find? fun g => g.names key with
  | some g => fun y => { y with mode := g.mode, wfmt := g.wfmt, gen := g.gen }
  | none => fun y => y

/-- One tile of a fenced core queued on its rehoming target. -/
def rehomeTile (d c t a : Nat) (s : State) : State := queueTile d t a (modArr (arrKey d t a) (tileKind s (arrKey d c a)) s)

/-- The arrays of a rehoming target set up for the fenced core's tiles and queued, with a window (R242 steps 3 and 4). -/
def rehomeTiles (d c t : Nat) (s : State) : State :=
  (tilesOnCore s d c).foldl (fun s a =>
    if (arrOf s (arrKey d t a)).st = 5 || !codesHeld s (arrKey d c a) then s else rehomeTile d c t a s) (copyGolden d c t s)

/-! ### Core logic tests and full core assays (R227, R240) -/

/-- LOGIC_TEST_DUE (R240). -/
def testDue (d c : Nat) (s : State) : State :=
  if coreEnabled s d c && !coreFenced s d c then modCare d c (fun x => { x with test := max 1 x.test }) s else s

/-- Every task of a core pre-empted at its next stitch boundary. -/
def preemptCore (d c : Nat) (s : State) : State := (List.range 4).foldl (fun s t => preempt d c t s) s

/-- DEFER_DEADLINE (R240): no step that needs the core forms, and its tasks are pre-empted at the next boundary. -/
def deferDeadline (d c : Nat) (s : State) : State :=
  let x := careOf s d c
  if x.test = 1 ∨ x.assay = 1 then
    preemptCore d c (modCare d c (fun x => { x with test := if x.test = 1 then 2 else x.test, assay := if x.assay = 1 then 2 else x.assay }) s)
  else s

/-- LOGIC_TEST_DONE (R240): a core reset follows, or the core is fenced. -/
def testDone (d c : Nat) (pass : Bool) (s : State) : State :=
  if (careOf s d c).test = 0 || !coreFree s d c || coreFenced s d c then s
  else
    let s := modCare d c (fun x => { x with test := 0, passed := pass }) s
    let s := finc (coreReset d c s) (coreB d c) F.ASSY_CNT_LTEST_COUNT
    if pass then s else fault 0x0103 d c 0 s

/-- Whether a core is settling (R204): its ASSY_WSTAT bit set. -/
def settle (d c : Nat) (s : State) : State := fset s (coreB d c) F.ASSY_WSTAT_SETTLING 1

/-- Whether every working ADC of a lane converts: none is retired without a spare in its place. -/
def laneWhole (s : State) (d c lane : Nat) : Bool :=
  (List.range 128).all fun n => (adcOf s d c lane n).st != 5 || (List.range 8).any fun i => (adcOf s d c lane (128 + i)).stands == n + 1

/-- The lane fences that a requested full core assay ends (R489): the lane's trace and its ADC calibrations have passed.
(DEDUCED: notes/assumptions/27.md.) -/
def liftLanes (d c : Nat) (s : State) : State :=
  let x := careOf s d c
  let lifted (l : Nat) : Bool := x.lanesOk.contains l && !x.lanesBad.contains l && laneWhole s d c l
  if x.asked then
    let w := fget s (coreB d c) F.LOOM_STAT_LANE_FENCED
    let v := (List.range 16).foldl (fun a l => if natBit w l && !lifted l then a + 2 ^ l else a) 0
    modCare d c (fun x => { x with asked := false, lanesOk := [], lanesBad := [] }) (fset s (coreB d c) F.LOOM_STAT_LANE_FENCED v)
  else s

/-- Whether a full core assay of a core runs: it has been asked for and no task is in flight on the core (R227, R240). -/
def fullAssayRuns (s : State) (d c : Nat) : Bool := decide ((careOf s d c).assay ≥ 1) && coreFree s d c && !coreFenced s d c

/-- Whether a fenced lane is assayed with its core, by a full core assay requested under R241 (R489). -/
def laneAsked (s : State) (d c lane : Nat) : Bool := laneFenced s d c lane && (careOf s d c).asked && decide ((careOf s d c).assay ≥ 1)

/-- The lanes that a full core assay measures. -/
def assayLanes (s : State) (d c : Nat) : List Nat := (List.range 16).filter fun l => !laneFenced s d c l || laneAsked s d c l

/-- The arrays of a core that an assay measures: Serving or Staging, on lanes that are not fenced (R205). -/
def coreArrays (s : State) (d c : Nat) : List Nat :=
  (s.loom.arrs.filter fun p => decide (p.1 / 512 = coreKey d c) && (p.2.st == 2 || p.2.st == 3) && !laneFenced s d c (p.1 % 16)).map fun p => p.1 % 512

/-- Stage 1 of a full core assay: every ADC has calibrated (R227). -/
def assayCalibrated (s : State) (d c : Nat) : Bool :=
  (assayLanes s d c).all fun l => (List.range 136).all fun n => (adcOf s d c l n).cal || (adcOf s d c l n).st == 5

/-- Stage 2: the lanes still to be traced, those with no trace record in the power cycle, and fenced ones that are assayed anew. -/
def assayTraces (s : State) (d c : Nat) : List Nat :=
  (assayLanes s d c).filter fun l =>
    if laneAsked s d c l then !(careOf s d c).lanesOk.contains l && !(careOf s d c).lanesBad.contains l else !(laneOf s d c l).ran

/-- Stages 3 and 4: the witness sweep and the column tables of the core's arrays. -/
def assaySwept (s : State) (d c : Nat) : Bool := (coreArrays s d c).all fun a => (careOf s d c).swept.contains a

/-- Whether the four stages of a full core assay have ended (R227). -/
def assayStages (s : State) (d c : Nat) : Bool :=
  assayCalibrated s d c && (assayTraces s d c).isEmpty && assaySwept s d c && (coreArrays s d c).all fun a => (careOf s d c).tabbed.contains a

/-- FULL_CORE_ASSAY_DONE (R227, R242): with its four stages ended, the core settles anew; a rehoming target then takes the fenced core's
tiles. -/
def fullAssayDone (d c : Nat) (s : State) : State :=
  if !fullAssayRuns s d c || !assayStages s d c then s
  else
    let s := settle d c (liftLanes d c (modCare d c (fun x => { x with assay := 0 }) s))
    match (dieOf s d).rehome.find? fun p => p.2 == c with
    | some p => rehomeTiles d p.1 c s
    | none => s

/-! ### Remap reset (R233) -/

/-- The array that a selector names: bytes 4–7 of Table 8.5; `none` where it does not exist. -/
def selArray (v : Nat) : Option (Nat × Nat × Nat) :=
  if v < 2 ^ 19 ∧ natBits v 9 7 < 72 then some (natBits v 16 3, natBits v 9 7, natBits v 0 9) else none

/-- REMAP_RESET_ARRAY: a maker's write to OD 0xF100 clears the remap table and a retirement of reason 1, and leaves the array
Unprogrammed. -/
def remapResetArray (w : Writer) (v : OdVal) (s : State) : State :=
  odWrite w 0xF100 0 v (match selArray v.nat with | some x => dieState s x.1 != 3 | none => true) (fun s =>
    match selArray v.nat with
    | none => (0x06, s)
    | some (d, c, a) =>
      let key := arrKey d c a
      let r := (permOf s key).reason
      let s := modPerm key (fun p => { p with remap := [], invalid := [], reason := if p.reason = 1 then 0 else p.reason }) s
      (0, if r = 0 ∨ r = 1 then modArr key (fun _ => Arr.blank) s else s)) s

/-! ### The commands -/

/-- WRITE_VERIFY_ITERATION (R230). -/
def execWriteVerifyIteration (d c : Nat) (reads : List Nat) (s : State) : Host.Outcome State Fault Refusal :=
  .next (writeVerify d c reads s)
/-- PROGRAMMING_ROW_DONE (R233). -/
def execProgrammingRowDone (d c : Nat) (s : State) : Host.Outcome State Fault Refusal := .next (rowDone d c s)
/-- PROGRAMMING_PAUSE (R232). -/
def execProgrammingPause (d c : Nat) (s : State) : Host.Outcome State Fault Refusal := .next (progPause d c s)
/-- PROGRAMMING_RESUME (R232). -/
def execProgrammingResume (d c : Nat) (s : State) : Host.Outcome State Fault Refusal := .next (progResume d c s)
/-- RTHOLD_EXPIRY (R236). -/
def execRtholdExpiry (half : Nat) (s : State) : Host.Outcome State Fault Refusal := .next (rthold half s)
/-- WINDOW_REQUEST (R236). -/
def execWindowRequest (w : Writer) (v : OdVal) (s : State) : Host.Outcome State Fault Refusal := .next (writeWindow w v s)
/-- WINDOW_OPEN (R237). -/
def execWindowOpen (half : Nat) (s : State) : Host.Outcome State Fault Refusal := .next (windowOpen half s)
/-- WINMAX_EXPIRY (R236). -/
def execWinmaxExpiry (half : Nat) (s : State) : Host.Outcome State Fault Refusal := .next (winmax half s)
/-- WINGAP_EXPIRY (R236). -/
def execWingapExpiry (half : Nat) (s : State) : Host.Outcome State Fault Refusal := .next (wingap half s)
/-- LOGIC_TEST_DUE (R240). -/
def execLogicTestDue (d c : Nat) (s : State) : Host.Outcome State Fault Refusal := .next (testDue d c s)
/-- DEFER_DEADLINE (R240). -/
def execDeferDeadline (d c : Nat) (s : State) : Host.Outcome State Fault Refusal := .next (deferDeadline d c s)
/-- LOGIC_TEST_DONE (R240). -/
def execLogicTestDone (d c : Nat) (pass : Bool) (s : State) : Host.Outcome State Fault Refusal := .next (testDone d c pass s)
/-- FULL_CORE_ASSAY_DONE (R227). -/
def execFullCoreAssayDone (d c : Nat) (s : State) : Host.Outcome State Fault Refusal := .next (fullAssayDone d c s)
/-- REMAP_RESET_ARRAY (R233). -/
def execRemapResetArray (w : Writer) (v : OdVal) (s : State) : Host.Outcome State Fault Refusal := .next (remapResetArray w v s)

end Sys2Proof.Machine
end

