-- ==== Sys2Proof/Machine/Assay.lean ====
section
/-! DEFINITION. Calibrations, traces, column tables, witness evaluations, bounds and ages
(spec/08_accuracy_and_drift.md, spec/09_assay_and_cell_care.md R218–R229, R241). -/

namespace Sys2Proof.Machine

/-! ### ADC calibration (R222–R224) -/

/-- An ADC retired for good (R222), an F1 whose recovery is the spare that takes its place; a spare that stood in is replaced as the ADC it
stood for. -/
def retireAdc (d c lane n : Nat) (s : State) : State :=
  let a := adcOf s d c lane n
  let s := setSpuse d c lane (modAdc d c lane n (fun a => { a with st := 5, stands := 0 }) s)
  let s := modLanePerm d c lane (fun p => { p with retired := if p.retired.contains n then p.retired else p.retired ++ [n] }) s
  let s := odInc (fault 0x0202 d (16 * c + lane) 0 s) (0x4300 + d) 6
  let s := if n < 128 then replaceAdc d c lane n s else if a.stands ≠ 0 then replaceAdc d c lane (a.stands - 1) s else s
  closeF1 0x0202 d (16 * c + lane) s

/-- An array's column table queued to be built (R225): a core builds one at a time, in ascending order. -/
def queueTable (d c a : Nat) (s : State) : State :=
  modCare d c (fun x => { x with tabQ := if x.tabQ.contains a then x.tabQ else (x.tabQ ++ [a]).mergeSort fun i j => decide (i ≤ j) }) s

/-- The tables of some arrays of a core queued. -/
def queueTables (d c : Nat) (l : List Nat) (s : State) : State := l.foldl (fun s a => queueTable d c a s) s

/-- The arrays of a lane that hold a tile: Serving, Staging or Offline. -/
def laneArrays (s : State) (d c lane : Nat) : List Nat :=
  (s.loom.arrs.filter fun p => decide (p.1 / 512 = coreKey d c) && decide (p.1 % 16 = lane) && [2, 3, 4].contains p.2.st).map fun p => p.1 % 512

/-- A lane that has failed in a requested full core assay. -/
def laneFailed (d c lane : Nat) (s : State) : State :=
  if (careOf s d c).asked then modCare d c (fun x => { x with lanesBad := if x.lanesBad.contains lane then x.lanesBad else x.lanesBad ++ [lane] }) s
  else s

/-- Whether a calibration meets Table 9.2: offset before correction in units of 2^−8 LSB, gain error before trim in units of 2^−16, and the
differential and integral nonlinearity in units of 2^−8 LSB. -/
def calPasses (offset gain : Int) (dnl inl : Nat) : Bool :=
  decide (10 * offset.natAbs ≤ 79 * 256) && decide (100 * gain.natAbs ≤ 3 * 65536) && decide (dnl ≤ 128) && decide (inl ≤ 256)

/-- Whether an ADC calibrates: periodically, as a suspect, or with its core in phase 0x06, a die reset or a full core assay (R222–R224,
R227). -/
def adcCalibrates (s : State) (d c lane n : Nat) : Bool :=
  let a := adcOf s d c lane n
  decide (n < 136) && a.st != 5 &&
  (a.st == 3 || (a.st == 4 && a.shade == 0) || (inStage s 6 d && !a.cal) || (fullAssayRuns s d c && !a.cal && (assayLanes s d c).contains lane))

/-- The corrections of a calibration that has passed (R222): OFFS and GTRIM, which undo the offset and the gain error that were found. A
suspect ADC begins its shadow period (R224), and a gain that moved by more than 0.05 % in Service has the column tables of the lane
written anew (R223). (DEDUCED: notes/assumptions/51.md.) -/
def calibrated (d c lane n : Nat) (offset gain : Int) (s : State) : State :=
  let a := adcOf s d c lane n
  let offs := -ratRne ((offset : Rat) / 16)
  let gtrim := -ratRne ((gain : Rat) / 16)
  let st := if a.st = 3 then (if n < 128 then 0 else 1) else a.st
  let s := modAdc d c lane n (fun a => { a with
    offs := offs, gtrim := gtrim, cal := true, st := st, shade := if a.st = 4 then 1 else 0, strikes := if a.st = 4 then [] else a.strikes }) s
  let s := if a.st = 3 ∧ n < 128 then freeStand d c lane n s else s
  if bootPhase s = 8 ∧ 10000 * (gtrim - a.gtrim).natAbs > 5 * 4096 then queueTables d c (laneArrays s d c lane) s else s

/-- ADC_SELF_CALIBRATION_DONE (R222–R224): what the calibration found, held to Table 9.2; an ADC that fails is retired. -/
def adcCalDone (d c lane n : Nat) (offset gain : Int) (dnl inl : Nat) (s : State) : State :=
  if !adcCalibrates s d c lane n then s
  else
    let s := odInc (finc s (coreB d c) F.ASSY_CNT_ADCCAL_COUNT) (0x4300 + d) 5
    nextPhases (if calPasses offset gain dnl inl then calibrated d c lane n offset gain s else laneFailed d c lane (retireAdc d c lane n s))

/-- ADC_PERIODIC_CALIBRATION (R223): the next ADC of a lane calibrates; a working one needs a free spare in its place.
(DEDUCED: notes/assumptions/51.md.) -/
def adcPeriodic (d c lane : Nat) (s : State) : State :=
  if laneFenced s d c lane || coreFenced s d c then s
  else
    let x := laneOf s d c lane
    let n := x.nextAdc
    let s := modLane d c lane (fun l => { l with nextAdc := (n + 1) % 136, incomplete := if n = 0 then false else l.incomplete }) s
    let st := (adcOf s d c lane n).st
    if n < 128 then
      if st ≠ 0 then s
      else
        match freeSpare s d c lane false with
        | some i => standIn d c lane i n (modAdc d c lane n (fun a => { a with st := 3 }) s)
        | none => modLane d c lane (fun l => { l with incomplete := true }) s
    else if st = 1 then modAdc d c lane n (fun a => { a with st := 3 }) s
    else s

/-- ADC_SHADOW_DONE (R224): WINDOW rounds of shadow have passed after a passed calibration; with fewer than STRIKES disagreements the
suspect ADC returns and its spare is freed, else it is retired. -/
def shadowDone (d c lane n : Nat) (s : State) : State :=
  let a := adcOf s d c lane n
  if a.st ≠ 4 ∨ a.shade ≤ fget s (coreB d c) F.LOOM_SPCHK_WINDOW then s
  else if a.strikes.length < fget s (coreB d c) F.LOOM_SPCHK_STRIKES then
    freeStand d c lane n (modAdc d c lane n (fun a => { a with st := 0, shade := 0, checks := 0, strikes := [] }) s)
  else retireAdc d c lane n s

/-! ### Reference check and traces (R218–R221, R229) -/

/-- Whether REF_CAL is valid (R67). -/
def refCalOkNow (s : State) : Bool := fget s hubB F.HUB_SIGSTAT_REFCAL_OK == 1

/-- REFERENCE_CHECK_DONE (R219, R79): the die reference offset in µV; it passes at 50 µV or less, and a retrace that waits for it begins
(R229). -/
def refCheck (d : Nat) (uv : Int) (s : State) : State :=
  let ok := decide (uv.natAbs ≤ 50)
  let s := if bootPhase s = 7 && !refCalOkNow s then hubNotice 0 s else s
  let s := { s with loom := { s.loom with refs := tset (fun _ => (0, false)) s.loom.refs d (uv, ok) } }
  let s := modDie s d fun x => { x with refOk := ok, refDone := x.refDone || bootPhase s == 7 }
  if ok then { s with care := { s.care with refWait := s.care.refWait.filter fun x => x != d } } else fault 0x0205 d 0 0 s

/-- The trace codes (R220). (DEDUCED: notes/assumptions/51.md.) -/
def traceCodes : List Int := [-2000, -1000, 0, 1000, 2000]

/-- The least-squares line through five charges in product units: KP and ZP. -/
def traceLine (q : List Rat) : Rat × Rat :=
  let num : Rat := ((traceCodes.zip q).map fun p => (p.1 : Rat) * p.2).foldl (· + ·) 0
  (num / 10000000, q.foldl (· + ·) 0 / 5)

/-- Whether a trace passes (R220). -/
def tracePass (q : List Rat) (l : Rat × Rat) : Bool :=
  decide (ratAbs (l.1 / 16 - 1) ≤ 2 / 100) && decide (ratAbs l.2 ≤ 4) &&
  (traceCodes.zip q).all fun p => decide (ratAbs (p.2 - (l.2 + l.1 * p.1)) ≤ 33 / 10)

/-- Whether every enabled lane of every die has been traced in this cycle (R229). -/
def allTraced (s : State) : Bool :=
  dieList.all fun d => coreList.all fun c => !coreEnabled s d c || coreFenced s d c ||
    (List.range 16).all fun l => laneFenced s d c l || s.care.tracedNow.contains (laneKey d c l)

/-- Enabled lanes that are untraced (OD 0x4308.03). -/
def untracedLanes (s : State) : Nat := (s.loom.lanes.filter fun p => p.2.untraced && coreEnabled s (p.1 / 16 / 72) (p.1 / 16 % 72)).length

/-- A traced trace recorded (R228, R229): in flash, in the counts, and in the module's complete assay where it is the last. -/
def noteTraced (d c lane kp : Nat) (zp : Int) (ratio : Nat) (s : State) : State :=
  let rc := odNum s 0x2031
  let s := modLanePerm d c lane (fun p => { p with kp := kp, zp := zp, ratio := ratio, refcal := rc, time := hubTime s }) s
  let s := odSet (odSet (odInc s (0x4300 + d) 1) (0x4300 + d) 3 (hubTime s)) (0x4300 + d) 4 rc
  let k := laneKey d c lane
  let s := { s with care := { s.care with tracedNow := if s.care.tracedNow.contains k then s.care.tracedNow else s.care.tracedNow ++ [k] } }
  if allTraced s then
    let s := odInc (odSet s 0x4308 1 (hubTime s)) 0x4308 2
    { s with care := { s.care with tracedNow := [] } }
  else s

/-- A lane taken out of its die's retrace. -/
def retraced (d c lane : Nat) (s : State) : State :=
  let l := (tget (fun _ => []) s.care.retrace d).filter fun k => k != 16 * c + lane
  { s with care := { s.care with retrace := tset (fun _ => []) s.care.retrace d l } }

/-- The lane that a start-up traces next: the first in ascending order without a trace record, after the reference check (Table 3.3). -/
def startupTrace (s : State) (d : Nat) : Option Nat :=
  if bootPhase s = 7 && starting s && (dieOf s d).refDone then
    (List.range 1152).find? fun k => coreEnabled s d (k / 16) && !laneFenced s d (k / 16) (k % 16) && !(laneOf s d (k / 16) (k % 16)).ran
  else none

/-- Whether it is a lane's turn on the die's comparator (R220): in a start-up, in the retrace under way, or in a full core assay, whose
ADCs have calibrated. -/
def traceTurn (s : State) (d c lane : Nat) : Bool :=
  startupTrace s d == some (16 * c + lane) || tracedLane s d == some (16 * c + lane) ||
  (fullAssayRuns s d c && assayCalibrated s d c && (assayTraces s d c).head? == some lane)

/-- The charges of a trace in product units: as the comparator measured them, without the die reference offset, on the maker's trace
capacitor. An offset of 1 µV moves 1 pF by 1/480 product unit of 0.48 fC (R218, R219). (DEDUCED: notes/assumptions/51.md.) -/
def traceCharges (s : State) (d : Nat) (charges : List Int) : List Rat :=
  let off : Rat := ((tget (fun _ => (0, false)) s.loom.refs d).1 : Rat) / 480
  charges.map fun (x : Int) => ((x : Rat) / 65536 - off) * tget (fun _ => 1) s.loom.caps d

/-- A trace that has passed: KP and ZP of the lane, its records, and the column tables that follow a traced one in Service (R221). -/
def lanePassed (d c lane ratio : Nat) (traced : Bool) (l : Rat × Rat) (s : State) : State :=
  let p := lanePermOf s d c lane
  let fit := ((ratRne (l.1 * 65536)).toNat, ratRne (l.2 * 16))
  let v := if traced || p.time != 0 then fit else (p.kp, p.zp)
  let s := modLane d c lane (fun x => { x with kp := v.1, zp := v.2, untraced := !traced, ran := true }) s
  let s := if traced then noteTraced d c lane v.1 v.2 ratio s else odInc s (0x4300 + d) 2
  let s := if laneAsked s d c lane then modCare d c (fun x => { x with lanesOk := x.lanesOk ++ [lane] }) s else s
  let s := if traced && bootPhase s == 8 then queueTables d c (laneArrays s d c lane) s else s
  odSet s 0x4308 3 (untracedLanes s)

/-- PROBE_DAC_TRACE_DONE (R220, R221): five measured charges, in units of 2^−16 product unit, and the bandgap-to-line ratio, in units of
2^−24. An in-field retrace with REF_CAL not valid keeps the lane's values. A lane that is fenced already stays so where its trace
fails. -/
def traceDone (d c lane ratio : Nat) (charges : List Int) (s : State) : State :=
  let inRetrace := tracedLane s d == some (16 * c + lane)
  if !traceTurn s d c lane || charges.length != 5 then s
  else
    let s := retraced d c lane s
    if inRetrace && !refCalOkNow s then
      if s.care.refNoted.contains d then s
      else hubNotice 0 { s with care := { s.care with refNoted := s.care.refNoted ++ [d] } }
    else
      let traced := refCalOkNow s && (dieOf s d).refOk
      let k : Rat := if traced then 1 else ((lanePermOf s d c lane).ratio : Rat) / 2 ^ 24
      let q := (traceCharges s d charges).map fun x => x * k
      if tracePass q (traceLine q) then lanePassed d c lane ratio traced (traceLine q) s
      else if laneFenced s d c lane then odInc (laneFailed d c lane s) (0x4300 + d) 7
      else odInc (fault 0x0204 d (16 * c + lane) 0 s) (0x4300 + d) 7

/-- LANE_RETRACE_DUE (R229): the die's enabled lanes, in ascending order, after a passing reference check. A die that has begun the present
retrace cycle begins the next. (DEDUCED: notes/assumptions/51.md.) -/
def retraceDue (d : Nat) (s : State) : State :=
  if (tget (fun _ => []) s.care.retrace d).isEmpty then
    let l := (coreList.filter fun c => coreEnabled s d c && !coreFenced s d c).flatMap fun c =>
      ((List.range 16).filter fun i => !laneFenced s d c i).map fun i => 16 * c + i
    let again := s.care.cycle.contains d
    { s with care := { s.care with
        retrace := tset (fun _ => []) s.care.retrace d l, refNoted := s.care.refNoted.filter fun x => x != d
        refWait := if s.care.refWait.contains d then s.care.refWait else s.care.refWait ++ [d]
        cycle := if again then [d] else s.care.cycle ++ [d], tracedNow := if again then [] else s.care.tracedNow } }
  else s

/-! ### Column tables (R225) -/

/-- The offset correction that applies to an integrator's codes, in LSB: that of the working ADC, or of the spare in its place.
(DEDUCED: notes/assumptions/51.md.) -/
def adcCorr (s : State) (d c lane j : Nat) : Rat :=
  let n := j % 128
  let a := match standFor s d c lane n with
    | some i => adcOf s d c lane (128 + i)
    | none => adcOf s d c lane n
  (a.offs : Rat) / 16

/-- One output of a column table: gain c_j and offset o_j, from the sums of 64 codes at CODE 0 and of 32 each at ±500. -/
def colEntry (s : State) (d c a j : Nat) (x : Int × Int × Int) : Rat × Rat :=
  let lane := a % 16
  let l := laneOf s d c lane
  let o := (x.1 : Rat) / 64 + adcCorr s d c lane j - (l.zp : Rat) / 16
  let kp := (l.kp : Rat) / 65536
  let g := ((x.2.1 : Rat) / 32 - (x.2.2 : Rat) / 32) * 32 / (1000 * kp)
  (g * (tget (fun _ => []) s.loom.lines (arrKey d c a)).getD j 1, o)

/-- A column table written and its drift entries staged (R210, R225); the outputs that it marks for remap are counted. -/
def writeTable (d c a : Nat) (codes : List (Int × Int × Int)) (s : State) : State :=
  let key := arrKey d c a
  let t := (codes.take (arrOutputs s key)).zipIdx.map fun p => colEntry s d c a p.2 p.1
  let marks := (t.zipIdx.filter fun p => gainOff p.1.1 || offsOff p.1.2).map fun p => p.2
  let ut := (laneOf s d c (a % 16)).untraced
  let s := { s with loom := { s.loom with marked := tmod (fun _ => 0) s.loom.marked d (· + marks.length) } }
  stageDrift d c a true (modAcc key (fun x => { x with col := t, marks := marks, untraced := ut }) s)

/-- The array whose column table a core builds: the first that waits on a lane not fenced (R225). -/
def tableAt (s : State) (d c : Nat) : Option Nat := (careOf s d c).tabQ.find? fun a => !laneFenced s d c (a % 16)

/-- COLUMN_TABLE_DONE (R225): the table that the core builds is complete. -/
def columnTable (d c a : Nat) (codes : List (Int × Int × Int)) (s : State) : State :=
  if tableAt s d c = some a then
    let run := fullAssayRuns s d c
    writeTable d c a codes (modCare d c (fun x => { x with tabQ := x.tabQ.erase a, tabbed := if run then x.tabbed ++ [a] else x.tabbed }) s)
  else s

/-! ### Witness evaluation (R205–R210, R212, R213) -/

/-- The ideal code of witness pair k: 48 v_k (R207). -/
def idealCode (k : Nat) : Rat := 48 * (witnessValue k : Rat)

/-- Gain γ, offset ω and the square of δ (a fraction) from the averaged codes of pairs 2–7 (R207). (DEDUCED: notes/assumptions/52.md.) -/
def witnessFit (m : List Rat) : Rat × Rat × Rat :=
  let z := (m.zipIdx.drop 2)
  let g := (z.map fun p => p.1 * idealCode p.2).foldl (· + ·) 0 / 373248
  let o := (z.map fun p => p.1).foldl (· + ·) 0 / 6
  let r := (z.map fun p => let e := p.1 - g * idealCode p.2 - o; e * e).foldl (· + ·) 0
  (g, o, r / 4 / 262144)

/-- The averaged codes of an array's probes, after the ADCs' offset corrections. -/
def witnessMeans (s : State) (d c a : Nat) (probes : List (List Int)) : List Rat :=
  let n : Rat := ((max 1 probes.length : Nat) : Rat)
  (List.range 8).map fun k => ((probes.map fun p => p.getD k 0).foldl (· + ·) 0 : Int) / n + adcCorr s d c (a % 16) k

/-- The averaged codes from sums of a number of probes, corrected. -/
def meansOfSums (s : State) (d c a n : Nat) (sums : List Int) : List Rat :=
  (List.range 8).map fun k => ((sums.getD k 0 : Int) : Rat) / ((max 1 n : Nat) : Rat) + adcCorr s d c (a % 16) k

/-- Whether δ exceeds a setting in percent. (DEDUCED: notes/assumptions/52.md.) -/
def devOver (dev2 pct : Rat) : Bool := decide (dev2 * 10000 > pct * pct)

/-- Whether an evaluation on a core is part of an assay under way, the start-up's or a full core assay, which records γ₀, ω₀ and T₀ (R208). -/
def assaying (s : State) (d c : Nat) : Bool := (bootPhase s == 7 && starting s) || fullAssayRuns s d c

/-- Whether the witness sweep of an assay has its turn: after the traces of the core's lanes (Table 3.3, R227). -/
def sweepTurn (s : State) (d c : Nat) : Bool :=
  if fullAssayRuns s d c then assayCalibrated s d c && (assayTraces s d c).isEmpty
  else (List.range 16).all fun l => laneFenced s d c l || (laneOf s d c l).ran

/-- The end of a core's witness sweep queues the column tables of its arrays (Table 3.3, R227). -/
def sweepEnded (d c a : Nat) (s : State) : State :=
  let s := modCare d c (fun x => { x with swept := if x.swept.contains a then x.swept else x.swept ++ [a] }) s
  if assaySwept s d c then queueTables d c ((coreArrays s d c).filter fun b => !(careOf s d c).tabbed.contains b) s else s

/-- Whether a core has settled (R204): its temperature within 2 K over the last 10 s, and every Serving array evaluated within 2 K of
it. -/
def settled (s : State) (d c : Nat) : Bool :=
  let t := junction s d c
  let l := ((tget (fun _ => []) (thermOf s d).past c).filter fun p => decide (hubTime s ≤ p.1 + 10000000)).map fun p => p.2
  let hi := l.foldl max t
  let lo := l.foldl min t
  decide (hi - lo ≤ 128) &&
  (s.loom.arrs.filter fun p => p.1 / 512 == coreKey d c && p.2.st == 2).all fun p =>
    (accOf s p.1).evaluated && decide (((accOf s p.1).tev - t).natAbs ≤ 128)

/-- SETTLING cleared where the core has settled. -/
def checkSettled (d c : Nat) (s : State) : State :=
  if settled s d c then fset s (coreB d c) F.ASSY_WSTAT_SETTLING 0 else s

/-- The values of an evaluation recorded. (DEDUCED: notes/assumptions/52.md.) -/
def recordEval (d c a : Nat) (base : Bool) (f : Rat × Rat × Rat) (s : State) : State :=
  let key := arrKey d c a
  let t := junction s d c
  let s := if base then modAcc key (fun x => { x with gam0 := f.1, om0 := f.2.1, t0 := t }) s else s
  let isOver := devOver f.2.2 (odRat s 0x4200)
  let hard := devOver f.2.2 (odRat s 0x4201)
  let cfg := (odRat s 0x4204, odRat s (0x4240 + d))
  let s := modAcc key (fun x => { x with
    cfg := some cfg, rho := if x.gam0 = 0 then 1 else f.1 / x.gam0, dom := f.2.1 - x.om0, dev2 := f.2.2, tev := t, at_ := hubTime s, evaluated := true,
    stale := false, trigCnt := if isOver then satAdd 8 1 x.trigCnt else 0, hardCnt := if hard then x.hardCnt + 1 else 0 }) s
  odInc s (0x4210 + d) 8

/-- TRIG set where R212 says so. -/
def checkTrig (d c a : Nat) (s : State) : State :=
  let key := arrKey d c a
  let x := accOf s key
  if !x.trig && (decide (x.trigCnt ≥ 2) || decide (ratAbs (x.rho - 1) * 100 > odRat s 0x4205) || x.gclamp) then
    startNext d c (notice 0x0300 d c a (modAcc key (fun x => { x with trig := true, trigAt := hubTime s }) s))
  else s

/-- The array set Offline where R213 says so. -/
def checkHard (d c a : Nat) (s : State) : State :=
  let key := arrKey d c a
  if (accOf s key).hardCnt ≥ 2 && ((arrOf s key).st == 2 || (arrOf s key).st == 3) then
    if (permOf s key).cyc ≥ 10000 then retireArray d c a 2 s
    else
      let s := fault 0x0302 d c a (modAcc key (fun x => { x with offdev := true }) (setArrState d c a 4 s))
      startNext d c (if odNum s 0x4314 = 0 then requestWindow (halfDie d c) false false s else s)
  else s

/-- The array that a core evaluates next: ascending, round robin (R205). -/
def nextEval (s : State) (d c : Nat) : Option Nat :=
  let l := (coreArrays s d c).mergeSort fun a b => decide (a ≤ b)
  (l.find? fun a => decide (a > (careOf s d c).turn)).orElse fun _ => l.head?

/-- WITNESS_PERIOD_DUE (R205): the probes of the next array in the round begin. -/
def witnessDue (d c a : Nat) (s : State) : State :=
  if nextEval s d c = some a then
    modCare d c (fun x => { x with turn := a }) { s with probes := tset (fun _ => []) s.probes (arrKey d c a) [] }
  else s

/-- WITNESS_EVALUATION_DONE (R207): NPROBE probes give γ, ω and δ; entries are staged, and the triggers checked. An array that has left
Serving meanwhile records nothing (Table 8.9). In an assay the evaluation waits for the core's traces. -/
def witnessEval (d c a : Nat) (s : State) : State :=
  let key := arrKey d c a
  let l := tget (fun _ => []) s.probes key
  let s0 := { s with probes := tset (fun _ => []) s.probes key [] }
  let st := (arrOf s key).st
  if !(st == 2 || st == 3) || laneFenced s d c (a % 16) then s0
  else if l.length < odNum s 0x4203 then s
  else
    let base := assaying s d c
    if base && !sweepTurn s d c then s
    else
      let s := recordEval d c a base (witnessFit (witnessMeans s d c a l)) s0
      let s := if base then sweepEnded d c a s else s
      let s := stageDrift d c a true s
      checkSettled d c (checkHard d c a (checkTrig d c a s))

/-- ARRAY_STALE (R206): once per stale episode an F0 notice. -/
def arrayStale (d c a : Nat) (s : State) : State :=
  let key := arrKey d c a
  let st := (arrOf s key).st
  if (st = 2 ∨ st = 3) ∧ !(accOf s key).stale then notice 0x0300 d c a (modAcc key (fun x => { x with stale := true }) s) else s

/-! ### The bound (R202) -/

/-- √x × 10^k, to the nearest integer. -/
def sqrtNear (x : Rat) : Nat :=
  let n := isqrt x.floor.toNat
  if x > ((n : Rat) + 1 / 2) * ((n : Rat) + 1 / 2) then n + 1 else n

/-- δ in percent, to 10^−9. -/
def devPct (dev2 : Rat) : Rat := (isqrt ((dev2 * 10000 * 1000000000000000000).floor.toNat) : Rat) / 1000000000

/-- The square of the bound on an array's tile RMS error, in percent, at P4 or P8 and in one pass or as half-passes; `none` below 10 °C
(R202, Table 8.2). -/
def boundSq (s : State) (d c a : Nat) (p8 split : Bool) : Option Rat :=
  let key := arrKey d c a
  let x := accOf s key
  let t := degrees (junction s d c)
  if t < 10 then none
  else
    let b : Rat := if p8 then 7225 / 10000 else 64 / 100
    let m : Rat := if split then 20164 / 10000 else 1
    let tt : Rat := if t < 25 then 41 / 100 else if t ≤ 85 then 0 else 60 / 100
    let slow := fget s (coreB d c) F.ASSY_WSTAT_SETTLING == 1 || x.stale || x.lag
    let sq : Rat := if slow then 79 / 100 else 0
    let dd := 11 / 10 * max 0 (devPct x.dev2 - 25 / 100)
    let f : Rat := if fget s (coreB d c) F.LOOM_STAT_FRUGAL_ACT == 1 then 35 / 100 else 0
    let u : Rat := if x.untraced then 40 / 100 else 0
    some (m * (b + tt * tt + sq * sq + dd * dd + f * f + u * u))

/-- BOUND as Table 8.5 codes it: the P4 single-pass bound in units of 0.001 %. -/
def boundCode (s : State) (d c a : Nat) : Nat :=
  match boundSq s d c a false false with
  | none => 0xFFFF
  | some b => min 0xFFFE (sqrtNear (b * 1000000))

/-- BOUND_EVALUATION (R202, R210): the bound of every Serving array of a core. -/
def boundEval (d c : Nat) (s : State) : State :=
  ((List.range 512).filter fun a => (arrOf s (arrKey d c a)).st == 2).foldl (fun s a =>
    let s := if entriesLag s d c a then modAcc (arrKey d c a) (fun x => { x with lag := true }) s else s
    modAcc (arrKey d c a) (fun x => { x with bound := boundCode s d c a }) s) s

/-! ### Ages (R211) -/

/-- 2^(q), to 2^−64, for a fraction of degrees over 7.5 K. -/
def pow2Rat (q : Rat) : Rat :=
  let k := q.floor
  let f := q - k
  let x := uExp ((f * ((uLn2 : Rat))).floor)
  x.rat * (if k ≥ 0 then ((2 ^ k.toNat : Nat) : Rat) else 1 / ((2 ^ (-k).toNat : Nat) : Rat))

/-- The mean junction of a core over the last 10 s. -/
def meanJunction (s : State) (d c : Nat) : Rat :=
  let l := ((tget (fun _ => []) (thermOf s d).past c).filter fun p => decide (hubTime s ≤ p.1 + 10000000)).map fun p => p.2
  if l.isEmpty then degrees (junction s d c) else degrees (l.foldl (· + ·) 0) / ((l.length : Nat) : Rat)

/-- AGE_UPDATE (R211): 10 s at the core's mean temperature added to the age of each of its arrays that has been programmed.
(DESIGN CHOICE: notes/assumptions/73.md.) -/
def ageUpdate (d c : Nat) (s : State) : State :=
  let inc := 10 / 3600 * pow2Rat ((meanJunction s d c - 85) / (15 / 2))
  ((List.range 512).filter fun a => (arrOf s (arrKey d c a)).st != 0).foldl (fun s a =>
    modAcc (arrKey d c a) (fun x => { x with age := x.age + inc }) s) s

/-! ### The assay that ends a programming (R226, R235) -/

/-- The state of an array whose assay has ended: Serving again for a generation in use, else Staging; Unprogrammed where no generation
names it (R360). -/
def assayedState (s : State) (key why : Nat) : Nat :=
  if s.models.gens.any fun g => g.names key && decide (g.st ≥ 3) then 2
  else if s.models.gens.any fun g => g.names key then 3
  else if why = 0 then 0 else if why = 2 then 3 else if s.flash.places.any fun r => r.tiles.any fun t => t.array == key then 3 else 2

/-- ARRAY_ASSAY_DONE (R226, R208, R235): sums of NPROBE witness codes and the codes of the column table; γ₀, ω₀ and T₀ are recorded. The end
of a programming sets the array Staging or Serving and lets the next begin; a requested assay leaves its state. -/
def arrayAssayDone (d c a : Nat) (sums : List Int) (codes : List (Int × Int × Int)) (s : State) : State :=
  let key := arrKey d c a
  let fit := witnessFit (meansOfSums s d c a (odNum s 0x4203) sums)
  let x := careOf s d c
  match x.prog with
  | some p =>
    if p.arr = a ∧ p.row ≥ 512 ∧ (arrOf s key).st = 1 then
      let s := modAcc key (fun y => { Acc.none with ts := y.ts, bound := y.bound }) s
      let s := settle d c (writeTable d c a codes (recordEval d c a true fit s))
      let st := assayedState s key p.why
      let s := if st = 0 then modArr key (fun _ => Arr.blank) s else modArr key (fun y => { y with st := st }) s
      let s := modPerm key (fun y => { y with lastProg := hubTime s, part := false }) s
      let s := odInc (finc s (coreB d c) F.ASSY_CNT_PROG_COUNT) (0x4300 + d) 8
      let s := if p.why = 1 then odInc s (0x4300 + d) 9 else s
      let s := progEnded d c s
      (s.models.gens.filter fun g => g.st == 3 && g.names key).foldl (fun s g => writeRecord g.binding s) s
    else s
  | none =>
    if x.arrReq.contains a then
      let s := modCare d c (fun y => { y with arrReq := y.arrReq.filter fun b => b != a }) s
      settle d c (checkTrig d c a (writeTable d c a codes (recordEval d c a true fit s)))
    else s

/-! ### Activity requests (R241) -/

/-- The status of a request for an activity (R241, Table 9.12): 0x02 for reserved fields, 0x0C for a fenced core, a fenced lane or a
Retired array. -/
def activityStatus (s : State) (v : Nat) : Nat :=
  let k := natBits v 0 8
  let d := natBits v 8 3
  let c := natBits v 11 7
  let t := natBits v 18 9
  if k = 0 ∨ k > 5 ∨ v ≥ 2 ^ 27 ∨ c ≥ 72 ∨ ((k = 1 ∨ k = 5) ∧ t ≠ 0) ∨ ((k = 2 ∨ k = 3) ∧ t ≥ 16) then 0x02
  else if coreFenced s d c then 0x0C
  else if (k = 2 ∨ k = 3) ∧ laneFenced s d c t then 0x0C
  else if k = 4 ∧ ((arrOf s (arrKey d c t)).st = 5 ∨ laneFenced s d c (t % 16)) then 0x0C
  else 0

/-- An activity begun; one that runs already on the same target goes on. -/
def beginActivity (v : Nat) (s : State) : State :=
  let d := natBits v 8 3
  let c := natBits v 11 7
  let t := natBits v 18 9
  match natBits v 0 8 with
  | 1 => modCare d c (fun x => { x with test := max 1 x.test }) s
  | 2 => if (laneOf s d c t).nextAdc = 0 then adcPeriodic d c t s else s
  | 3 =>
    let l := tget (fun _ => []) s.care.retrace d
    let l' := if l.contains (16 * c + t) then l else (l ++ [16 * c + t]).mergeSort fun i j => decide (i ≤ j)
    { s with care := { s.care with
        retrace := tset (fun _ => []) s.care.retrace d l'
        refWait := if l.isEmpty && !s.care.refWait.contains d then s.care.refWait ++ [d] else s.care.refWait } }
  | 4 => modCare d c (fun x => { x with arrReq := if x.arrReq.contains t then x.arrReq else x.arrReq ++ [t] }) s
  | _ => if (careOf s d c).asked then s else modCare d c (fun x => { x with asked := true, lanesOk := [], lanesBad := [] }) (askAssay d c 1 s)

/-- A write to OD 0x4340 (R241); each kind's row carries its own KIND. -/
def writeActivity (kind : Nat) (w : Writer) (v : OdVal) (s : State) : State :=
  if natBits v.nat 0 8 ≠ kind then s
  else odWrite w 0x4340 0 v (dieState s (natBits v.nat 8 3) != 3) (fun s => let st := activityStatus s v.nat; if st = 0 then (0, beginActivity v.nat s) else (st, s)) s

/-! ### The commands -/

/-- ADC_SELF_CALIBRATION_DONE (R222). -/
def execAdcSelfCalibrationDone (d c lane adc : Nat) (offset gain : Int) (dnl inl : Nat) (s : State) : Host.Outcome State Fault Refusal :=
  .next (adcCalDone d c lane adc offset gain dnl inl s)
/-- REFERENCE_CHECK_DONE (R219). -/
def execReferenceCheckDone (d : Nat) (uv : Int) (s : State) : Host.Outcome State Fault Refusal := .next (refCheck d uv s)
/-- PROBE_DAC_TRACE_DONE (R220). -/
def execProbeDacTraceDone (d c lane ratio : Nat) (charges : List Int) (s : State) : Host.Outcome State Fault Refusal :=
  .next (traceDone d c lane ratio charges s)
/-- COLUMN_TABLE_DONE (R225). -/
def execColumnTableDone (d c a : Nat) (codes : List (Int × Int × Int)) (s : State) : Host.Outcome State Fault Refusal :=
  .next (columnTable d c a codes s)
/-- WITNESS_PERIOD_DUE (R205). -/
def execWitnessPeriodDue (d c a : Nat) (s : State) : Host.Outcome State Fault Refusal := .next (witnessDue d c a s)
/-- WITNESS_EVALUATION_DONE (R207). -/
def execWitnessEvaluationDone (d c a : Nat) (s : State) : Host.Outcome State Fault Refusal := .next (witnessEval d c a s)
/-- ARRAY_STALE (R206). -/
def execArrayStale (d c a : Nat) (s : State) : Host.Outcome State Fault Refusal := .next (arrayStale d c a s)
/-- BOUND_EVALUATION (R202). -/
def execBoundEvaluation (d c : Nat) (s : State) : Host.Outcome State Fault Refusal := .next (boundEval d c s)
/-- AGE_UPDATE (R211). -/
def execAgeUpdate (d c : Nat) (s : State) : Host.Outcome State Fault Refusal := .next (ageUpdate d c s)
/-- ADC_PERIODIC_CALIBRATION (R223). -/
def execAdcPeriodicCalibration (d c lane : Nat) (s : State) : Host.Outcome State Fault Refusal := .next (adcPeriodic d c lane s)
/-- ADC_SHADOW_DONE (R224). -/
def execAdcShadowDone (d c lane adc : Nat) (s : State) : Host.Outcome State Fault Refusal := .next (shadowDone d c lane adc s)
/-- LANE_RETRACE_DUE (R229). -/
def execLaneRetraceDue (d : Nat) (s : State) : Host.Outcome State Fault Refusal := .next (retraceDue d s)
/-- ARRAY_ASSAY_DONE (R226). -/
def execArrayAssayDone (d c a : Nat) (sums : List Int) (codes : List (Int × Int × Int)) (s : State) :
    Host.Outcome State Fault Refusal := .next (arrayAssayDone d c a sums codes s)
/-- ACTIVITY_CORE_LOGIC_TEST (R241). -/
def execActivityCoreLogicTest (w : Writer) (v : OdVal) (s : State) : Host.Outcome State Fault Refusal := .next (writeActivity 1 w v s)
/-- ACTIVITY_LANE_ADC_CALIBRATION (R241). -/
def execActivityLaneAdcCalibration (w : Writer) (v : OdVal) (s : State) : Host.Outcome State Fault Refusal :=
  .next (writeActivity 2 w v s)
/-- ACTIVITY_LANE_RETRACE (R241). -/
def execActivityLaneRetrace (w : Writer) (v : OdVal) (s : State) : Host.Outcome State Fault Refusal := .next (writeActivity 3 w v s)
/-- ACTIVITY_ARRAY_ASSAY (R241). -/
def execActivityArrayAssay (w : Writer) (v : OdVal) (s : State) : Host.Outcome State Fault Refusal := .next (writeActivity 4 w v s)
/-- ACTIVITY_FULL_CORE_ASSAY (R241). -/
def execActivityFullCoreAssay (w : Writer) (v : OdVal) (s : State) : Host.Outcome State Fault Refusal := .next (writeActivity 5 w v s)

end Sys2Proof.Machine
end

