-- ==== Sys2Proof/Machine/Models.lean ====
section
/-! DEFINITION. Model commands: objects, chunks, placement, patterns, generations and keys
(spec/14_weights_and_models.md R345–R364, spec/11_patterns.md R279–R281). -/

namespace Sys2Proof.Machine

/-! ### A command's fields (Table 14.7) -/

/-- KEYSLOT of a command. -/
def cmdSlot (e : List Byte) : Nat := leAt e 10 2
/-- HANDLE of a command. -/
def cmdHandle (e : List Byte) : Nat := leAt e 12 4
/-- GEN of a command. -/
def cmdGen (e : List Byte) : Nat := leAt e 28 1
/-- MODULE of a command. -/
def cmdModule (e : List Byte) : Nat := leAt e 29 1
/-- BINDING of a command. -/
def cmdBinding (e : List Byte) : Nat := leAt e 30 2
/-- TENANT of a command. -/
def cmdTenant (e : List Byte) : Nat := leAt e 32 2
/-- The bytes that the command takes from host memory. -/
def cmdData (e data : List Byte) : List Byte := data.take (leAt e 24 4)

/-- Whether the reserved bits of a command are zero. -/
def cmdReserved (e : List Byte) : Bool := decide (leAt e 9 1 < 2) && leAt e 35 29 == 0

/-- Whether the queue's role may submit the command (R353). -/
def cmdRole (s : State) (aq : Nat) (e : List Byte) : Bool :=
  let r := (adminOf s aq).role
  r == 1 || (r == 2 && leAt e 8 1 == 8 && cmdTenant e == 0)

/-- The audit record of a model command (R459, R460). -/
def auditModel (aq : Nat) (e : List Byte) (status : Nat) (s : State) : State :=
  let x := adminOf s aq
  auditAdd ⟨6, x.role, 2, false, status, 0, 0, leAt e 8 1, 0, x.keyidx, 0, [], sliceBytes e 8 16, 0⟩ s

/-- A model command served, of operation `op`: the checks that all share, then `act`, which answers a status, a result and the state. -/
def modelCmd (aq op : Nat) (e : List Byte) (act : State → Nat × Nat × State) (s : State) : State :=
  if !adminTook s aq 1 op e then s
  else
  let r := if !cmdRole s aq e then (0x1F, 0, s) else if !cmdReserved e then (0x10, 0, s) else act s
  completeAdmin aq 1 r.1 (leAt e 2 2) r.2.1 (auditModel aq e r.1 r.2.2)

/-! ### Keys (R350) -/

/-- A key slot. -/
def keyAt (s : State) (k : Nat) : Option KeySlot := tget (fun _ => none) s.models.keys k

/-- A slot's content changed; steps in flight keep the key they began with. -/
def setKey (k : Nat) (v : Option KeySlot) (s : State) : State :=
  let kept := match keyAt s k with
    | some x =>
      (s.serve.steps.filter fun t => !s.models.kept.any fun y => y.slot == k && y.binding == t.binding && y.step == t.num).map fun t =>
        (⟨k, t.binding, t.num, x⟩ : KeptKey)
    | none => []
  { s with models := { s.models with keys := tset (fun _ => none) s.models.keys k v, kept := s.models.kept ++ kept } }

/-- The key that an unwrapped plaintext gives: its form follows KEYKIND. -/
def keyForm (kind tenant : Nat) (l : List Byte) : Option KeySlot :=
  if kind = 1 ∧ l.length = 40 ∧ leAt l 36 4 = 0 then some ⟨tenant, false, l⟩
  else if kind = 2 ∧ l.length = 64 then some ⟨tenant, true, l⟩
  else none

/-- KEYIMPORT: status, result, state. (DEDUCED: notes/assumptions/60.md.) -/
def keyImport (e data : List Byte) (s : State) : Nat × Nat × State :=
  let kind := leAt e 34 1
  if kind = 0 ∨ kind > 2 then (0x10, 0, s)
  else
    match (if s.flash.kik.isEmpty then none else Config.keyUnwrap s.flash.kik (cmdData e data)).bind (keyForm kind (cmdTenant e)) with
    | some k => (0, 0, setKey (cmdSlot e) (some k) s)
    | none => (0x1D, 0, s)

/-- KEYERASE: status, result, state. -/
def keyErase (e : List Byte) (s : State) : Nat × Nat × State :=
  match keyAt s (cmdSlot e) with
  | some _ => (0, 0, setKey (cmdSlot e) none s)
  | none => (0x16, 0, s)

/-! ### Chunks (R351) -/

/-- The upload key of a slot for a tenant. -/
def uploadKey (s : State) (k tenant : Nat) : Option KeySlot :=
  match keyAt s k with
  | some x => if !x.dataKey && x.tenant == tenant then some x else none
  | none => none

/-- A chunk opened: its offset, payload and the bytes after it. -/
structure Chunk where
  off : Nat
  payload : List Byte
  rest : List Byte
  deriving DecidableEq, Repr

/-- The first chunk of a sequence: its header, tag and COUNTER checked, in that order. The status is 0 where there is a chunk.
(DEDUCED: notes/assumptions/60.md.) -/
def takeChunk (slot handle : Nat) (key : KeySlot) (l : List Byte) (s : State) : Nat × Option Chunk × State :=
  let n := leAt l 4 4
  if leAt l 0 1 / 16 ≠ 1 ∨ leAt l 1 3 ≠ 0 ∨ n ≥ 2 ^ 17 ∨ leAt l 28 4 ≠ 0 then (0x10, none, s)
  else if n < 16 ∨ n > 65536 ∨ n % 16 ≠ 0 ∨ l.length < 48 + n ∨ leAt l 24 4 ≠ handle then (0x13, none, s)
  else
    let ctr := leAt l 16 8
    match Config.gcmOpen (key.key.take 32) (sliceBytes l 16 8 ++ sliceBytes key.key 32 4) (l.take 32) (sliceBytes l 32 n) (sliceBytes l (32 + n) 16) with
    | none => (0x14, none, odInc s 0x7005 0)
    | some pt =>
      if ctr + 1 ≤ tget (fun _ => 0) s.models.counters slot then (0x15, none, s)
      else
        let s : State := { s with models := { s.models with counters := tset (fun _ => 0) s.models.counters slot (ctr + 1) } }
        (0, some ⟨leAt l 8 8, sliceBytes pt 0 n, l.drop (48 + n)⟩, odInc s 0x7003 0 n)

/-- The bytes of an object that is sent whole, from offset 0 without gaps. `f` bounds the chunks. -/
def wholeChunks (slot handle : Nat) (key : KeySlot) : Nat → List Byte → List Byte → State → Nat × List Byte × State
  | 0, acc, _, s => (0, acc, s)
  | f + 1, acc, l, s =>
    if l.isEmpty then (0, acc, s)
    else
      match takeChunk slot handle key l s with
      | (0, some c, s) => if c.off ≠ acc.length then (0x13, [], s) else wholeChunks slot handle key f (acc ++ c.payload) c.rest s
      | (st, _, s) => (st, [], s)

/-- The bytes of a command's whole object, under an upload key of a tenant. -/
def readWhole (e data : List Byte) (handle tenant : Nat) (s : State) : Nat × List Byte × State :=
  match uploadKey s (cmdSlot e) tenant with
  | none => (0x16, [], s)
  | some k => wholeChunks (cmdSlot e) handle k (data.length / 64 + 1) [] (cmdData e data) s

/-! ### Heads (R346–R348) -/

/-- A section entry (Table 14.3). -/
structure Section where
  kind : Nat
  matrix : Nat
  ctile : Nat
  rt : Nat
  validn : Nat
  k : Nat
  sidelen : Nat
  off : Nat
  len : Nat
  digest : Nat
  deriving DecidableEq, Repr

/-- Section `i` of a head. -/
def sectionAt (h : List Byte) (i : Nat) : Section :=
  let o := 256 + 80 * i
  ⟨leAt h o 1, leAt h (o + 2) 2, leAt h (o + 4) 2, leAt h (o + 6) 1, leAt h (o + 7) 1, leAt h (o + 8) 3, leAt h (o + 12) 4, leAt h (o + 16) 8,
   leAt h (o + 24) 4, leAt h (o + 32) 48⟩

/-- NSECT of a head. -/
def headSections (h : List Byte) : Nat := leAt h 4 4
/-- MODE of a head: 0 nested, 1 lean. -/
def headMode (h : List Byte) : Nat := natBits (leAt h 2 1) 0 1
/-- The bytes of a row tile's golden copy and codes (S of R347), and of the golden copy alone. -/
def tileBytes (mode : Nat) : Nat := if mode = 1 then 245760 else 196608
/-- The bytes of a row tile's golden copy. -/
def goldenBytes (mode : Nat) : Nat := if mode = 1 then 196608 else 131072

/-- Whether no reserved encoding or reserved bit of a head is used (R348 check 1). -/
def headReserved (h : List Byte) : Bool :=
  let fl := leAt h 2 1
  let base := leAt h 1 1 == 1
  let lean := fl % 2 == 1
  leAt h 0 1 / 16 == 1 && decide (1 ≤ leAt h 1 1) && decide (leAt h 1 1 ≤ 3) && decide (fl < 64) && decide (leAt h 3 1 < 128) &&
  leAt h 68 4 == 0 && decide (leAt h 80 1 < 16) && leAt h 80 1 % 4 != 3 && leAt h 80 1 / 4 % 4 != 3 && leAt h 81 7 == 0 && leAt h 96 160 == 0 &&
  (lean || !natBit fl 1) && natBit fl 5 == !base && (base || fl % 4 == 0) && (!base || leAt h 88 8 == 0) && (base || leAt h 16 48 == 0) &&
  (List.range (min (headSections h) ((h.length - 256) / 80))).all fun i =>
    let o := 256 + 80 * i
    decide (1 ≤ leAt h o 1) && decide (leAt h o 1 ≤ 6) && leAt h (o + 1) 1 == 0 && leAt h (o + 11) 1 == 0 && leAt h (o + 28) 4 == 0

/-- Whether a section suits its image's KIND and has its fields in range. -/
def sectionOk (h : List Byte) (i : Nat) : Bool :=
  let x := sectionAt h i
  let kinds := match leAt h 1 1 with | 1 => [1, 2, 3, 4] | 2 => [5] | _ => [3, 4, 6]
  let end_ := leAt h 72 8
  kinds.contains x.kind && decide (1 ≤ x.k) && x.off % 4096 == 0 && decide (leAt h 64 4 + 96 ≤ x.off) && decide (x.off + x.len ≤ end_) &&
  decide (0 < x.len) && (leAt h 1 1 == 1 || x.len % 4096 == 0) &&
  (if x.kind = 1 then
      decide (1 ≤ x.rt) && decide (x.rt ≤ 254) && decide (1 ≤ x.validn) && decide (x.validn ≤ if headMode h = 1 then 192 else 128) &&
      x.sidelen % 65536 == 0 && x.len == x.sidelen + x.rt * tileBytes (headMode h)
    else x.ctile == 0 && x.validn == 0 && x.sidelen == 0 && (if x.kind = 2 then decide (1 ≤ x.rt) && decide (x.rt ≤ 254) else x.rt == 0)) &&
  (i == 0 || decide ((sectionAt h (i - 1)).off + (sectionAt h (i - 1)).len ≤ x.off))

/-- Whether a rank is in its range (Table 14.2). -/
def rankOk (h : List Byte) : Bool :=
  let r := leAt h 3 1
  match leAt h 1 1 with
  | 1 => if natBit (leAt h 2 1) 2 then decide (8 ≤ r) && decide (r ≤ 64) else r == 0
  | 2 => decide (1 ≤ r) && decide (r ≤ 64)
  | _ => r == 0

/-- Whether a head is consistent (R348 check 4). -/
def headFormed (h : List Byte) : Bool :=
  decide (1 ≤ headSections h) && decide (headSections h < 2 ^ 24) && leAt h 64 4 == 256 + 80 * headSections h && rankOk h &&
  (List.range (headSections h)).all (sectionOk h)

/-- The entry of the publisher list with a digest: its public key. -/
def publisherKey (s : State) (dg : Nat) : Option (List Byte) :=
  let l := (odGet s 0xA100 0).bytesOf
  ((List.range (l.length / 145)).find? fun i => leAt l (145 * i) 48 == dg).map fun i => sliceBytes l (145 * i + 48) 97

/-- The image digest (R346). -/
def headDigest (h : List Byte) : Nat := (Config.sha384 h).toNat

/-- The status of a head with its 96 bytes: the first check of R348 that fails. (DEDUCED: notes/assumptions/60.md.) -/
def headStatus (s : State) (l : List Byte) : Nat :=
  let n := leAt l 64 4
  let h := l.take n
  let formed := headFormed h && l.length == n + 96
  if l.length < 256 then (if leAt l 0 1 / 16 = 1 then 0x13 else 0x10)
  else if !headReserved l then 0x10
  else if leAt l 1 1 = 1 then
    match publisherKey s (leAt l 16 48) with
    | none => 0x11
    | some k =>
      if !Config.ecdsaP384 k (Config.sha384 h) (sliceBytes l n 96) then 0x12 else if formed then 0 else 0x13
  else if formed && leNat (l.drop n) == 0 then 0 else 0x13

/-! ### Objects -/

/-- An object. -/
def objAt (s : State) (h : Nat) : Option Obj := tget (fun _ => none) s.models.objs h

/-- An object stored. -/
def setObj (h : Nat) (o : Option Obj) (s : State) : State := { s with models := { s.models with objs := tset (fun _ => none) s.models.objs h o } }

/-- The bytes of private objects that a tenant holds in this module's DRAM. -/
def privBytes (s : State) (t : Nat) : Nat :=
  (s.models.parts.filter fun p => p.gen == 0 && (match objAt s p.obj with | some o => o.tenant == t | none => false)).foldl
    (fun a p => a + (p.len + 65535) / 65536 * 65536) 0

/-- Whether a tenant may hold `n` private bytes more (Q_PRIV, R468). -/
def privOk (s : State) (t n : Nat) : Bool :=
  match tenantOf s t with
  | some x => decide (privBytes s t + n ≤ x.qPriv)
  | none => true

/-- The lowest handle from 1 that no object has. -/
def freeHandle (s : State) : Nat :=
  ((List.range (s.models.objs.length + 1)).find? fun i => (objAt s (i + 1)).isNone).getD s.models.objs.length + 1

/-- OPEN (R348): status, HANDLE, state. `layers` and `groups` are those of an apprentice (R402). -/
def openObj (e data : List Byte) (layers groups : Nat) (s : State) : Nat × Nat × State :=
  match uploadKey s (cmdSlot e) (cmdTenant e) with
  | none => (0x16, 0, s)
  | some k =>
    match wholeChunks (cmdSlot e) 0 k (data.length / 64 + 1) [] (cmdData e data) s with
    | (0, l, s) =>
      let st := headStatus s l
      let h := l.take (l.length - 96)
      let kind := leAt h 1 1
      let size := ((List.range (headSections h)).map fun i => (sectionAt h i).len).sum
      if st ≠ 0 then (st, 0, s)
      else if kind = 1 ∧ k.tenant ≠ 0 then (0x16, 0, s)
      else if kind ≠ 1 ∧ cmdBinding e > 3 then (0x10, 0, s)
      else if kind ≠ 1 ∧ !privOk s (cmdTenant e) size then (0x1A, 0, s)
      else
        let x := freeHandle s
        let o : Obj := ⟨kind, if kind = 1 then 0 else cmdTenant e, cmdBinding e, layers, groups, false, h, natBit (leAt e 9 1) 0, [], []⟩
        (0, x, setObj x (some o) s)
    | (st, _, s) => (st, 0, s)

/-- CLOSE (R361): a private object leaves once no step binds it. -/
def closeObj (e : List Byte) (s : State) : Nat × Nat × State :=
  match objAt s (cmdHandle e) with
  | some o =>
    if o.kind = 1 ∨ o.closing then (0x1C, 0, s)
    else (0, 0, dropClosed (setObj (cmdHandle e) (some { o with closing := true }) s))
  | none => (0x1C, 0, s)

/-! ### DRAM for image parts (R358, R359) -/

/-- A part given its place on a die, and on the partner with mirrors; a private one whole regions of 2 MiB, which are given to its tenant (R363,
R433). `none` where DRAM does not suffice. -/
def addPart (gen obj sec d len va : Nat) (s : State) : Option State :=
  let m := if gen = 0 then 2 ^ 21 else 65536
  let n := alignUp m len
  match lowestFit (takenRanges s d) n m, if s.models.mirror then lowestFit (takenRanges s (d ^^^ 1)) n else some 0 with
  | some a, some t =>
    let p : Part := ⟨gen, obj, sec, d, a, len, va, t, false⟩
    let s := { s with models := { s.models with parts := s.models.parts ++ [p] } }
    some (match (if gen = 0 then objAt s obj else none) with
      | some o => giveRegions o.tenant [p] s
      | none => s)
  | _, _ => none

/-- Parts added one after another. -/
def addParts (gen obj : Nat) : List (Nat × Nat × Nat × Nat) → State → Option State
  | [], s => some s
  | (sec, d, len, va) :: l, s =>
    match addPart gen obj sec d len va s with
    | some s => addParts gen obj l s
    | none => none

/-- A part's bytes written, with the mirror's copy. -/
def writePart (p : Part) (l : List Byte) (s : State) : State :=
  let s := dramWrite p.die p.addr l s
  if s.models.mirror then dramWrite (p.die ^^^ 1) p.twin l s else s

/-- The VA of image byte `o` of a base image in its binding's context (R358). -/
def baseVa (o : Nat) : Nat := 0x10000000000 + o

/-- The VA of image byte `o` of a private object; the hub's choice (notes/assumptions). -/
def privVa (h o : Nat) : Nat := 0x20000000000 + h % 2 ^ 12 * 2 ^ 32 + o

/-! ### Landing sections (R351, R352, R356, R363) -/

/-- A golden slot written, with its mirror (R357, R359). -/
def writeGolden (d c a mode : Nat) (l : List Byte) (s : State) : State :=
  let g := l.take (goldenBytes mode)
  let k := l.drop (goldenBytes mode)
  let off := (c * 512 + a) * 0x40000
  let put (e b : Nat) (s : State) : State := dramWrite e (b + off + 0x30000) k (dramWrite e (b + off) g s)
  let s := put d goldenBase s
  if s.models.mirror then put (d ^^^ 1) mirrorBase s else s

/-- A tile whose codes have landed queued for the engine of its core, or of the core that it is rehomed on. -/
def queueLanded (t : GTile) (s : State) : State :=
  let d := t.arr / 36864
  let c := t.arr / 512 % 72
  let a := t.arr % 512
  if coreFenced s d c || !coreEnabled s d c then
    match (dieOf s d).rehome.find? fun p => p.1 == c with
    | some p => if (careOf s d p.2).assay = 0 ∧ (arrOf s (arrKey d p.2 a)).st = 0 then rehomeTile d c p.2 a s else s
    | none => s
  else if (arrOf s t.arr).st = 0 ∧ !t.shared ∧ !t.unplaced then queueTile d c a s
  else if arrayDue s t.arr then requestWindow (halfDie d c) true false s
  else s

/-- One tile of a section that has landed: its golden slot written, also that of the core it is rehomed on, and the tile queued. -/
def landTile (b g mode sidelen : Nat) (l : List Byte) (s : State) (t : GTile) : State :=
  let d := t.arr / 36864
  let c := t.arr / 512 % 72
  let a := t.arr % 512
  let bytes := sliceBytes l (sidelen + t.rt * tileBytes mode) (tileBytes mode)
  let s := writeGolden d c a mode bytes s
  let s := match (dieOf s d).rehome.find? fun p => p.1 == c with
    | some p => writeGolden d p.2 a mode bytes s
    | none => s
  let s := modGen b g (fun x => { x with tiles := x.tiles.map fun y => if y.arr = t.arr then { y with landed := true } else y }) s
  queueLanded t s

/-- A verified section of a base image landed for one generation: tiles, side part or whole section; a die that waited for it goes on. -/
def landFor (g : Gen) (i : Nat) (x : Section) (l : List Byte) (s : State) : State :=
  if !g.missing.contains i then s
  else
    let s := modGen g.binding g.gen (fun y => { y with missing := y.missing.filter fun j => j != i }) s
    let s := (g.tiles.filter fun t => t.sec == i).foldl (landTile g.binding g.gen g.mode x.sidelen l) s
    (s.models.parts.filter fun p => p.gen == g.gen && p.sec == i).foldl (fun s p => writePart p (l.take p.len) s) s

/-- The dies that a private section is placed on (R363): those with tiles of the matrix that an adapter section adapts; those with tiles
of the binding for a digital model. -/
def privDies (s : State) (o : Obj) (x : Section) : List Nat :=
  let gs := s.models.gens.filter fun g => g.binding == o.binding
  dieList.filter fun d => gs.any fun g =>
    let h := match objAt s g.obj with | some b => b.head | none => []
    g.tiles.any fun t => t.arr / 36864 == d && (o.kind != 2 || (sectionAt h t.sec).matrix == x.matrix)

/-- A verified section of a private object landed on its dies; `none` where quota or DRAM does not suffice. -/
def landPrivate (h : Nat) (o : Obj) (i : Nat) (x : Section) (l : List Byte) (s : State) : Option State :=
  let dies := privDies s o x
  if !privOk s o.tenant (dies.length * ((x.len + 65535) / 65536 * 65536)) then none
  else
    (addParts 0 h (dies.map fun d => (i, d, x.len, privVa h x.off)) s).map fun s =>
      (s.models.parts.filter fun p => p.gen == 0 && p.obj == h && p.sec == i).foldl (fun s p => writePart p l s) s

/-- Whether a section was verified before for all that need it, so that it is ignored (Table 14.12). -/
def sectionKnown (s : State) (h : Nat) (o : Obj) (i : Nat) : Bool :=
  if o.kind = 1 then !s.models.gens.any fun g => g.obj == h && g.missing.contains i else o.done.contains i

/-- The section that an offset lies in. -/
def sectionOf (o : Obj) (off : Nat) : Option Nat :=
  (List.range (headSections o.head)).find? fun i =>
    decide ((sectionAt o.head i).off ≤ off) && decide (off < (sectionAt o.head i).off + (sectionAt o.head i).len)

/-- A section whose bytes are complete: its digest checked, and the section landed. -/
def finishSection (h i : Nat) (o : Obj) (l : List Byte) (s : State) : Nat × State :=
  let x := sectionAt o.head i
  let o := { o with landing := tset (fun _ => []) o.landing i [] }
  let s := setObj h (some o) s
  if (Config.sha384 l).toNat ≠ x.digest then (0x17, odInc s 0x7004 0)
  else if o.kind = 1 then (0, s.models.gens.foldl (fun s g => if g.obj = h then landFor g i x l s else s) s)
  else
    match landPrivate h o i x l s with
    | some s => (0, setObj h (some { o with done := o.done ++ [i] }) s)
    | none => (0x1A, s)

/-- One chunk of a PUT: the status, and whether it completed a section. -/
def putChunk (h : Nat) (c : Chunk) (s : State) : Nat × Bool × State :=
  match objAt s h with
  | none => (0x1C, false, s)
  | some o =>
    match sectionOf o c.off with
    | none => (0x13, false, s)
    | some i =>
      let x := sectionAt o.head i
      if sectionKnown s h o i then (0, false, s)
      else
        let got := if c.off = x.off then [] else tget (fun _ => []) o.landing i
        let l := got ++ c.payload
        if c.off ≠ x.off + got.length ∨ l.length ≥ x.len + 16 then (0x13, false, s)
        else if l.length < x.len then
          (0, false, setObj h (some { o with landing := tset (fun _ => []) o.landing i l }) s)
        else
          let r := finishSection h i o (l.take x.len) s
          (r.1, r.1 == 0, r.2)

/-- The chunks of a PUT in their order; it stops at the first that fails. `f` bounds them. -/
def putChunks (slot h : Nat) (key : KeySlot) : Nat → Nat → List Byte → State → Nat × Nat × State
  | 0, n, _, s => (0, n, s)
  | f + 1, n, l, s =>
    if l.isEmpty then (0, n, s)
    else
      match takeChunk slot h key l s with
      | (0, some c, s) =>
        match putChunk h c s with
        | (0, full, s) => putChunks slot h key f (n + b2n full) c.rest s
        | (st, _, s) => (st, n, s)
      | (st, _, s) => (st, n, s)

/-- Dies whose sections are all resident no longer wait for golden copies that no mirror holds (R359). -/
def settleGolden (s : State) : State :=
  dieList.foldl (fun s d =>
    if (dieOf s d).goldenWait && dieState s d == 2 && sectionsHeld s d && !s.models.mirror then modDie s d (fun x => { x with goldenWait := false }) else s) s

/-- PUT (R351, R356): status, sections verified, state. -/
def putObj (e data : List Byte) (s : State) : Nat × Nat × State :=
  let h := cmdHandle e
  match objAt s h with
  | none => (0x1C, 0, s)
  | some o =>
    match uploadKey s (cmdSlot e) o.tenant with
    | none => (0x16, 0, s)
    | some k =>
      if o.closing ∨ (o.kind = 1 ∧ !s.models.gens.any fun g => g.obj == h) then (0x1C, 0, s)
      else
        let r := putChunks (cmdSlot e) h k (data.length / 64 + 1) 0 (cmdData e data) s
        (r.1, r.2.1, mapParts (settleGolden r.2.2))

/-! ### Placement tables (R354, R355) -/

/-- An entry of a placement table. -/
structure PEntry where
  sec : Nat
  rt : Nat
  module : Nat
  die : Nat
  core : Nat
  arr : Nat
  rsv : Nat
  deriving DecidableEq, Repr

/-- The entry that eight bytes spell. -/
def pentry (x : Nat) : PEntry := ⟨natBits x 0 24, natBits x 24 8, natBits x 32 8, natBits x 40 3, natBits x 43 7, natBits x 50 9, natBits x 59 5⟩

/-- The entries of a table. -/
def tableEntries (l : List Byte) : List PEntry := (list8 l 128 (leAt l 4 4)).map pentry

/-- The array of an entry. -/
def PEntry.key (p : PEntry) : Nat := arrKey p.die p.core p.arr

/-- Whether an entry places a tile, not a whole section. -/
def PEntry.isTile (p : PEntry) : Bool := p.rt != 255

/-- Whether sections are placed as conditions 2 and 3 of R355 ask. -/
def coverage (h : List Byte) (ps : List PEntry) : Bool :=
  (ps.all fun p => decide (p.sec < headSections h)) &&
  (List.range (headSections h)).all fun i =>
    let x := sectionAt h i
    let mine := ps.filter fun p => p.sec == i
    if x.kind = 1 then
      mine.all PEntry.isTile && rising (mine.map fun p => p.rt) && (mine.map fun p => p.rt) == List.range x.rt &&
      mine.all fun p => some (p.module, p.die) == mine.head?.map fun q => (q.module, q.die)
    else !mine.isEmpty && mine.all fun p => !p.isTile && p.core == 0 && p.arr == 0

/-- The status of a table against its object, before its arrays are looked at: form, version and reserved bits, signature, digest and
mode, coverage. -/
def tableStatus (o : Obj) (l : List Byte) (module : Nat) : Nat :=
  let n := 128 + 8 * leAt l 4 4
  let rsv := leAt l 3 1 == 0 && leAt l 56 72 == 0 && decide (leAt l 1 1 < 2) && (tableEntries l).all fun p => p.rsv == 0
  if l.length ≠ up16 (n + 96) then (if leAt l 0 1 / 16 = 1 then 0x13 else 0x10)
  else if leAt l 0 1 / 16 ≠ 1 ∨ !rsv then 0x10
  else if !Config.ecdsaP384 Config.patternKey (Config.sha384 (l.take n)) (sliceBytes l n 96) then 0x18
  else if leAt l 8 48 ≠ headDigest o.head ∨ leAt l 1 1 ≠ headMode o.head then 0x18
  else if leAt l 2 1 = 0 then 0x10
  else if module ≥ leAt l 2 1 ∨ !coverage o.head (tableEntries l) then 0x19
  else 0

/-- Whether a tile of a generation is the one that an entry of an image places (R361). -/
def sameTile (h : List Byte) (p : PEntry) (t : GTile) : Bool :=
  t.arr == p.key && t.dig == (sectionAt h p.sec).digest && t.rt == p.rt && !t.unplaced

/-- Whether an entry shares an array of its binding's Current generation. -/
def sharesArray (s : State) (b : Nat) (h : List Byte) (p : PEntry) : Bool :=
  match currentGen s b with
  | some g => g.tiles.any (sameTile h p)
  | none => false

/-- Whether an array is held Staging for a placement record alone (R90). -/
def heldForRecord (s : State) (key : Nat) : Bool :=
  (arrOf s key).st == 3 && !arrayNamed s key && s.flash.places.any fun r => r.tiles.any fun t => t.array == key

/-- Whether a core holds arrays of another mode (R355 condition 5). -/
def modeClash (s : State) (mode core : Nat) : Bool :=
  s.models.gens.any fun g => g.mode != mode && g.tiles.any fun t => t.arr / 512 == core && !t.unplaced

/-- Whether numbers are all different. -/
def distinct : List Nat → Bool
  | [] => true
  | a :: l => !l.contains a && distinct l

/-- Whether this module's tiles meet conditions 4 and 5 of R355. -/
def arraysOk (s : State) (b : Nat) (o : Obj) (ps : List PEntry) : Bool :=
  distinct (ps.map PEntry.key) &&
  ps.all fun p =>
    decide (p.core < 72) && coreEnabled s p.die p.core && !coreFenced s p.die p.core && (arrOf s p.key).st != 5 &&
    ((arrOf s p.key).st == 0 && !arrayNamed s p.key || heldForRecord s p.key || sharesArray s b o.head p) &&
    !modeClash s (headMode o.head) (coreKey p.die p.core)

/-- The Unprogrammed arrays of the module's enabled, unfenced cores. -/
def freeArrays (s : State) : Nat :=
  (dieList.map fun d => ((coreList.filter fun c => coreEnabled s d c && !coreFenced s d c).map fun c =>
    512 - (s.loom.arrs.filter fun p => p.1 / 512 == coreKey d c && p.2.st != 0).length).sum).sum

/-- The binding that a command asks for; `none` where no binding is left. -/
def pickBinding (s : State) (e : List Byte) : Option Nat :=
  if cmdBinding e = 0xFFFF then (List.range 4).find? fun b => !s.models.gens.any fun g => g.binding == b else some (cmdBinding e)

/-- The generation number that a command asks for (R360). -/
def pickGen (s : State) (e : List Byte) : Nat :=
  if cmdGen e = 0 then ((List.range 255).find? fun i => !s.models.gens.any fun g => g.gen == i + 1).getD 0 + 1 else cmdGen e

/-- The attention dies of a table in its order (R401): local die, or 8 for a die of another module. (DEDUCED: notes/assumptions/61.md.) -/
def tableDies (module : Nat) (ps : List PEntry) : List Nat :=
  ((ps.filter PEntry.isTile).map fun p => 8 * p.module + p.die).eraseDups.map fun x => if x / 8 = module then x % 8 else 8

/-- The parts of this module: side parts of its column blocks and whole sections (section, die, length, VA). -/
def tableParts (h : List Byte) (ps : List PEntry) : List (Nat × Nat × Nat × Nat) :=
  let sides := ((ps.filter PEntry.isTile).map fun p => (p.sec, p.die)).eraseDups.filter fun p => (sectionAt h p.1).sidelen != 0
  let whole := (ps.filter fun p => !p.isTile).map fun p => (p.sec, p.die)
  (sides.map fun p => (p.1, p.2, (sectionAt h p.1).sidelen, baseVa (sectionAt h p.1).off)) ++
  whole.map fun p => (p.1, p.2, (sectionAt h p.1).len, baseVa (sectionAt h p.1).off)

/-- The cores of a placement in the order of their roles, ascending in its table; a tile that a record holds on another core gives the role to
that core. (DEDUCED: notes/assumptions/19.md.) -/
def roleCores (m : Nat) (all : List PEntry) (tiles : List GTile) : List Nat :=
  let ps := all.filter fun p => p.module == m && p.isTile
  (((ps.map fun p => p.key / 512).eraseDups).mergeSort fun a b => decide (a ≤ b)).map fun k =>
    match ps.find? fun p => p.key / 512 == k with
    | some p => ((tiles.find? fun t => t.sec == p.sec && t.rt == p.rt).map fun t => t.arr / 512).getD k
    | none => k

/-- A generation made Loading from a table (R360). `tiles` are this module's, with what they share. (DEDUCED: notes/assumptions/61.md.) -/
def makeGen (h b n m nl groups vocab : Nat) (o : Obj) (l : List Byte) (tiles : List GTile) : Gen :=
  let all := tableEntries l
  let whole := (all.filter fun p => p.module == m && !p.isTile).map fun p => (p.sec, p.die)
  ⟨b, n, 1, h, headDigest o.head, headMode o.head, natBits (leAt o.head 2 1) 1 1, leAt l 2 1, m, tableDies m all, nl, groups, vocab, tiles, whole,
   ((tiles.map fun t => t.sec) ++ whole.map fun p => p.1).eraseDups, false, roleCores m all tiles⟩

/-- A generation entered; a binding that has none Current takes its geometry. -/
def enterGen (g : Gen) (s : State) : State :=
  let fresh := (currentGen s g.binding).isNone
  let s : State := { s with models := { s.models with gens := s.models.gens ++ [g] } }
  if fresh then takeGeometry g s else s

/-- The result of PLACE and REUSE (Table 14.8). -/
def placeResult (b n : Nat) : Nat := b + 65536 * n

/-- What PLACE and REUSE share: the object, its key, the number and binding, the table. `act` goes on with the object, binding, number and
table. -/
def withTable (e data : List Byte) (s : State) (act : Obj → Nat → Nat → List Byte → State → Nat × Nat × State) : Nat × Nat × State :=
  match objAt s (cmdHandle e) with
  | none => (0x1C, 0, s)
  | some o =>
    if o.kind ≠ 1 then (0x1C, 0, s)
    else if (cmdBinding e > 3 ∧ cmdBinding e ≠ 0xFFFF) ∨ cmdModule e = 255 then (0x10, 0, s)
    else if s.models.gens.any fun g => g.gen == cmdGen e then (0x1C, 0, s)
    else
      match readWhole e data (cmdHandle e) 0 s with
      | (0, l, s) =>
        let st := tableStatus o l (cmdModule e)
        if st ≠ 0 then (st, 0, s)
        else
          match pickBinding s e with
          | none => (0x1B, 0, s)
          | some b => if s.models.gens.length ≥ 8 then (0x1B, 0, s) else act o b (pickGen s e) l s
      | (st, _, s) => (st, 0, s)

/-- PLACE (R355): status, result, state. NL, the KV groups and the vocabulary size come with the command (notes/assumptions). -/
def placeObj (e data : List Byte) (nl groups vocab : Nat) (s : State) : Nat × Nat × State :=
  withTable e data s fun o b n l s =>
    let mine := (tableEntries l).filter fun p => p.module == cmdModule e
    let ps := mine.filter PEntry.isTile
    let need := (ps.filter fun p => !sharesArray s b o.head p).length
    let stage := (ps.filter fun p => heldForRecord s p.key).length
    if (currentGen s b).isSome ∧ need > freeArrays s + stage then (0x1A, 0, s)
    else if !arraysOk s b o ps then (0x19, 0, s)
    else
      let tiles := ps.map fun p => (⟨p.key, p.sec, p.rt, (sectionAt o.head p.sec).digest, false, sharesArray s b o.head p, false⟩ : GTile)
      match addParts n (cmdHandle e) (tableParts o.head mine) s with
      | none => (0x1A, 0, s)
      | some s =>
        let s := (tiles.filter fun t => heldForRecord s t.arr).foldl (fun s t => invalidateRecords t.arr s) s
        (0, placeResult b n, enterGen (makeGen (cmdHandle e) b n (cmdModule e) nl groups vocab o l tiles) s)

/-! ### Reuse (R362, R89) -/

/-- The record that REUSE meets: that of the binding asked for, or of any binding with the image's digest. -/
def findRecord (s : State) (e : List Byte) (dg : Nat) : Option PlaceRec :=
  s.flash.places.find? fun r => r.digest == dg && (cmdBinding e == 0xFFFF || r.binding == cmdBinding e)

/-- Whether a record holds the tile of an entry in its array, or on another core of the die where the table's core is outside the enabled
set. -/
def recordHolds (s : State) (r : PlaceRec) (p : PEntry) : Bool :=
  r.tiles.any fun t => t.tile == 256 * p.sec + p.rt &&
    (t.array == p.key || (!coreEnabled s p.die p.core && t.array / 36864 == p.die && t.array % 512 == p.arr))

/-- The array that a record gives the tile of an entry. -/
def recordArray (r : PlaceRec) (p : PEntry) : Nat :=
  ((r.tiles.find? fun t => t.tile == 256 * p.sec + p.rt).map fun t => t.array).getD p.key

/-- REUSE refused for want of a record: Staging arrays of the records are Unprogrammed (R90). -/
def refuseReuse (e : List Byte) (s : State) : State :=
  (s.flash.places.filter fun r => cmdBinding e == 0xFFFF || r.binding == cmdBinding e).foldl (fun s r => unstage r s) s

/-- A core that fails condition 6 of R89 given a place for its tiles: the spare enabled in its place, which needs no assay, else the
lowest usable spare as under R242, else what a die without one does. -/
def rehomeReused (d c : Nat) (s : State) : State :=
  match (dieOf s d).replaced.find? fun p => p.1 == c, (spares s d).find? fun t => t != c with
  | some p, _ => modDie s d fun x => { x with rehome := x.rehome ++ [(c, p.2)] }
  | none, some t => startRehome d c t s
  | none, none => coverAndRehome d c s

/-- Cores outside the enabled set that hold tiles of a generation given rehoming targets (R89 condition 6, R362). -/
def rehomeFenced (cores : List Nat) (s : State) : State :=
  cores.foldl (fun s k =>
    let d := k / 72
    let c := k % 72
    if !coreEnabled s d c && !(dieOf s d).rehome.any fun p => p.1 == c then rehomeReused d c s else s) s

/-- A bound array that the start-up assay found over 0.6 % made due for re-tempering (R89 condition 5, R362). -/
def retemperDeviant (key : Nat) (s : State) : State :=
  if overTrigger s key && !(accOf s key).trig then modAcc key (fun x => { x with trig := true, trigAt := hubTime s }) s else s

/-- REUSE (R362): status, result, state. -/
def reuseObj (e data : List Byte) (nl groups vocab : Nat) (s : State) : Nat × Nat × State :=
  withTable e data s fun o b n l s =>
    let mine := (tableEntries l).filter fun p => p.module == cmdModule e
    let ps := mine.filter PEntry.isTile
    match findRecord s e (headDigest o.head) with
    | none => (0x1E, 0, refuseReuse e s)
    | some r =>
      if !ps.all (recordHolds s r) || ps.length != r.tiles.length then (0x19, 0, s)
      else
        let tiles := ps.map fun p =>
          let key := recordArray r p
          (⟨key, p.sec, p.rt, (sectionAt o.head p.sec).digest, false, heldForRecord s key, (arrOf s key).st == 5⟩ : GTile)
        match addParts n (cmdHandle e) (tableParts o.head mine) s with
        | none => (0x1A, 0, s)
        | some s =>
          let g := makeGen (cmdHandle e) b n (cmdModule e) nl groups vocab o l tiles
          let s := tiles.foldl (fun s t =>
            if t.shared then retemperDeviant t.arr (modArr t.arr (fun x => { x with gen := n }) s) else s) (enterGen g s)
          (0, placeResult b n, rehomeFenced (genCores g) s)

/-! ### Patterns (R280) -/

/-- The number of 4 KiB units of a core's scratchpad that no window of another role takes: all of it less the task windows of VALID slots
and their pattern windows, which belong to steps that end before the image serves, so the whole scratchpad (R254). -/
def scratchUnits : Nat := 512

/-- The 4 KiB units of a core's scratchpad that are free for a binding: those outside the windows of other bindings' VALID slots (R254, R280). -/
def freeUnits (s : State) (b k : Nat) : Nat :=
  let cb := coreB (k / 72) (k % 72)
  let l := (List.range 4).filter fun t => fget s cb F.CORE_TCTL_VALID t == 1 && (taskOf s (k / 72) (k % 72) t).binding != b
  let pats := (l.map fun t => (fget s cb F.CORE_TPAT_BASE t, fget s cb F.CORE_TPAT_LEN t)).eraseDups
  scratchUnits - (l.map fun t => fget s cb F.CORE_TWIN_LEN t).sum - (pats.map fun p => p.2).sum -
    (if l.isEmpty then 0 else fget s cb F.CORE_SHWIN_SLEN)

/-- Whether the windows of a role fit a core (check 0x08). -/
def roleFits (s : State) (b k : Nat) (r : RoleEnt) : Bool := decide (r.twin + r.swin + r.pwin ≤ freeUnits s b k)

/-- The status of a pattern image for a generation (Table 11.3). -/
def patternStatus (s : State) (g : Gen) (dg : Nat) (img : List Byte) : Nat :=
  let sig := patSig img
  let cores := genCores g
  let fw := (slotOf s (fget s hubB F.HUB_BOOTSTAT_SLOT)).bytes
  if sig + 96 > img.length ∨ !Config.ecdsaP384 Config.patternKey (Config.sha384 (img.take sig)) (sliceBytes img sig 96) then 1
  else if leAt img 0 1 / 16 ≠ 1 ∨ leAt img 1 1 ≠ 1 then 2
  else if leAt img 78 2 < Config.minPsvn fw then 3
  else if leAt img 16 48 ≠ dg then 4
  else if leAt img 2 1 % 2 ≠ g.mode then 5
  else if patRoles img ≠ cores.length then 6
  else if leAt img 68 4 > 10000 then 7
  else if cores.zipIdx.any fun p =>
      let r := roleAt img p.2
      !roleFits s g.binding p.1 r || (r.alt != 0xFFFF && !roleFits s g.binding p.1 (roleAt img r.alt)) then 8
  else if !imageFormed img then 9
  else if (cores.zipIdx).any fun p => !adjMet s (roleAt img p.2) p.1 && (roleAt img p.2).alt == 0xFFFF then 10
  else 0

/-- An accepted image loaded; one that it replaces serves the steps in flight to their end (R281). (DEDUCED: notes/assumptions/61.md.) -/
def loadPattern (g : Gen) (obj : Nat) (img : List Byte) (s : State) : State :=
  let steps := (s.serve.steps.filter fun t => t.binding == g.binding && t.gen == g.gen).map fun t => t.num
  let hit (p : PatImage) : Bool := p.binding == g.binding && p.gen == g.gen && p.obj == obj && p.maxpos == patMaxpos img && !p.old
  let pats := (s.models.pats.map fun p => if hit p then { p with old := true, steps := steps } else p).filter fun p => !p.old || !p.steps.isEmpty
  odInc { s with models := { s.models with pats := pats ++ [⟨g.binding, g.gen, obj, patMaxpos img, img, false, []⟩] } } 0x3060 0

/-- PATTERN (R280): status, result, state. HANDLE names the base object, or a digital model of the binding (R363). -/
def patternCmd (e data : List Byte) (s : State) : Nat × Nat × State :=
  match genOf s (cmdBinding e) (cmdGen e), objAt s (cmdHandle e) with
  | some g, some o =>
    let digital := o.kind == 3 && o.binding == g.binding
    if !digital && g.obj != cmdHandle e then (0x1C, 0, s)
    else
      match readWhole e data (cmdHandle e) o.tenant s with
      | (0, img, s) =>
        let st := patternStatus s g (if digital then headDigest o.head else g.digest) img
        let s := odSet s 0x3062 0 st
        if st = 0 then (0, 0, loadPattern g (if digital then cmdHandle e else 0) img s)
        else (st, 0, hubNotice st (odInc s 0x3061 0))
      | (st, _, s) => (st, 0, s)
  | _, _ => (0x1C, 0, s)

/-! ### Generations (R360) -/

/-- Whether a tile of a Loading generation is in place: Staging, shared, or unplaced; one whose core is fenced on its rehoming target. -/
def tileReady (s : State) (t : GTile) : Bool :=
  let d := t.arr / 36864
  let c := t.arr / 512 % 72
  let key := match (dieOf s d).rehome.find? fun p => p.1 == c with | some p => arrKey d p.2 (t.arr % 512) | none => t.arr
  t.unplaced || (arrOf s key).st == 5 || (t.landed && !arrayDue s key &&
    ((arrOf s key).st == 3 || (t.shared && [2, 4].contains (arrOf s key).st)))

/-- Whether a Loading generation is Ready (Table 14.10). -/
def genReady (s : State) (g : Gen) : Bool :=
  g.st == 1 && g.missing.isEmpty && g.tiles.all (tileReady s) && s.models.pats.any fun p => p.binding == g.binding && p.gen == g.gen && p.obj == 0

/-- GENERATION_READY. -/
def markReady (b n : Nat) (s : State) : State :=
  match genOf s b n with
  | some g => if genReady s g then modGen b n (fun x => { x with st := 2 }) s else s
  | none => s

/-- SWITCH: status, result, state. -/
def switchCmd (e : List Byte) (s : State) : Nat × Nat × State :=
  let b := cmdBinding e
  match genOf s b (cmdGen e) with
  | some g =>
    if g.st ≠ 2 then (0x1C, 0, s)
    else
      let s : State := { s with models := { s.models with gens := s.models.gens.map fun x =>
        if x.binding = b then { x with switched := x.gen == cmdGen e } else x } }
      (0, 0, if bindInFlight s b then s else stepBoundary b s)
  | none => (0x1C, 0, s)

/-- RETIRE: status, result, state. -/
def retireCmd (e : List Byte) (s : State) : Nat × Nat × State :=
  match genOf s (cmdBinding e) (cmdGen e) with
  | some g => if g.st = 1 ∨ g.st = 2 then (0, 0, freeGen (cmdBinding e) (cmdGen e) s) else (0x1C, 0, s)
  | none => (0x1C, 0, s)

/-! ### The commands -/

/-- MODEL_OPEN (R348). -/
def execModelOpen (aq : Nat) (e data : List Byte) (layers groups : Nat) (s : State) : Host.Outcome State Fault Refusal :=
  .next (modelCmd aq 1 e (openObj e data layers groups) s)
/-- MODEL_PUT (R351). -/
def execModelPut (aq : Nat) (e data : List Byte) (s : State) : Host.Outcome State Fault Refusal := .next (modelCmd aq 2 e (putObj e data) s)
/-- MODEL_PLACE (R355). -/
def execModelPlace (aq : Nat) (e data : List Byte) (nl groups vocab : Nat) (s : State) : Host.Outcome State Fault Refusal :=
  .next (modelCmd aq 3 e (placeObj e data nl groups vocab) s)
/-- MODEL_PATTERN (R280). -/
def execModelPattern (aq : Nat) (e data : List Byte) (s : State) : Host.Outcome State Fault Refusal := .next (modelCmd aq 4 e (patternCmd e data) s)
/-- MODEL_SWITCH (R360). -/
def execModelSwitch (aq : Nat) (e : List Byte) (s : State) : Host.Outcome State Fault Refusal := .next (modelCmd aq 5 e (switchCmd e) s)
/-- MODEL_RETIRE (R360). -/
def execModelRetire (aq : Nat) (e : List Byte) (s : State) : Host.Outcome State Fault Refusal := .next (modelCmd aq 6 e (retireCmd e) s)
/-- MODEL_REUSE (R362). -/
def execModelReuse (aq : Nat) (e data : List Byte) (nl groups vocab : Nat) (s : State) : Host.Outcome State Fault Refusal :=
  .next (modelCmd aq 7 e (reuseObj e data nl groups vocab) s)
/-- KEYIMPORT (R350). -/
def execKeyimport (aq : Nat) (e data : List Byte) (s : State) : Host.Outcome State Fault Refusal := .next (modelCmd aq 8 e (keyImport e data) s)
/-- KEYERASE (R350). -/
def execKeyerase (aq : Nat) (e : List Byte) (s : State) : Host.Outcome State Fault Refusal := .next (modelCmd aq 9 e (keyErase e) s)
/-- MODEL_CLOSE (R361). -/
def execModelClose (aq : Nat) (e : List Byte) (s : State) : Host.Outcome State Fault Refusal := .next (modelCmd aq 10 e (closeObj e) s)
/-- GENERATION_READY (R360). -/
def execGenerationReady (b gen : Nat) (s : State) : Host.Outcome State Fault Refusal := .next (markReady b gen s)

end Sys2Proof.Machine
end

