-- ==== Sys2Proof/Machine/Serving.lean ====
section
/-! DEFINITION. Serving commands, queue records, the cellar and the reclamation of frames (R370–R374, R386–R390, R402,
R418–R421, R602). -/

namespace Sys2Proof.Machine

/-! ### Fields of a serving command (Table 15.4) -/

/-- Whether the command's reserved fields are zero (R8 gives way to Table 15.6's status 0x20). -/
def serveFormOk (e : List Byte) : Bool :=
  let op := leAt e 8 1
  decide (leAt e 9 1 < 4) && zeroBytes e 10 2 && decide (leAt e 12 4 < 2 ^ 20) && decide (leAt e 24 4 < 2 ^ 21) &&
  decide (leAt e 28 4 < 2 ^ 20) && zeroBytes e 32 32 && (!(op == 1 || op == 8) || leAt e 12 4 == 0)

/-- Whether a queue takes commands: enabled, on a binding that this module leads (R369, Table 15.6 status 0x27). -/
def queueOpen (s : State) (q : Nat) : Bool := (queueOf s q).enable && (bindOf s (queueOf s q).binding).lead

/-- Whether an entry fetched from a queue is this operation's: it passed its header and holds a reserved completion slot
(R575). (DEDUCED: notes/assumptions/41.md.) -/
def fetched (s : State) (q op : Nat) (e : List Byte) : Bool :=
  ringsLive s && headerReason false 0 e == 0 && leAt e 8 1 == op &&
  (match ringsOf s q with | some r => decide (r.cqReserved > 0) | none => false)

/-- The status with which a command that names a context stops before it acts: form, queue, owner, Free. -/
def serveStatus (s : State) (q : Nat) (e : List Byte) (x : Nat) : Nat :=
  let c := ctxOf s x
  if !serveFormOk e then 0x20 else if !queueOpen s q then 0x27 else if c.st = 0 then 0x23 else if c.queue ≠ q then 0x22 else 0

/-- A command that names a context: its checks, TOUCHED, and what it does. -/
def onCtx (q op : Nat) (e : List Byte) (act : Nat → State → State) (s : State) : State :=
  if !fetched s q op e then s
  else
    let x := leAt e 12 4
    let st := serveStatus s q e x
    if st ≠ 0 then completeServing q st (leAt e 2 2) 0 s
    else act x (modCtx s x fun c => { c with touched := hubTime s })

/-! ### Parameters (Table 15.1) -/

/-- The largest MAXPOS of the pattern set of the binding's Current generation. -/
def topMaxpos (s : State) (b : Nat) : Nat :=
  match currentGen s b with | some g => (buckets s b g.gen).foldl max 0 | none => 0

/-- F32 0.01, 1 and 100. -/
def f32Cent : Nat := 0x3C23D70A
/-- F32 one. -/
def f32One : Nat := 0x3F800000
/-- F32 one hundred. -/
def f32Hundred : Nat := 0x42C80000

/-- A ≤ between F32 patterns. -/
def f32Le (a b : Nat) : Bool := f32Lt a b || f32Eq a b

/-- Whether an image's values lie in their ranges (Table 15.1). -/
def imgInRange (s : State) (img : List Byte) : Bool :=
  let temp := leAt img 32 4
  let topp := leAt img 36 4
  (f32Eq temp 0 || (f32Le f32Cent temp && f32Le temp f32Hundred)) && f32Lt 0 topp && f32Le topp f32One &&
  decide (leAt img 40 1 ≤ 64) && decide (leAt img 41 1 % 16 ≤ 8) && decide (leAt img 41 1 / 16 ≤ 8) && decide (leAt img 43 1 ≤ 64) &&
  decide (leAt img 45 1 % 16 ≤ odNum s 0x4146)

/-- Whether an apprentice fits the binding's layer allowance and shards (R402). -/
def apprFits (s : State) (b h : Nat) : Bool :=
  match tget (fun _ => none) s.models.objs h with
  | some o => decide (o.layers ≤ odNum s (0x7060 + b)) && decide (o.groups ≤ 4 * (bindOf s b).ns)
  | none => false

/-- Whether the handles of an image may be used by a queue (status 0x25). -/
def imgHandles (s : State) (q : Nat) (img : List Byte) : Bool :=
  let x := queueOf s q
  let a := leAt img 80 4
  ((imgAdapt img).all fun h => handleOk s 2 x.binding x.tenant h) &&
  (a == 0 || (handleOk s 3 x.binding x.tenant a && apprFits s x.binding a))

/-! ### Ranges and Free contexts (R402) -/

/-- The bytes of a context's KV range: ⌈⌈MAXLEN/64⌉/D⌉ × PSTRIDE pages. -/
def rangeBytes (s : State) (b maxlen : Nat) : Nat :=
  let d := max 1 (bindOf s b).attn.length
  ((maxlen + 63) / 64 + d - 1) / d * frameSet s b * 65536

/-- The lowest base at which a range of `n` bytes overlaps none of a list, sought upwards through their ends.
(DESIGN CHOICE: notes/assumptions/21.md.) -/
def firstFit (n : Nat) : Nat → Nat → List (Nat × Nat) → Option Nat
  | 0, _, _ => none
  | k + 1, base, l =>
    match l.find? fun r => decide (r.1 < base + n) && decide (base < r.1 + r.2) with
    | none => if base + n ≤ 2 ^ 48 then some base else none
    | some r => firstFit n k (r.1 + r.2) l

/-- The lowest base free for a new KV range of a binding, clear of the addresses of image parts, of the hub's own tables and of audit runs.
(DESIGN CHOICE: notes/assumptions/21.md.) -/
def newRange (s : State) (b n : Nat) : Option Nat :=
  let l := (s.serve.ranges.filter fun r => r.binding == b).map fun r => (r.base, r.len)
  firstFit n (l.length + 3) 0 ([(2 ^ 40, 2 ^ 46 - 2 ^ 40), (2 ^ 47, 2 ^ 47)] ++ l)

/-- The lowest-numbered Free context. -/
def freeContext (s : State) : Option Nat :=
  (List.range (s.serve.ctxs.length + 1)).find? fun x => (ctxOf s x).st == 0 && decide (x < 2 ^ 20)

/-- Contexts of a queue. -/
def ctxsOfQueue (s : State) (q : Nat) : Nat := (s.serve.ctxs.filter fun p => p.2.queue == q && p.2.st != 0).length

/-- A new Idle context of a queue with its range reserved: its number, or none where no context is Free, CTXMAX is reached or the
range does not fit (status 0x21). -/
def newCtx (s : State) (q : Nat) (c : Ctx) : Option (Nat × State) :=
  let x := queueOf s q
  let b := x.binding
  let n := rangeBytes s b c.maxlen
  match freeContext s, newRange s b n with
  | some i, some base =>
    if ctxsOfQueue s q < x.ctxmax then
      let c := { c with st := 1, tenant := x.tenant, queue := q, kvva := base, touched := hubTime s }
      let s := { s with serve := { s.serve with ranges := s.serve.ranges ++ [⟨b, base, n, false, 0, false⟩] } }
      some (i, setCtx s i c)
    else none
  | _, _ => none

/-! ### CREATE, SUBMIT, SETPARAM, FORK -/

/-- CREATE (Table 15.5): a new context with the fields of the image. -/
def create (q : Nat) (e img : List Byte) (s : State) : State :=
  let cid := leAt e 2 2
  let maxlen := leAt img 12 4 % 2 ^ 21
  if !fetched s q 1 e then s
  else if !serveFormOk e || leAt img 0 1 / 16 != 1 then completeServing q 0x20 cid 0 s
  else if !queueOpen s q then completeServing q 0x27 cid 0 s
  else if !imgInRange s img || maxlen == 0 || decide (maxlen > 2 ^ 20) then completeServing q 0x24 cid 0 s
  else if !imgHandles s q img then completeServing q 0x25 cid 0 s
  else
    match newCtx s q (takeImage img { Ctx.free with maxlen := maxlen }) with
    | none => completeServing q 0x21 cid 0 s
    | some (x, s) => completeServing q 0 cid x s

/-- A Paused context made Resuming. -/
def startResume (x : Nat) (s : State) : State := modCtx s x fun c => { c with st := 6 }

/-- The token buffer's size: 64 Mi tokens (R374). -/
def tokenBuffer : Nat := 64 * 2 ^ 20

/-- SUBMIT of a context of the queue (R374, Table 15.16). -/
def submit (q : Nat) (e : List Byte) (toks : List Nat) (x : Nat) (s : State) : State :=
  let c := ctxOf s x
  let cid := leAt e 2 2
  let n := leAt e 24 4
  let b := (queueOf s q).binding
  if c.st = 7 ∨ c.st = 8 then completeServing q 0x23 cid 0 s
  else if n = 0 ∨ n > 2 ^ 20 ∨ c.length + c.pending + n > c.maxlen ∨ c.length + c.pending + n > topMaxpos s b ∨
      (toks.take n).any (fun t => decide (t ≥ (bindOf s b).vocab)) then completeServing q 0x24 cid 0 s
  else if s.serve.tokUsed + n > tokenBuffer then completeServing q 0x28 cid 0 s
  else
    let l := (List.range n).map fun i => toks.getD i 0
    let s := { s with serve := { s.serve with tokUsed := s.serve.tokUsed + n } }
    let s := modCtx s x fun c => { c with pending := c.pending + n, toks := c.toks ++ l, generate := natBit (leAt e 9 1) 0 }
    let s := match c.st with
      | 1 => runTail x s
      | 4 => modCtx s x fun c => { c with resumeAfter := true }
      | 5 => startResume x s
      | _ => s
    completeServing q 0 cid (c.pending + n) s

/-- SETPARAM of a context of the queue (Table 15.5): at once, or from the next step formed for a Stepping context (Table 15.13).
(DEDUCED: notes/assumptions/34.md.) -/
def setParam (q : Nat) (e img : List Byte) (x : Nat) (s : State) : State :=
  let c := ctxOf s x
  let cid := leAt e 2 2
  if leAt img 0 1 / 16 ≠ 1 then completeServing q 0x20 cid 0 s
  else if c.st = 7 ∨ c.st = 8 then completeServing q 0x23 cid 0 s
  else if !imgInRange s img then completeServing q 0x24 cid 0 s
  else if !imgHandles s q img then completeServing q 0x25 cid 0 s
  else if c.st = 3 then completeServing q 0 cid 0 (modCtx s x fun c => { c with params := some img })
  else completeServing q 0 cid 0 (modCtx s x (takeImage img))

/-- A page of a fork's source shared: its group's count raised, and its frames mapped in the fork's range (R418).
(DESIGN CHOICE: notes/assumptions/38.md.) -/
def sharePage (x : Nat) (p : Nat × Nat) (s : State) : State :=
  let c := ctxOf s x
  let g := p.2 - 1
  mapGroup (ctxBinding s c) c.kvva p.1 g { s with serve := { s.serve with groups := tmod (fun _ => PageGroup.free) s.serve.groups g fun x => { x with refs := x.refs + 1 } } }

/-- FORK (R418): a new Idle context that shares the source's first COUNT positions. (DEDUCED: notes/assumptions/34.md.) -/
def fork (q : Nat) (e : List Byte) (s : State) : State :=
  let cid := leAt e 2 2
  let src := leAt e 28 4
  let n := leAt e 24 4
  let c := ctxOf s src
  let pages := c.pages.filter fun p => decide (p.1 < (n + 63) / 64)
  if !fetched s q 8 e then s
  else if !serveFormOk e then completeServing q 0x20 cid 0 s
  else if !queueOpen s q then completeServing q 0x27 cid 0 s
  else if c.st = 0 then completeServing q 0x23 cid 0 s
  else if c.queue ≠ q then completeServing q 0x22 cid 0 s
  else if c.st > 3 then completeServing q 0x23 cid 0 s
  else if n = 0 ∨ n > c.length ∨ pages.any (fun p => decide ((groupOf s (p.2 - 1)).refs ≥ 65535)) then completeServing q 0x24 cid 0 s
  else
    let f : Ctx := { takeParams c with
      length := n, pending := 0, toks := [], generate := false, pages := pages, retry := 0, stepnum := 0, order := 0
      cancelCid := [], pauseCid := [], resumeCid := [], destroyCid := [], resumeAfter := false, blocks := [], demoted := false }
    match newCtx s q f with
    | none => completeServing q 0x21 cid 0 s
    | some (x, s) => completeServing q 0 cid x (pages.foldl (fun s p => sharePage x p s) s)

/-! ### CANCEL, PAUSE, RESUME, DESTROY -/

/-- CANCEL of a context of the queue (R386, Table 15.16). -/
def cancel (q : Nat) (e : List Byte) (x : Nat) (s : State) : State :=
  let c := ctxOf s x
  let cid := leAt e 2 2
  match c.st with
  | 1 | 2 => completeServing q 0 cid c.length (modCtx (dropPending x s) x fun c => { c with st := 1 })
  | 3 => modCtx s x fun c => { c with cancelCid := c.cancelCid ++ [cid] }
  | 4 | 5 | 6 => completeServing q 0 cid c.length (dropPending x s)
  | _ => completeServing q 0x23 cid 0 s

/-- A PAUSE or RESUME with NOWAIT completes at once with the state it stands in. -/
def answerNow (q cid x : Nat) (nowait : Bool) (s : State) : State :=
  if nowait then completeServing q 0 cid (ctxOf s x).st s else s

/-- PAUSE of a context of the queue (R387, Table 15.16). -/
def pause (q : Nat) (e : List Byte) (x : Nat) (s : State) : State :=
  let c := ctxOf s x
  let cid := leAt e 2 2
  let nw := natBit (leAt e 9 1) 1
  let wait (s : State) : State := answerNow q cid x nw (modCtx s x fun c => { c with pauseCid := c.pauseCid ++ [(cid, nw)] })
  match c.st with
  | 1 | 2 =>
    let r := startPause x s
    if r.1 then wait r.2 else completeServing q 0x26 cid 0 s
  | 3 | 4 => wait s
  | 5 => completeServing q 0 cid 5 s
  | _ => completeServing q 0x23 cid 0 s

/-- RESUME of a context of the queue (R389, Table 15.16). -/
def resume (q : Nat) (e : List Byte) (x : Nat) (s : State) : State :=
  let c := ctxOf s x
  let cid := leAt e 2 2
  let nw := natBit (leAt e 9 1) 1
  let wait (s : State) : State := answerNow q cid x nw (modCtx s x fun c => { c with resumeCid := c.resumeCid ++ [(cid, nw)] })
  match c.st with
  | 1 | 2 | 3 => completeServing q 0 cid c.st s
  | 4 => wait (modCtx s x fun c => { c with resumeAfter := true })
  | 5 => wait (startResume x s)
  | 6 => wait s
  | _ => completeServing q 0x23 cid 0 s

/-- DESTROY of a context of the queue (Table 15.16). -/
def destroy (e : List Byte) (x : Nat) (s : State) : State :=
  let cid := leAt e 2 2
  if (ctxOf s x).st = 3 then modCtx s x fun c => { c with destroyCid := c.destroyCid ++ [cid] }
  else destroyNow x [cid] s

/-! ### The cellar (R387–R390) -/

/-- The slots of a frame of a page that its shard uses (R400): those of the base layers' groups, or of an apprentice's for the layers behind
them. -/
def usedSlots (s : State) (c : Ctx) (i : Nat) : Nat :=
  let b := bindOf s (ctxBinding s c)
  let g := if i / max 1 b.ns < b.nl then b.groups
    else match tget (fun _ => none) s.models.objs c.appr with | some o => o.groups | none => 0
  min 4 (g - 4 * (i % max 1 b.ns))

/-- A frame's used slots read by the hub: none where a folio of them is uncorrectable, whose re-read is then due. -/
def readFrame (c : Ctx) (d i a : Nat) (s : State) : Option (List Byte) × State := readDram d a (0x4000 * usedSlots s c i) 0 .none s

/-- The module's 32-bit number (OD 0x6002). -/
def moduleNumber (s : State) : Nat := odNum s 0x6002

/-- The IV and the additional data of a cellar block (R388). (DESIGN CHOICE: notes/assumptions/80.md.) -/
def blockIv (s : State) (k : Block) : List Byte := leBytes 8 k.serial ++ leBytes 4 (moduleNumber s)

/-- The additional data of a cellar block: CTX, TENANT, page index, serial. (DESIGN CHOICE: notes/assumptions/80.md.) -/
def blockAad (x : Nat) (c : Ctx) (k : Block) : List Byte := leBytes 4 x ++ leBytes 2 c.tenant ++ leBytes 2 k.page ++ leBytes 8 k.serial

/-- The cellar key's bytes. -/
def cellarKeyBytes (s : State) : List Byte := leBytes 32 s.serve.cellarKey

/-- A block sealed from its frame (R388): none where the frame cannot be read yet. (DESIGN CHOICE: notes/assumptions/80.md.) -/
def sealBlock (x : Nat) (c : Ctx) (k : Block) (s : State) : Option Block × State :=
  let g := groupOf s (tget (fun _ => 0) c.pages k.page - 1)
  let r := readFrame c g.die k.frame (g.home.getD k.frame 0) s
  (r.1.map fun pt =>
    let key := cellarKeyBytes s
    let l := Config.gcmSeal key (blockIv s k) (blockAad x c k) pt
    { k with data := (List.range pt.length).map (fun i => l.getD i 0), tag := leBytes 16 (Config.gcmTag key (blockIv s k) (blockAad x c k) pt).toNat }, r.2)

/-- Every block of a context sealed; none while one cannot be. -/
def sealBlocks (x : Nat) (c : Ctx) : List Block → State → Option (List Block) × State
  | [], s => (some [], s)
  | k :: l, s =>
    match sealBlock x c k s with
    | (none, s) => (none, s)
    | (some k, s) => let r := sealBlocks x c l s; (r.1.map fun l => k :: l, r.2)

/-- Whether one of a context's dies waits for a re-read that the hub asked for. -/
def hubRereadDue (s : State) : Bool := dieList.any fun d => rereadDue s d .none

/-- CELLAR_COPY_DONE (R387): the pages are sealed in their blocks and released, the context is Paused and the commands that wait for it
complete; a RESUME or SUBMIT that came meanwhile makes it Resuming (R397). A copy that meets an uncorrectable folio waits for its
re-read (R337). -/
def copyDone (x : Nat) (s : State) : State :=
  let c := ctxOf s x
  if c.st ≠ 4 ∨ hubRereadDue s then s
  else match sealBlocks x c c.blocks s with
  | (none, s) => s
  | (some bl, s) =>
    let s := modCtx s x fun c => { c with blocks := bl }
    let s := endDemotion x (modCtx (releasePages x s) x fun c => { c with st := 5, pauseCid := [] })
    let s := finishMoves x c.pauseCid 0 s
    if c.resumeAfter then startResume x (modCtx s x fun c => { c with resumeAfter := false }) else s

/-- The frames that a resumed context's committed pages take. -/
def restorePages (x : Nat) (s : State) : State :=
  let c := ctxOf s x
  (pageRange 0 c.length).foldl (fun s i => allocPage (ctxBinding s c) x i s) s

/-- What the host gave back for a context's blocks opened (R389): none where a tag fails. -/
def openBlocks (s : State) (x : Nat) (c : Ctx) (data : List (List Byte)) : Option (List (Block × List Byte)) :=
  (c.blocks.zipIdx).mapM fun p =>
    let ct := data.getD p.2 []
    if ct.length ≠ p.1.data.length then none
    else (Config.gcmOpen (cellarKeyBytes s) (blockIv s p.1) (blockAad x c p.1) ct p.1.tag).map fun pt => (p.1, (List.range ct.length).map fun i => pt.getD i 0)

/-- A page's bytes put back into the frame that it has now. -/
def putBack (x : Nat) (k : Block × List Byte) (s : State) : State :=
  let g := groupOf s (tget (fun _ => 0) (ctxOf s x).pages k.1.page - 1)
  match g.home[k.1.frame]? with
  | some a => dramWrite g.die a k.2 s
  | none => s

/-- CELLAR_RESTORE_DONE (R389): every block that the host gave back is opened, its page put into a frame of the context's own and mapped;
the context is Runnable if work is left and Idle otherwise. A tag that fails makes it Lost, with an F0 notice. Entries of its range that
are still to be cleared, or frames that are wanting, keep it waiting. -/
def restoreDone (x : Nat) (data : List (List Byte)) (s : State) : State :=
  let c := ctxOf s x
  let b := ctxBinding s c
  if c.st ≠ 6 ∨ rangePending s b c.kvva (rangeBytes s b c.maxlen) then s
  else match openBlocks s x c data with
  | none => loseCtx 3 x (notice 0x0D00 hubDie 0 0 s)
  | some l =>
    if !framesOk s b { c with length := 0, pages := [] } c.length then s
    else
    let s := l.foldl (fun s k => putBack x k s) (restorePages x s)
    let s := releaseBlocks x s
    let s := runOrIdle x (modCtx s x fun c => { c with resumeCid := [] })
    finishMoves x c.resumeCid 0 s

/-- CELLAR_TTL_EXPIRY (R390): a Paused context with a TTL becomes Free, with an EXPIRED event. -/
def ttlExpiry (x : Nat) (s : State) : State :=
  let c := ctxOf s x
  if c.st = 5 ∧ c.ttl ≠ 0 then odInc (postEvent c.queue ⟨1, 0, x, 0⟩ (freeCtx x s)) 0x7056 0 else s

/-- IDLEPAUSE_EXPIRY (R388): an Idle context is paused as if by PAUSE, where the pool has blocks for it. -/
def idlePause (x : Nat) (s : State) : State :=
  if (ctxOf s x).st = 1 ∧ odNum s 0x7028 > 0 then (startPause x s).2 else s

/-! ### Frames (R419, R420) -/

/-- The frames of a group copied to those of another, used slots alone; none while a folio of them is uncorrectable. -/
def copyFrames (c : Ctx) (d : Nat) : List (Nat × Nat × Nat) → State → Bool × State
  | [], s => (true, s)
  | (i, a, e) :: l, s =>
    match readFrame c d i a s with
    | (none, s) => (false, s)
    | (some b, s) => copyFrames c d l (dramWrite d e b s)

/-- COW_COPY_DONE (R419): the frames are copied, the context's entries are rewritten to the new ones and the old count falls; the step waits
for the invalidation (R334). A copy that meets an uncorrectable folio waits for its re-read (Table 16.6). -/
def cowDone (x p : Nat) (s : State) : State :=
  match s.serve.cows.find? fun w => w.ctx == x && w.page == p && !w.done with
  | none => s
  | some w =>
    let c := ctxOf s x
    let old := tget (fun _ => 0) c.pages p
    let g := groupOf s w.dst
    if hubRereadDue s then s
    else match copyFrames c g.die (((groupOf s (old - 1)).home.zip g.home).zipIdx.map fun q => (q.2, q.1.1, q.1.2)) s with
    | (false, s) => s
    | (true, s) =>
      let s := mapGroup w.binding c.kvva p w.dst (modCtx s x fun c => { c with pages := tset (fun _ => 0) c.pages p (w.dst + 1) })
      let s := dropGroup w.binding (old - 1) s
      let s := odInc s (0x7070 + g.die) 5 g.frames
      let upd (v : Cow) : Option Cow := if v.ctx = x ∧ v.page = p then (if g.home.isEmpty then none else some { v with done := true }) else some v
      sendPrepares { s with serve := { s.serve with cows := s.serve.cows.filterMap upd } }

/-- FRAME_RECLAIM (R420): the frames and ranges whose steps have retired and whose invalidation has completed return to the
pool. (DESIGN CHOICE: notes/assumptions/38.md.) -/
def reclaim (s : State) : State :=
  let g := s.serve.groups.filter fun p => !(p.2.freeing && p.2.invalDone && !olderInFlight s p.2.binding p.2.waitStep)
  let r := s.serve.ranges.filter fun p => !(p.freeing && p.invalDone && !olderInFlight s p.binding p.waitStep)
  { s with serve := { s.serve with groups := g, ranges := r } }

/-! ### Queue records (R372) -/

/-- The status of a queue record write beyond the dictionary's own checks, in R554's order. -/
def queueStatus (s : State) (q : Nat) (e : List Byte) : Nat :=
  let x := queueOf s q
  let ten := leAt e 2 2
  let bind := leAt e 4 1 % 4
  let chunk := leAt e 6 2
  if natBit (leAt e 1 1) 0 ∧ !(bindOf s bind).lead then 0x0C
  else if ctxsOfQueue s q > 0 ∧ (ten ≠ x.tenant ∨ bind ≠ x.binding) then 0x0C
  else if leAt e 0 1 / 16 ≠ 1 ∨ leAt e 1 1 ≥ 4 ∨ leAt e 4 1 ≥ 4 ∨ leAt e 8 4 ≥ 2 ^ 20 * 2 ∨ !zeroBytes e 12 20 then 0x02
  else if leAt e 5 1 = 0 ∨ (chunk ≠ 0 ∧ (chunk < 64 ∨ chunk > 4096 ∨ chunk % 64 ≠ 0)) ∨ leAt e 8 4 = 0 ∨ leAt e 8 4 > 2 ^ 20 then 0x06
  else 0

/-- Balances as they start: at the budgets, 0 where unlimited (R465). -/
def startBalance (l : List Nat) : List Int := l.map fun b => if b = unlimited then 0 else (b : Int)

/-- The queue record (Table 15.3). -/
def queueRecord (q : Queue) : List Byte :=
  leBytes 1 0x10 ++ leBytes 1 (b2n q.enable + 2 * b2n q.bulk) ++ leBytes 2 q.tenant ++ leBytes 1 q.binding ++ leBytes 1 q.weight ++
    leBytes 2 q.chunk ++ leBytes 4 q.ctxmax ++ leBytes 20 0

/-- QUEUE_RECORD_WRITE (R372): a write of OD 0x7030.02 for the queue that OD 0x7030.01 selects. -/
def writeQueue (w : Writer) (v : OdVal) (s : State) : State :=
  odWriteOver (.bytes (queueRecord (queueOf s (odNum s 0x7030 1)))) w 0x7030 2 v true (fun s =>
    let q := odNum s 0x7030 1
    let e := v.bytesOf
    let st := queueStatus s q e
    let x := queueOf s q
    if st ≠ 0 then (st, s)
    else
      (0, setQueue s q { x with
        enable := natBit (leAt e 1 1) 0, bulk := natBit (leAt e 1 1) 1, tenant := leAt e 2 2, binding := leAt e 4 1
        weight := leAt e 5 1, chunk := leAt e 6 2, ctxmax := leAt e 8 4
        bal := if leAt e 2 2 ≠ x.tenant ∨ leAt e 4 1 ≠ x.binding then startBalance x.budget else x.bal })) s

/-! ### The commands -/

/-- SERVE_CREATE (R373). -/
def execServeCreate (q : Nat) (e img : List Byte) (s : State) : Host.Outcome State Fault Refusal := .next (create q e img s)
/-- SERVE_SUBMIT (R373). -/
def execServeSubmit (q : Nat) (e : List Byte) (toks : List Nat) (s : State) : Host.Outcome State Fault Refusal :=
  .next (onCtx q 2 e (submit q e toks) s)
/-- SERVE_CANCEL (R386). -/
def execServeCancel (q : Nat) (e : List Byte) (s : State) : Host.Outcome State Fault Refusal := .next (onCtx q 3 e (cancel q e) s)
/-- SERVE_PAUSE (R387). -/
def execServePause (q : Nat) (e : List Byte) (s : State) : Host.Outcome State Fault Refusal := .next (onCtx q 4 e (pause q e) s)
/-- SERVE_RESUME (R389). -/
def execServeResume (q : Nat) (e : List Byte) (s : State) : Host.Outcome State Fault Refusal := .next (onCtx q 5 e (resume q e) s)
/-- SERVE_DESTROY (R373). -/
def execServeDestroy (q : Nat) (e : List Byte) (s : State) : Host.Outcome State Fault Refusal := .next (onCtx q 6 e (destroy e) s)
/-- SERVE_SETPARAM (R373). -/
def execServeSetparam (q : Nat) (e img : List Byte) (s : State) : Host.Outcome State Fault Refusal :=
  .next (onCtx q 7 e (setParam q e img) s)
/-- SERVE_FORK (R418). -/
def execServeFork (q : Nat) (e : List Byte) (s : State) : Host.Outcome State Fault Refusal := .next (fork q e s)
/-- QUEUE_RECORD_WRITE (R372). -/
def execQueueRecordWrite (w : Writer) (v : OdVal) (s : State) : Host.Outcome State Fault Refusal := .next (writeQueue w v s)
/-- COW_COPY_DONE (R419). -/
def execCowCopyDone (x p : Nat) (s : State) : Host.Outcome State Fault Refusal := .next (cowDone x p s)
/-- CELLAR_COPY_DONE (R387). -/
def execCellarCopyDone (x : Nat) (s : State) : Host.Outcome State Fault Refusal := .next (copyDone x s)
/-- CELLAR_RESTORE_DONE (R389). -/
def execCellarRestoreDone (x : Nat) (data : List (List Byte)) (s : State) : Host.Outcome State Fault Refusal := .next (restoreDone x data s)
/-- CELLAR_TTL_EXPIRY (R390). -/
def execCellarTtlExpiry (x : Nat) (s : State) : Host.Outcome State Fault Refusal := .next (ttlExpiry x s)
/-- IDLEPAUSE_EXPIRY (R388). -/
def execIdlepauseExpiry (x : Nat) (s : State) : Host.Outcome State Fault Refusal := .next (idlePause x s)
/-- FRAME_RECLAIM (R420). -/
def execFrameReclaim (s : State) : Host.Outcome State Fault Refusal := .next (reclaim s)

end Sys2Proof.Machine
end

