-- ==== Sys2Proof/Machine/Tenants.lean ====
section
/-! DEFINITION. Tenants, budgets, metering periods and quotas (spec/18_tenants_and_metering.md R452, R453, R463–R469). -/

namespace Sys2Proof.Machine

/-! ### Tenant records (Table 18.1) -/

/-- A budget or quota field of a record: all ones is unlimited. -/
def limitAt (e : List Byte) (i n : Nat) : Nat := let v := leAt e i n; if v = 256 ^ n - 1 then unlimited else v

/-- The bytes of a budget or quota field. -/
def limitBytes (n v : Nat) : List Byte := leBytes n (if v = unlimited then 256 ^ n - 1 else v)

/-- The budgets in bytes 4–27 of a record. -/
def budgetsAt (e : List Byte) : List Nat := [limitAt e 4 4, limitAt e 8 4, limitAt e 12 8, limitAt e 20 8]

/-- The bytes of four budgets. -/
def budgetBytes (l : List Nat) : List Byte :=
  limitBytes 4 (l.getD 0 0) ++ limitBytes 4 (l.getD 1 0) ++ limitBytes 8 (l.getD 2 0) ++ limitBytes 8 (l.getD 3 0)

/-- A Free tenant with every field at its default. -/
def Tenant.free : Tenant :=
  ⟨0, List.replicate 4 unlimited, List.replicate 4 unlimited, unlimited, unlimited, unlimited, [0, 0, 0, 0], 0, 0, false, [0, 0, 0, 0]⟩

/-- The record of a tenant as it is read. -/
def tenantRecord (s : State) (t : Nat) : List Byte :=
  let x := (tenantOf s t).getD Tenant.free
  leBytes 1 0x10 ++ leBytes 1 x.st ++ leBytes 2 t ++ budgetBytes x.next ++ limitBytes 4 x.qKv ++ limitBytes 8 x.qPriv ++ limitBytes 4 x.qCellar ++
  leBytes 20 0

/-- Tenants Active or Held (OD 0x7001). -/
def tenantsHeld (s : State) : Nat :=
  (s.tenants.filter fun p => match p.2 with | some x => x.st != 0 | none => false).length

/-- Whether a tenant owns a queue, context, key slot, private object or cellar block (R453). -/
def tenantOwns (s : State) (t : Nat) : Bool :=
  s.serve.queues.any (fun p => p.2.tenant == t) || s.serve.ctxs.any (fun p => p.2.st != 0 && p.2.tenant == t) ||
  s.models.keys.any (fun p => match p.2 with | some k => k.tenant == t | none => false) ||
  s.models.objs.any (fun p => match p.2 with | some o => o.kind != 1 && o.tenant == t | none => false) || decide (cellarHeld s t > 0)

/-- The status of a tenant record's bytes for the selected tenant (R453). -/
def tenantStatus (s : State) (t : Nat) (e : List Byte) : Nat :=
  let st := leAt e 1 1
  let cur := ((tenantOf s t).getD Tenant.free).st
  if leAt e 0 1 / 16 ≠ 1 ∨ st > 2 ∨ leAt e 44 20 ≠ 0 then 0x02
  else if leAt e 2 2 ≠ t ∨ t = 0 ∨ t = 0xFFFF then 0x06
  else if st ≠ 0 ∧ cur = 0 ∧ tenantsHeld s ≥ 4096 then 0x06
  else if st = 0 ∧ tenantOwns s t then 0x06
  else 0

/-- The tenant that a record makes of the one there is: STATE and quotas at once, budgets from the next boundary; a tenant made Active
from Free starts with its balances at its budgets (R453, R465). -/
def takeRecord (x : Tenant) (e : List Byte) : Tenant :=
  let b := budgetsAt e
  let y := { x with st := leAt e 1 1, next := b, qKv := limitAt e 28 4, qPriv := limitAt e 32 8, qCellar := limitAt e 40 4 }
  if x.st = 0 ∧ y.st = 1 then { y with budget := b, bal := startBalance b } else y

/-- TENANT_RECORD_WRITE (R453): a write of OD 0x7080.02 for the tenant that OD 0x7080.01 selects. (DEDUCED: notes/assumptions/63.md.) -/
def writeTenant (w : Writer) (v : OdVal) (s : State) : State :=
  odWriteOver (.bytes (tenantRecord s (odNum s 0x7080 1))) w 0x7080 2 v true (fun s =>
    let t := odNum s 0x7080 1
    let e := v.bytesOf
    let st := tenantStatus s t e
    if st ≠ 0 then (st, s)
    else
      let s := setTenant s t (some (takeRecord ((tenantOf s t).getD Tenant.free) e))
      (0, odSet s 0x7001 0 (tenantsHeld s))) s

/-- A write of OD 0x7081.02: the budgets of the selected queue, from the next boundary (R465, Table 18.8). -/
def writeQueueBudget (w : Writer) (v : OdVal) (s : State) : State :=
  odWriteOver (.bytes (leBytes 4 0 ++ budgetBytes (queueOf s (odNum s 0x7081 1)).next ++ leBytes 4 0)) w 0x7081 2 v true (fun s =>
    let q := odNum s 0x7081 1
    let e := v.bytesOf
    if leAt e 0 4 ≠ 0 ∨ leAt e 28 4 ≠ 0 then (0x02, s)
    else (0, setQueue s q { queueOf s q with next := budgetsAt e })) s

/-! ### Meter records (Table 18.9) -/

/-- Frames that a tenant holds. -/
def kvHeld (s : State) (t : Nat) : Nat := (s.serve.groups.map fun p => if p.2.tenant = t then p.2.frames else 0).sum

/-- Whether a limited balance is zero or below, for each dimension. -/
def exhausted (l : List Nat) (b : List Int) : List Bool := (l.zip b).map fun p => p.1 != unlimited && decide (p.2 ≤ 0)

/-- The mask of exhausted dimensions. -/
def exhMask (l : List Nat) (b : List Int) : Nat := ((exhausted l b).zipIdx.map fun p => if p.1 then 2 ^ p.2 else 0).sum

/-- A signed 64-bit number in two's complement. -/
def int64Bytes (x : Int) : List Byte := leBytes 8 (x % 2 ^ 64).toNat

/-- Four balances, and 0 where a dimension is unlimited. -/
def balanceBytes (b : List Int) : List Byte := (List.range 4).flatMap fun i => int64Bytes (b.getD i 0)

/-- The meter record of a tenant. -/
def meterRecord (s : State) (t : Nat) : List Byte :=
  let x := (tenantOf s t).getD Tenant.free
  let kv := kvHeld s t
  let pv := privBytes s t
  leBytes 1 0x10 ++ leBytes 1 (exhMask x.budget x.bal + 16 * b2n (decide (kv > x.qKv)) + 32 * b2n (decide (pv > x.qPriv))) ++ leBytes 2 t ++ leBytes 4 0 ++
  balanceBytes x.bal ++ leBytes 4 kv ++ leBytes 4 (cellarHeld s t) ++ leBytes 8 pv ++ leBytes 4 x.exhPeriods ++ leBytes 4 0

/-- The balances of a queue: bytes 0–31 of a meter record, as OD 0x7081.03 shows them. -/
def queueMeter (s : State) (q : Nat) : List Byte :=
  let x := queueOf s q
  leBytes 1 0x10 ++ leBytes 1 (exhMask x.budget x.bal) ++ leBytes 2 x.tenant ++ leBytes 4 0 ++ (balanceBytes x.bal).take 24

/-! ### The metering period boundary (R463–R468) -/

/-- A balance at a boundary: the budget in force before, the one from now on, the balance (R465). -/
def refill (old new : Nat) (b : Int) : Int :=
  if new = unlimited then 0 else if old = unlimited then (new : Int) else min (new : Int) (b + new)

/-- Balances at a boundary. -/
def refillAll : List Nat → List Nat → List Int → List Int
  | o :: os, n :: ns, b :: bs => refill o n b :: refillAll os ns bs
  | _, _, _ => []

/-- A tenant at a boundary: the period that ends is counted if a dimension was exhausted in it, then new budgets come into force and balances
refill (R465, Table 18.9). -/
def Tenant.period (x : Tenant) : Tenant :=
  { x with
    budget := x.next, bal := refillAll x.budget x.next x.bal
    exhPeriods := if (exhausted x.budget x.bal).any id then min (x.exhPeriods + 1) (2 ^ 32 - 1) else x.exhPeriods }

/-- A queue at a boundary. -/
def Queue.period (x : Queue) : Queue := { x with budget := x.next, bal := refillAll x.budget x.next x.bal }

/-- Balances refilled for every tenant and queue. (DEDUCED: notes/assumptions/63.md.) -/
def refillBalances (s : State) : State :=
  let s := s.tenants.foldl (fun s p => match p.2 with
    | some x => setTenant s p.1 (some x.period)
    | none => s) s
  s.serve.queues.foldl (fun s p => setQueue s p.1 p.2.period) s

/-- Frames that a demotion of a context brings back: those of its pages that no other context shares. -/
def demotes (s : State) (c : Ctx) : Nat :=
  (c.pages.map fun p => let g := groupOf s (p.2 - 1); if g.refs = 1 then g.frames else 0).sum

/-- The contexts of a tenant that may be demoted, in order: Idle before Runnable, the oldest TOUCHED first (R421). -/
def demotable (s : State) (t : Nat) : List Nat :=
  let l := s.serve.ctxs.filter fun p => p.2.tenant == t && (p.2.st == 1 || p.2.st == 2)
  (l.mergeSort fun a b => decide (a.2.st < b.2.st) || (a.2.st == b.2.st && decide (a.2.touched ≤ b.2.touched))).map fun p => p.1

/-- Frames of a tenant's demotions that run. -/
def demoting (s : State) (t : Nat) : Nat :=
  ((s.serve.ctxs.filter fun p => p.2.tenant == t && p.2.st == 4 && p.2.demoted).map fun p => demotes s p.2).sum

/-- Demotions of a tenant begun, at most `n`, while the frames held less those of running demotions exceed its quota. -/
def demoteSome (t quota : Nat) : Nat → List Nat → State → State
  | n + 1, x :: l, s =>
    if kvHeld s t ≤ quota + demoting s t then s
    else
      match startPause x s with
      | (true, s) =>
        let s := modCtx s x fun c => { c with demoted := true }
        let s := match tenantOf s t with
          | some y => setTenant s t (some { y with demoting := y.demoting + 1 })
          | none => s
        demoteSome t quota n l (odInc s 0x7065 0)
      | (false, s) => s
  | _, _, s => s

/-- A tenant's KV quota at a boundary (R421, R468). -/
def quotaAt (t : Nat) (x : Tenant) (s : State) : State :=
  let above := decide (kvHeld s t > x.qKv)
  let s := match tenantOf s t with
    | some y => setTenant s t (some { y with noFrames := above })
    | none => s
  if above then demoteSome t x.qKv (odNum s 0x7064) (demotable s t) s else s

/-- Whether a tenant's tasks are held: a limited balance at or below zero (R467). -/
def heldTenant (s : State) (t : Nat) : Bool :=
  t != 0 && (match tenantOf s t with | some x => !balancesOk x.budget x.bal | none => false)

/-- The counts of a core collected, its holds set, its period begun: the grant's use is 0 (R467, R150). -/
def corePeriod (d c : Nat) (s : State) : State :=
  let b := coreB d c
  let s := (List.range 4).foldl (fun s t =>
    fset (fset (fset (fset s b F.CORE_MTIME_NS 0 t) b F.CORE_MARR_OPS 0 t) b F.CORE_MDRAM_LINES 0 t) b F.CORE_MLINK_LINES 0 t) s
  let hold := ((List.range 4).map fun t =>
    if fget s b F.CORE_TCTL_VALID t = 1 && heldTenant s (fget s b F.CORE_TCTL_TENANT t) then 2 ^ t else 0).sum
  let s := fset (fset s b F.CORE_MHOLD_HOLD hold) b F.CORE_STORM_USED 0
  modCore s d c fun x => { x with starved := false }

/-- The storm policy put in force on every core (R152). -/
def putPolicy (s : State) : State :=
  dieList.foldl (fun s d => coreList.foldl (fun s c => if dieState s d = 2 then fset s (coreB d c) F.CORE_LADCTRL_POLICY s.serve.stormPol else s) s) s

/-- The grant of a period: max(G_MIN, ⌈CAP × T_prev / 512⌉), CAP in thousandths (R150). -/
def stormGrant (cap gmin ops : Nat) : Nat := max gmin ((cap * ops + 511999) / 512000)

/-- METERING_PERIOD_BOUNDARY (R463): balances refill, the storm grant of the period is computed, holds are set, demotions start.
(DEDUCED: notes/assumptions/63.md.) -/
def periodBoundary (s : State) : State :=
  let s := refillBalances s
  let ops := odNum s 0x4110
  let cur := stormGrant (odNum s 0x4100) (odNum s 0x4107) (ops - s.serve.opsMark)
  let s := if s.cores.any fun p => p.2.starved then odInc s 0x4115 0 else s
  let s : State := { s with serve := { s.serve with stormCur := cur, stormOff := odNum s 0x4100 == 1000, stormPol := odNum s 0x4101, opsMark := ops } }
  let s := allCores.foldl (fun s k => corePeriod k.1 k.2 s) (putPolicy s)
  let s := allCores.foldl (fun s k => serveGrants k.1 k.2 (coreOf s k.1 k.2).grantQ s) s
  s.tenants.foldl (fun s p => match tenantOf s p.1 with
    | some x => quotaAt p.1 x s
    | none => s) s

/-! ### The commands -/

/-- TENANT_RECORD_WRITE (R453). -/
def execTenantRecordWrite (w : Writer) (v : OdVal) (s : State) : Host.Outcome State Fault Refusal := .next (writeTenant w v s)
/-- METERING_PERIOD_BOUNDARY (R463). -/
def execMeteringPeriodBoundary (s : State) : Host.Outcome State Fault Refusal := .next (periodBoundary s)
/-- AUDIT_FLUSH (R462). -/
def execAuditFlush (s : State) : Host.Outcome State Fault Refusal := .next (auditFlush s)

end Sys2Proof.Machine
end

