-- ==== Sys2Proof/Machine/Thermal.lean ====
section
/-! DEFINITION. Thermal control, the half code, write windows under load and the power cap (spec/21_thermal_and_power.md
R515–R533, R204, R210). -/

namespace Sys2Proof.Machine

/-- Whether a die's housekeeping controller runs. -/
def dieRuns (s : State) (d : Nat) : Bool := s.power.rails && (dieState s d == 1 || dieState s d == 2)

/-! ### Sensors (R516–R518) -/

/-- The half of a sensor. -/
def sensorHalf (k : Nat) : Nat := if k % 4 < 2 then 0 else 1

/-- The ring of a half's sensors: down its first column, up its second (R517). -/
def sensorRing (h : Nat) : List Nat := (List.range 6).map (fun r => 4 * r + 2 * h) ++ (List.range 6).reverse.map fun r => 4 * r + 2 * h + 1

/-- The valid sensors of a half, in ring order. -/
def validSensors (s : State) (d h : Nat) : List Nat := (sensorRing h).filter fun k => !(thermOf s d).dropped.contains k

/-- A sensor's residual: its reading less the model's temperature at its position. -/
def sensResidual (sens model : List Int) (k : Nat) : Int := sens.getD k 0 - model.getD k 0

/-- Whether a sensor of a ring of valid ones disagrees by more than 6 °C with both its neighbours. -/
def disagrees (sens model : List Int) (ring : List Nat) (k : Nat) : Bool :=
  match ring.idxOf? k with
  | none => false
  | some i =>
    let n := ring.length
    let p := ring.getD ((i + n - 1) % n) k
    let q := ring.getD ((i + 1) % n) k
    let r := sensResidual sens model k
    let far (j : Nat) : Bool := decide ((r - sensResidual sens model j).natAbs > 6 * 64)
    p != k && q != k && far p && far q

/-- A sensor dropped, an F1; a half left with fewer than four is an F2 (R517, R518). (DESIGN CHOICE: notes/assumptions/53.md.) -/
def dropSensor (d k : Nat) (s : State) : State :=
  let s := modTherm d (fun x => { x with dropped := x.dropped ++ [k] }) s
  let s := odInc (finc s (dieB d) F.THRM_CNT_DROP_COUNT) (0x9030 + d) 6
  let s := fset s (dieB d) F.THRM_STAT_VALIDS (24 - (thermOf s d).dropped.length)
  let s := fault 0x0A01 d k 0 s
  if (validSensors s d (sensorHalf k)).length < 4 then fault 0x0A02 d (sensorHalf k) 0 s else s

/-- The ring check of a half: a sensor that disagrees in 10 updates running is dropped. -/
def checkRing (d h : Nat) (sens model : List Int) (s : State) : State :=
  let ring := validSensors s d h
  ring.foldl (fun s k =>
    let n := if disagrees sens model ring k then tget (fun _ => 0) (thermOf s d).odd k + 1 else 0
    let s := modTherm d (fun x => { x with odd := tset (fun _ => 0) x.odd k n }) s
    if n ≥ 10 then dropSensor d k s else s) s

/-- The half offset after an update: the mean residual of the valid sensors through a filter of 1 ms, at 10 µs an update.
(DESIGN CHOICE: notes/assumptions/53.md.) -/
def nextEps (s : State) (d h : Nat) (sens model : List Int) : Rat :=
  let e := (thermOf s d).eps.getD h 0
  let v := validSensors s d h
  if v.isEmpty then e
  else
    let m : Rat := ((v.map (sensResidual sens model)).sum : Int) / (v.length : Rat)
    e + (m - e) / 100

/-! ### Junctions -/

/-- What a core's reported junction was at or before a hub time; its oldest value where the past does not reach back. -/
def junctionAt (s : State) (d c t : Nat) : Int :=
  let l := tget (fun _ => []) (thermOf s d).past c
  match l.find? fun p => decide (p.1 ≤ t) with
  | some p => p.2
  | none => (l.getLast?.map fun p => p.2).getD (junction s d c)

/-- The junctions of an update put in, with the past of the last 10 s (R204, R521, R522). -/
def putJunctions (d : Nat) (temps : List Int) (powers : List Nat) (sens : List Int) (eps : List Rat) (s : State) : State :=
  let now := hubTime s
  modTherm d (fun x =>
    let tj := coreList.foldl (fun t c => tset (fun _ => 0) t c (temps.getD c 0 + ratRne (eps.getD (halfOf c) 0))) x.tj
    { x with
      tj := tj, eps := eps
      power := coreList.foldl (fun t c => tset (fun _ => 0) t c (min (powers.getD c 0) 65535)) x.power
      sens := (List.range 24).foldl (fun t k => tset (fun _ => 0) t k (sens.getD k 0)) x.sens
      past := coreList.foldl (fun t c => tmod (fun _ => []) t c fun l =>
        (now, tget (fun _ => 0) tj c) :: l.filter fun p => decide (p.1 + 10000000 ≥ now)) x.past }) s

/-- The highest reported junction among some cores, with the lowest core that holds it. -/
def hottest (s : State) (d : Nat) (cores : List Nat) : Option (Nat × Int) :=
  cores.foldl (fun a c => match a with
    | none => some (c, junction s d c)
    | some (k, t) => if junction s d c > t then some (c, junction s d c) else some (k, t)) none

/-- The enabled cores of a half. -/
def enabledIn (s : State) (d h : Nat) : List Nat := (halfCores h).filter fun c => coreEnabled s d c

/-- A core whose junction has moved by more than 10 K in the last 10 s settles anew (R204); an array whose entries were computed more than
TSTEP away is staged again, and STALE follows (R210). -/
def followCore (d c : Nat) (s : State) : State :=
  let l := (tget (fun _ => []) (thermOf s d).past c).map fun p => p.2
  let t := junction s d c
  let swing := l.any fun x => decide ((t - x).natAbs > 640)
  let s := if swing then settle d c s else s
  let arrs := s.loom.arrs.filter fun p => p.1 / 512 == coreKey d c && (p.2.st == 2 || p.2.st == 3)
  arrs.foldl (fun s p =>
    let a := p.1 % 512
    let dt := degrees (t - (accOf s p.1).ts)
    let s := if ratAbs dt > (driftCfg s d p.1).1 then stageDrift d c a false s else s
    if entriesLag s d c a then modAcc p.1 (fun x => { x with lag := true }) s else s) (checkSettled d c s)

/-! ### The half code (R519, R520) -/

/-- The thermal code of R520 for a hottest junction (2^−6 °C). -/
def thermalCode (s : State) (t : Int) : Nat :=
  let base := odNum s 0x9026
  let excess := degrees t - odRat s 0x9020
  if excess ≤ 0 then base
  else
    let k := (((16 + base : Nat) : Rat) * (1 - odRat s 0x9021 / 100 * excess) - 16).floor
    (clampInt 0 base k).toNat

/-- The rise code of a half. -/
def riseCode (s : State) (d h : Nat) : Nat := (thermOf s d).rise.getD h 24

/-- The thermal limit of a half: the lower of k_T and the rise code. -/
def thermalLimit (s : State) (d h : Nat) : Nat :=
  let k := match hottest s d (enabledIn s d h) with | some p => thermalCode s p.2 | none => odNum s 0x9026
  min k (riseCode s d h)

/-- The code of a half and its cause (Table 21.1, R519). -/
def halfCode (s : State) (d h : Nat) : Nat × Nat :=
  let b := dieB d
  let base := odNum s 0x9026
  let th := thermalLimit s d h
  let cap := fget s hubB F.HUB_PWRSTAT_CAPCODE
  let win := if fget s b F.THRM_HALF_WINREQ h = 1 then fget s b F.THRM_HALF_WINCODE h else base
  let m := min base (min th (min cap win))
  (m, if m = base then 0 else if th = m then 1 else if cap = m then 3 else 2)

/-- A half's code set, and its cores': lowered before the half, raised after it (R519). -/
def setHalf (d h : Nat) (s : State) : State :=
  let b := dieB d
  let p := halfCode s d h
  let s := fset (fset s b F.THRM_HALF_TCODE (thermalLimit s d h) h) b F.THRM_HALF_CAPCODE (fget s hubB F.HUB_PWRSTAT_CAPCODE) h
  let s := fset s b F.THRM_HALF_RISELIM (b2n (decide (riseCode s d h < odNum s 0x9026))) h
  let s := if fget s b F.THRM_HALF_WINREQ h = 1 then s else fset s b F.THRM_HALF_WINCODE (odNum s 0x9026) h
  let s := requestHalf d h p.1 p.2 s
  if fget s b F.MESH_HCLK_CHANGING h = 1 then s else (enabledIn s d h).foldl (fun s c => requestClock d c p.1 s) s

/-- THRM_SET copied from the dictionary (R531). -/
def copySettings (d : Nat) (s : State) : State :=
  let b := dieB d
  let s := fset s b F.THRM_SET_SET (ratRne (odRat s 0x9020 * 2)).toNat
  let s := fset s b F.THRM_SET_GAIN (ratRne (odRat s 0x9021 * 10)).toNat
  fset s b F.THRM_SET_RISE (ratRne (odRat s 0x9022 * 10)).toNat

/-! ### Thermal stop and hard trip (R522, R523) -/

/-- A core's junction predicted 200 µs ahead from its slope over the last 100 µs. -/
def predicted (s : State) (d c : Nat) : Int :=
  let t := junction s d c
  t + 2 * (t - junctionAt s d c (hubTime s - 100))

/-- The thermal stop: a core whose predicted junction reaches STOPT raises an F3. -/
def checkStop (d : Nat) (s : State) : State :=
  let hot := coreList.filter fun c => decide (degrees (predicted s d c) ≥ odRat s 0x9023)
  let new := hot.filter fun c => !(thermOf s d).stops.contains c
  let s := modTherm d (fun x => { x with stops := hot }) s
  new.foldl (fun s c => fault 0x0A03 d c 0 (fset s (dieB d) F.THRM_STAT_STOPREQ 1)) s

/-- The hard trip: the standby domain turns the rails off, keeps LASTOFF 0x4, and records 0x0A04 at the next start-up.
(DEDUCED: notes/assumptions/54.md.) -/
def hardTrip (s : State) : State := if s.power.rails then tripOff 0x0A04 4 s else s

/-- THERMAL_MODEL_UPDATE (R515): the model's temperatures of the 72 core nodes, core powers (mW), the 24 readings and the model's
temperatures at the sensors (2^−6 °C). (DESIGN CHOICE: notes/assumptions/53.md.) -/
def modelUpdate (d : Nat) (temps : List Int) (powers : List Nat) (sens model : List Int) (s : State) : State :=
  if !dieRuns s d then s
  else
    let s := checkRing d 1 sens model (checkRing d 0 sens model s)
    let s := putJunctions d temps powers sens [nextEps s d 0 sens model, nextEps s d 1 sens model] s
    match hottest s d coreList with
    | none => s
    | some (k, t) =>
      let s := fset (fset s (dieB d) F.THRM_STAT_TMAX (toTwos 16 t)) (dieB d) F.THRM_STAT_HOTCORE k
      if degrees t ≥ 115 then hardTrip s
      else
        let s := coreList.foldl (fun s c => followCore d c s) s
        checkStop d (setHalf d 1 (setHalf d 0 (copySettings d s)))

/-! ### Rise and window codes (R521, R525) -/

/-- The largest rise of a core of a half over the last 1 ms, in 2^−6 °C. -/
def largestRise (s : State) (d h : Nat) : Int :=
  ((halfCores h).map fun c => junction s d c - junctionAt s d c (hubTime s - 1000)).foldl max (-32768)

/-- One half's rise code stepped. (DEDUCED: notes/assumptions/54.md.) -/
def stepRise (d h : Nat) (s : State) : State :=
  let r := degrees (largestRise s d h)
  let lim := odRat s 0x9022
  let k := riseCode s d h
  let put (v : Nat) (s : State) : State := modTherm d (fun x => { x with rise := x.rise.set h v }) s
  if r > lim then (if k = 0 then s else finc (put (min (k - 1) (odNum s 0x9026)) s) (dieB d) F.THRM_CNT_RISE_COUNT)
  else if r < lim / 2 then put (min (k + 1) (odNum s 0x9026)) s
  else put (min k (odNum s 0x9026)) s

/-- RISE_CODE_UPDATE (R521). -/
def riseUpdate (d : Nat) (s : State) : State := if dieRuns s d then stepRise d 1 (stepRise d 0 s) else s

/-- One half's window code stepped (R525). (DEDUCED: notes/assumptions/54.md.) -/
def stepWindow (d h : Nat) (s : State) : State :=
  let b := dieB d
  if fget s b F.THRM_HALF_WINREQ h = 0 then s
  else
    let k := fget s b F.THRM_HALF_WINCODE h
    match hottest s d (enabledIn s d h) with
    | none => s
    | some p =>
      if degrees p.2 > odRat s 0x9025 then fset s b F.THRM_HALF_WINCODE (k - 1) h
      else if degrees p.2 < 66 ∧ k < riseCode s d h then fset s b F.THRM_HALF_WINCODE (k + 1) h
      else s

/-- WINDOW_CODE_UPDATE (R525). -/
def windowUpdate (d : Nat) (s : State) : State := if dieRuns s d then stepWindow d 1 (stepWindow d 0 s) else s

/-- WINOPEN_EXPIRY (R525): a window that has not opened is withdrawn, an F0. -/
def winopenExpiry (h : Nat) (s : State) : State :=
  if (winOf s h).st = 2 then
    let b := dieB (h / 2)
    let s := modWin h (fun w => { w with st := 0, again := true }) s
    let s := fset (fset s b F.THRM_HALF_WINREQ 0 (h % 2)) b F.THRM_HALF_WINCODE (odNum s 0x9026) (h % 2)
    grantWindows (notice 0x0A06 (h / 2) (h % 2) 0 s)
  else s

/-- WINDOW_REQUEUE_EXPIRY (R525): 60 s later the request stands at the end of the queue. -/
def requeueExpiry (h : Nat) (s : State) : State :=
  let w := winOf s h
  if w.again && w.st == 0 then
    let s := modWin h (fun w => { w with st := 1, again := false }) s
    grantWindows { s with care := { s.care with winQ := s.care.winQ ++ [h] } }
  else s

/-! ### The hub's measurements (R515, R527–R529) -/

/-- PLATE_NODE_UPDATE (R515): the plate node (2^−6 °C) from the inlet temperature and the input power; FP32 inlet and outlet
temperatures. Without a valid inlet the node runs from die sensors alone (Table 21.6). -/
def plateUpdate (valid : Bool) (plate : Int) (inlet outlet : Nat) (s : State) : State :=
  if !s.power.rails then s
  else
    let s : State := if valid ∨ s.cap.inletBad then s else notice 0x0A00 hubDie 0 0 s
    let s : State := { s with cap := { s.cap with plate := plate, inletBad := !valid } }
    if valid then odSet (odSet s 0x9010 0 inlet) 0x9011 0 outlet else s

/-- The cap code after an update (R528): the present code, A₀.₁ and A₁₀ in mW, P_PEAK and P_CAP in W, and whether a rise is allowed. -/
def nextCap (k base a01 a10 : Nat) (peak cap : Rat) (mayRise : Bool) : Nat :=
  let x : Rat := (a01 : Rat) / 1000
  let y : Rat := (a10 : Rat) / 1000
  if x > peak then min (k - 2) base
  else if y > cap then min (k - 1) base
  else if y < cap * 97 / 100 ∧ x < peak * 95 / 100 ∧ mayRise then min (k + 1) base
  else min k base

/-- P_PEAK in watts as FP32 bits: the air-cooled variant's is fixed at 640 W (Table 21.10). -/
def pPeak (s : State) : Nat := if s.flash.af then 0x44200000 else odNum s 0x2051

/-- P_CAP in watts as FP32 bits: OD 0x2050, or 560 W on the air-cooled variant. -/
def pCap (s : State) : Nat := if s.flash.af then 0x440C0000 else odNum s 0x2050

/-- POWER_CAP_UPDATE (R528): the measured means of the input power (mW), input voltage (0.25 V) and current (10 mA), and each die's power
(10 mW). -/
def capUpdate (a01 a10 vin iin : Nat) (dies : List Nat) (s : State) : State :=
  if !s.power.rails then s
  else
    let base := odNum s 0x9026
    let k := fget s hubB F.HUB_PWRSTAT_CAPCODE
    let mayRise := decide (s.cap.raised + 1000 ≤ hubTime s)
    let v := nextCap k base a01 a10 (f32Rat (pPeak s)) (f32Rat (pCap s)) mayRise
    let still := decide (k = 0) && decide ((a10 : Rat) / 1000 > f32Rat (pCap s))
    let act := decide (v < base)
    let s := if still && !s.cap.noted then notice 0x0A05 hubDie 0 0 s else s
    let c : Cap := { s.cap with
      raised := if v > k then hubTime s else s.cap.raised, noted := still, a01 := a01, a10 := a10
      energy := s.cap.energy + a01, active := s.cap.active + b2n act, vSeen := true, seen := true }
    let s := fset { s with cap := c } hubB F.HUB_PWRSTAT_CAPCODE v
    let s := fset (fset s hubB F.HUB_PWRSTAT_CAPACT (b2n act)) hubB F.HUB_PWRSTAT_PEAKACT (b2n (decide ((a01 : Rat) / 1000 > f32Rat (pPeak s))))
    let s := fset s hubB F.HUB_PWRSTAT_PIN (min (a01 / 250) 4095)
    let s := fset (fset s hubB F.HUB_INSTAGE_VIN (min vin 4095)) hubB F.HUB_INSTAGE_IIN (min iin 255)
    let s := dieList.foldl (fun s d => fset s hubB F.HUB_DIEPWR_POWER (min (dies.getD d 0) 65535) d) s
    odSet (odSet (odSet s 0x2052 0 v) 0x2053 0 (s.cap.energy / 10000)) 0x2054 0 (s.cap.active / 10)

/-- HARD_TRIP (R523): the comparator of a sensor above 115 °C; that of a dropped sensor is masked. -/
def sensorTrip (d k : Nat) (s : State) : State := if (thermOf s d).dropped.contains k then s else hardTrip s

/-- COOLANT_ALARM_EXPIRY (R529). -/
def coolantAlarm (s : State) : State := if s.power.rails then notice 0x0A07 hubDie 0 0 s else s

/-! ### The commands -/

/-- THERMAL_MODEL_UPDATE (R515). -/
def execThermalModelUpdate (d : Nat) (temps : List Int) (powers : List Nat) (sens model : List Int) (s : State) : Host.Outcome State Fault Refusal :=
  .next (modelUpdate d temps powers sens model s)
/-- RISE_CODE_UPDATE (R521). -/
def execRiseCodeUpdate (d : Nat) (s : State) : Host.Outcome State Fault Refusal := .next (riseUpdate d s)
/-- WINDOW_CODE_UPDATE (R525). -/
def execWindowCodeUpdate (d : Nat) (s : State) : Host.Outcome State Fault Refusal := .next (windowUpdate d s)
/-- WINOPEN_EXPIRY (R525). -/
def execWinopenExpiry (half : Nat) (s : State) : Host.Outcome State Fault Refusal := .next (winopenExpiry half s)
/-- WINDOW_REQUEUE_EXPIRY (R525). -/
def execWindowRequeueExpiry (half : Nat) (s : State) : Host.Outcome State Fault Refusal := .next (requeueExpiry half s)
/-- PLATE_NODE_UPDATE (R515). -/
def execPlateNodeUpdate (valid : Bool) (plate : Int) (inlet outlet : Nat) (s : State) : Host.Outcome State Fault Refusal :=
  .next (plateUpdate valid plate inlet outlet s)
/-- HARD_TRIP (R523). -/
def execHardTrip (d sensor : Nat) (s : State) : Host.Outcome State Fault Refusal := .next (sensorTrip d sensor s)
/-- POWER_CAP_UPDATE (R528). -/
def execPowerCapUpdate (a01 a10 vin iin : Nat) (dies : List Nat) (s : State) : Host.Outcome State Fault Refusal :=
  .next (capUpdate a01 a10 vin iin dies s)
/-- COOLANT_ALARM_EXPIRY (R529). -/
def execCoolantAlarmExpiry (s : State) : Host.Outcome State Fault Refusal := .next (coolantAlarm s)

end Sys2Proof.Machine
end

