-- ==== Sys2Proof/Machine/Settings.lean ====
section
/-! DEFINITION. Sessions and their end; writing any dictionary entry (spec/18_tenants_and_metering.md R456, R458,
spec/23_object_dictionary.md R553–R559, and the dictionary table of each chapter). -/

namespace Sys2Proof.Machine

/-! ### Sessions -/

/-- The entries of a credential list. -/
def credentials (l : List Byte) : List (List Byte) := (List.range (l.length / 81)).map fun i => sliceBytes l (81 * i) 81

/-- The credential list of a role: installer keys in OD 0xA010, operator keys in OD 0xA011 (R456). -/
def roleList (s : State) (role : Nat) : List (List Byte) := credentials (odGet s (if role = 2 then 0xA010 else 0xA011) 0).bytesOf

/-- The sessions and admin queues of a role whose entry is no longer as it was: closed and disabled (R458, R581). -/
def dropCredentials (role : Nat) (old : List (List Byte)) (s : State) : State :=
  let new := roleList s role
  let gone (r i : Nat) : Bool := r == role && old[i]? != new[i]?
  let s := (s.mgmt.sessions.filter fun x => gone x.role x.entry).foldl (fun s x => closeSession x.id s) s
  s.hif.admin.foldl (fun s p =>
    if p.2.enable && gone p.2.role p.2.keyidx then adminSettle p.1 (setAdmin s p.1 { p.2 with disabling := true }) else s) s

/-- A write of a credential list: every point lies on the curve; an installer may write OD 0xA010 once one key is listed. -/
def writeKeys (w : Writer) (idx : Nat) (v : OdVal) (s : State) : State :=
  let role := if idx = 0xA010 then 2 else 1
  let old := roleList s role
  odWrite w idx 0 v (role = 1 || w.role == 3 || !old.isEmpty) (fun s =>
    if (credentials v.bytesOf).all fun e => Config.onCurve (e.take 65) then (0, dropCredentials role old (odPut s idx 0 v)) else (0x06, s)) s

/-! ### Writing any entry -/

/-- A write that stores the value where the entry's own rule holds, and then acts. `bad` is the status where it does not. -/
def storeIf (w : Writer) (idx sub : Nat) (v : OdVal) (permit ok : Bool) (bad : Nat) (act : State → State) (s : State) : State :=
  odWrite w idx sub v permit (fun s => if ok then (0, act (odPut s idx sub v)) else (bad, s)) s

/-- A blob's regions of the cellar pool: aligned to 2 MiB, and holding every block in use (R388). -/
def poolOk (s : State) (v : OdVal) : Bool :=
  let new := cellarBlocks (odPut s 0x7040 0 v)
  (cellarRegions (odPut s 0x7040 0 v)).all (fun r => r.1 % 2 ^ 21 == 0) && s.serve.blocksUsed.all fun b => new.contains b

/-- Whether the value of a plain entry meets the rules of its own chapter beyond the range, with the status where it does not.
(DEDUCED: notes/assumptions/65.md.) -/
def settingRule (s : State) (idx sub n : Nat) : Nat :=
  let bad (b : Bool) (st : Nat) : Nat := if b then st else 0
  match idx, sub with
  | 0x4200, 0 => bad (!f32Lt n (odNum s 0x4201)) 0x06
  | 0x4201, 0 => bad (!f32Lt (odNum s 0x4200) n) 0x06
  | 0x5020, 0 => bad (decide (n ≥ odNum s 0x3020)) 0x06
  | 0x3020, 0 => bad (decide (n ≤ odNum s 0x5020)) 0x06
  | 0x7022, 0 => bad (n % 64 ≠ 0) 0x06
  | 0x7010, 1 => bad (decide (n % 256 > 3)) 0x06
  | 0x4230, 1 => bad (selArray n).isNone 0x06
  | 0x4330, 1 => bad (selArray n).isNone 0x06
  | 0x9050, 1 => bad (decide (n / 8 > 23)) 0x06
  | 0xA200, 1 => bad (n = 0 || decide (n ≥ s.mgmt.auditSeq)) 0x06
  | 0x2050, 0 => bad s.flash.af 0x06
  | 0x8070, 3 => bad (decide (n ≥ 2 ^ 13)) 0x02
  | 0x8071, 3 => bad (decide (n ≥ 2 ^ 13)) 0x02
  | 0x8072, 3 => bad (decide (n ≥ 2 ^ 13)) 0x02
  | 0x8073, 3 => bad (decide (n ≥ 2 ^ 13)) 0x02
  | _, _ => 0

/-- What follows at once from a setting's new value: the strength for the next fill and the scrub interval in their registers (R328,
R340); windows granted under a new WINHD; AUDSTATE Active under a new AUDMODE or partner
(R507), off under AUDMODE 0. -/
def settingEffect (idx sub : Nat) (s : State) : State :=
  if idx = 0x2045 then tryService s
  else if idx = 0x4319 then grantWindows s
  else if idx = 0x4314 then (List.range 16).foldl (fun s h => askOffline h s) s
  else if 0x5000 ≤ idx ∧ idx < 0x5008 ∧ (sub = 1 ∨ sub = 2) then
    fset s (dieB (idx - 0x5000)) F.MEMC_CTRL_STRENGTH_NEXT (strengthCode (odNum s idx sub)) (sub - 1)
  else if idx = 0x5010 then dieList.foldl (fun s d => setScrubInt d 1 (setScrubInt d 0 s)) s
  else if 0x8070 ≤ idx ∧ idx < 0x8074 ∧ (sub = 2 ∨ sub = 3) then odSet s idx 10 (if odNum s idx 2 = 0 then 0 else 1)
  else s

/-- A write of any entry (R554): those with an effect of their own go where their chapter says; every other one stores its value.
`test` and `assay` are the results of the tests that an unfence runs (Table 19.5). (DEDUCED: notes/assumptions/65.md.) -/
def odApply (w : Writer) (idx sub : Nat) (v : OdVal) (test assay : Bool) (s : State) : State :=
  match idx, sub with
  | 0x1060, 2 => writeAdmin w v s
  | 0x2040, 0 => writeModuleReset w v s
  | 0x4315, 0 => writeWindow w v s
  | 0x4340, 0 => if 1 ≤ v.nat % 256 ∧ v.nat % 256 ≤ 5 then writeActivity (v.nat % 256) w v s
                 else odWrite w 0x4340 0 v (dieState s (natBits v.nat 8 3) != 3) (fun s => (activityStatus s v.nat, s)) s
  | 0x6000, 0 => planWrite w v s
  | 0x6022, 0 => fabricResetCmd w v false 0 0 0 0 s
  | 0x6061, 0 => globalStart w v s
  | 0x7030, 2 => writeQueue w v s
  | 0x7040, 0 => storeIf w 0x7040 0 v true (poolOk s v) 0x06 id s
  | 0x7080, 2 => writeTenant w v s
  | 0x7081, 2 => writeQueueBudget w v s
  | 0x8002, 0 => writeAck w v s
  | 0x8020, 0 => writeTestMode w v s
  | 0x8030, 0 => writeForce w v s
  | 0x8040, 0 => writeUnfence w v test assay s
  | 0xA010, 0 => writeKeys w 0xA010 v s
  | 0xA011, 0 => writeKeys w 0xA011 v s
  | 0xA110, 0 => odWrite w 0xA110 0 v true (fun s => (0, { s with flash := { s.flash with kik := v.bytesOf } })) s
  | 0xF003, 0 => odWrite w 0xF003 0 v true accept s
  | 0xF100, 0 => remapResetArray w v s
  | 0xF110, 0 => remapReset w v s
  | _, _ =>
    if 0x3010 ≤ idx ∧ idx < 0x3018 ∧ sub = 0 then writeDieReset w (idx - 0x3010) v s
    else if 0x8070 ≤ idx ∧ idx < 0x8074 ∧ sub = 11 then writeAuditRequest w (idx - 0x8070) v s
    else if 0x7060 ≤ idx ∧ idx < 0x7064 ∧ sub = 0 then
      storeIf w idx 0 v (!s.serve.ctxs.any fun p => p.2.st != 0 && (queueOf s p.2.queue).binding == idx - 0x7060) true 0 id s
    else
      let r := settingRule s idx sub v.nat
      storeIf w idx sub v true (r = 0) r (settingEffect idx sub) s

end Sys2Proof.Machine
end

