-- ==== Sys2Proof/Machine/Views.lean ====
section
/-! DEFINITION. Reading the dictionary: the entries that show a part of the state rather than a value of their own
(spec/23_object_dictionary.md R553–R564 and the dictionary table of each chapter). -/

namespace Sys2Proof.Machine

/-! ### Values -/

/-- A number read. -/
def vNum (n : Nat) : Option OdVal := some (.num n)

/-- Bytes read. -/
def vBytes (b : List Byte) : Option OdVal := some (.bytes b)

/-- A record that may be absent, which reads with length 0 (R558). -/
def vRecord (r : Option (List Byte)) : Option OdVal := vBytes (r.getD [])

/-- A rational number read as FP32. -/
def vRat (q : Rat) : Option OdVal := vNum (ratF32 q)

/-- A rational number read as FP32; the quiet NaN where there is no measurement (R558). -/
def vMeas (q : Option Rat) : Option OdVal := vNum (match q with | some x => ratF32 x | none => 0x7FC00000)

/-- The greatest of a list. -/
def ratMax : List Rat → Option Rat
  | [] => none
  | a :: l => some (l.foldl max a)

/-! ### The directory (R560, R561) -/

/-- The type code of a type (R538). -/
def OdTy.code : OdTy → Nat
  | .u8 => 1 | .u16 => 2 | .u32 => 3 | .u64 => 4 | .f32 => 6 | .bool => 7 | .str => 8 | .blob => 9

/-- The directory's code of an access. -/
def OdAcc.code : OdAcc → Nat
  | .none => 0 | .ro => 1 | .rw => 2 | .wo => 3

/-- Whether a line of the entry map is an array: the 72 elements of a per-core array (R553); every other run of subindices is a record's. -/
def OdEnt.isArray (e : OdEnt) : Bool := e.subs == 72 && e.sub == 1

/-- A directory line (Table 23.3) for index and subindex. -/
def dirLine (e : OdEnt) (idx sub : Nat) : List Byte :=
  leBytes 2 idx ++ leBytes 1 sub ++ leBytes 1 e.ty.code ++ leBytes 1 (e.oper.code + 4 * e.inst.code + 16 * e.maker.code) ++
    leBytes 1 (b2n e.isArray + 2 * b2n e.mailbox + 4 * e.cls + 16 * b2n e.counter + 32 * b2n (e.run == 8)) ++
    leBytes 2 (if e.isArray then e.subs else 1)

/-- A line put in order of index and subindex. -/
def insertLine (k : Nat) (l : List Byte) : List (Nat × List Byte) → List (Nat × List Byte)
  | [] => [(k, l)]
  | x :: t => if k < x.1 then (k, l) :: x :: t else x :: insertLine k l t

/-- Every line of the directory, in order. -/
def dirLines (s : State) : List (List Byte) :=
  let all := (odMap.filter fun e => odPresent s e.idx).flatMap fun e =>
    (List.range e.run).flatMap fun i => (List.range (if e.isArray then 1 else e.subs)).map fun k =>
      (odKey (e.idx + i) (e.sub + k), dirLine e (e.idx + i) (e.sub + k))
  (all.foldl (fun t x => insertLine x.1 x.2 t) []).map fun p => p.2

/-- The directory (OD 0x1001). -/
def directory (s : State) : List Byte :=
  let l := dirLines s
  leBytes 1 0x10 ++ leBytes 1 0 ++ leBytes 2 l.length ++ leBytes 1 0x10 ++ leBytes 3 0 ++ leBytes 4 (runningRelease s) ++ leBytes 4 0 ++ l.flatten

/-! ### Identity, network, endpoint -/

/-- A partner's record (R542). -/
def Partner.record (p : Partner) : List Byte := p.payload ++ addrBytes p.addr ++ leBytes 8 p.first ++ leBytes 8 p.last

/-- An image slot's state, release and security version. -/
def slotView (x : ImgSlot) (k : Nat) : Option OdVal :=
  match k with
  | 1 => vNum x.st
  | 2 => if x.st = 1 then vNum x.release else vNum 0xFFFFFFFF
  | _ => if x.st = 1 then vNum x.secver else vNum 0xFF

/-- Whether the PCIe endpoint has a link to report: rails on, PERST_N released, not in D3hot. (DESIGN CHOICE: notes/assumptions/48.md.) -/
def linkSeen (s : State) : Bool := s.power.rails && fget s hubB F.HUB_SIGSTAT_PERST_IN == 0 && !s.hif.d3hot

/-- Identity and network entries (Tables 23.4, 22.5, 24.15). -/
def viewIdentity (s : State) (idx sub : Nat) : Option OdVal :=
  match idx, sub with
  | 0x1001, 0 => vBytes (directory s)
  | 0x1003, 1 => vNum (runningRelease s)
  | 0x1003, 2 => vNum (if inRecovery s then 0 else Config.imageHousekeeping (runningImage s).bytes % 2 ^ 32)
  | 0x1003, 3 => vNum (Config.identity (odKey idx sub) % 2 ^ 16)
  | 0x1004, 1 => vNum (Config.identity (odKey idx sub) % 2 ^ 16)
  | 0x1004, 2 => vNum (Config.identity (odKey idx sub) % 2 ^ 8)
  | 0x1004, 3 => vNum (Config.identity (odKey idx sub) % 2 ^ 8)
  | 0x1005, 0 => vNum (Config.identity (odKey idx sub) % 2 ^ 32)
  | 0x1007, 1 => vBytes (leBytes 48 (Config.sha384 Config.firmwareKey).toNat)
  | 0x1007, 2 => vBytes (leBytes 48 (Config.sha384 Config.patternKey).toNat)
  | 0x1009, 0 => vBytes (orderCode s)
  | 0x100A, 0 => vBytes (serial16 s)
  | 0x100B, 0 => vNum (hubTime s)
  | 0x100C, 0 => vNum (if inRecovery s then 8 else modState s)
  | 0x1020, 0 => vNum (s.flash.mac % 2 ^ 48)
  | 0x1028, 0 => vNum (b2n (plcaStatus s))
  | 0x1029, 0 => vBytes (addrBytes (ownAddr s))
  | 0x1030, 2 => vRecord ((s.mgmt.partners[odNum s 0x1030 1]?).map Partner.record)
  | 0x1031, 0 => vNum s.mgmt.partners.length
  | 0x1050, 7 => vNum s.flash.antiRollback
  | 0x1050, k => if 1 ≤ k ∧ k ≤ 3 then slotView s.flash.slotA k else if 4 ≤ k ∧ k ≤ 6 then slotView s.flash.slotB (k - 3) else none
  | 0x1061, 1 => if linkSeen s then vNum (1 + Config.pcieLink 1 (hubTime s) % 5) else none
  | 0x1061, 2 => if linkSeen s then vNum (2 ^ (Config.pcieLink 2 (hubTime s) % 5)) else none
  | 0x1061, 3 => if linkSeen s then vNum (128 * 2 ^ (Config.pcieLink 3 (hubTime s) % 3)) else none
  | 0x1061, 4 => if linkSeen s then vNum (128 * 2 ^ (Config.pcieLink 4 (hubTime s) % 6)) else none
  | 0x1061, 5 => vNum (s.hif.msix.filter fun p => !p.2.masked).length
  | 0x1062, 0 => vNum (s.hif.rings.filter fun p => p.2.isSome).length
  | 0x2010, 0 => if s.cap.vSeen then vRat (fget s hubB F.HUB_INSTAGE_VIN / 4) else none
  | 0x2011, 0 => if s.cap.seen then vRat (fget s hubB F.HUB_INSTAGE_IIN / 100) else none
  | 0x2012, 0 => if s.cap.seen then vRat (s.cap.a01 / 1000) else none
  | 0x2050, 0 => vNum (pCap s)
  | 0x2051, 0 => vNum (pPeak s)
  | _, _ => none

/-! ### Dies, cores, half clocks (Tables 23.5, 23.6, 12.8) -/

/-- The state of a physical core; the first that applies (Table 23.6). (DESIGN CHOICE: notes/assumptions/48.md.) -/
def coreState (s : State) (d c : Nat) : Nat :=
  if coreFenced s d c then 3
  else if !coreUsable s d c ∨ (dieOf s d).outRouters.contains c then 4
  else if (List.range 8).any fun k => fget s (dieB d) F.FLT_COVER_VALID k == 1 && fget s (dieB d) F.FLT_COVER_HOST k == c then 5
  else if (dieOf s d).rehome.any fun p => p.2 == c then 6
  else if (careOf s d c).test ≠ 0 ∨ (careOf s d c).assay ≠ 0 then 7
  else if coreEnabled s d c then 1
  else 2

/-- The clock of a half in GHz: 0.4 + 0.025 k (R312). -/
def halfClock (s : State) (d h : Nat) : Rat := (400 + 25 * (fget s (dieB d) F.MESH_HCLK_ACT h : Nat)) / 1000

/-- The fenced lanes of a die. -/
def lanesFenced (s : State) (d : Nat) : Nat := (coreList.map fun c => ((List.range 16).filter fun l => laneFenced s d c l).length).sum

/-- The remap entries in use of a stack. -/
def remapsUsed (s : State) (d st : Nat) : Nat := ((remapsOf s d st).filter fun e => e.isSome).length

/-- The link-status word of a port. -/
def linkWord (s : State) (d p : Nat) : Nat := (rget s (fkey (dieB d) F.LINK_STAT_STATE p)).toNat

/-- Entries of a die (`g` the base of the group, `d` the die). -/
def viewDie (s : State) (g d sub : Nat) : Option OdVal :=
  match g, sub with
  | 0x3000, 2 => vNum (coreList.filter fun c => coreEnabled s d c).length
  | 0x3000, 3 => vNum (coreList.filter fun c => coreUsable s d c && !coreEnabled s d c && !coreFenced s d c).length
  | 0x3070, 1 => vRat (halfClock s d 0)
  | 0x3070, 2 => vRat (halfClock s d 1)
  | 0x3070, 6 => vNum (fget s (dieB d) F.MESH_STAT_ROUT_OUT)
  | 0x3090, k => if 1 ≤ k ∧ k ≤ 72 then vNum (coreState s d (k - 1)) else none
  | 0x4300, 6 => vNum (((s.loom.lanePerm.filter fun p => p.1 / 16 / 72 == d).map fun p => p.2.retired.length).sum)
  | 0x4300, 7 => vNum (lanesFenced s d)
  | 0x5000, 6 => vNum (remapsUsed s d 0)
  | 0x5000, 7 => vNum (remapsUsed s d 1)
  | 0x6040, k => if 1 ≤ k ∧ k ≤ 6 then vNum (linkWord s d (k - 1)) else none
  | 0x8050, 1 => vNum (tget (fun _ => []) s.faults.dieLedgers d).length
  | 0x8050, 2 => vNum (coreList.filter fun c => coreFenced s d c).length
  | 0x8050, 3 => vNum (lanesFenced s d)
  | 0x8050, 4 => vNum ((List.range 8).filter fun k => fget s (dieB d) F.FLT_COVER_VALID k == 1).length
  | _, _ => none

/-! ### Accuracy (Tables 8.5, 8.8) and endurance (Table 9.10) -/

/-- The arrays of a die in a state, as keys. -/
def dieArrays (s : State) (d : Nat) (p : Arr → Bool) : List Nat :=
  (s.loom.arrs.filter fun q => q.1 / 512 / 72 == d && p q.2).map fun q => q.1

/-- The accuracy records of the Serving arrays of a die. -/
def servingAccs (s : State) (d : Nat) : List Acc := (dieArrays s d fun a => a.st == 2).map fun k => accOf s k

/-- The bounds of a list of records, in percent. -/
def boundsOf (l : List Acc) : List Rat := (l.filter fun x => x.bound != 0xFFFF).map fun x => (x.bound : Rat) / 1000

/-- Deviations in percent of the evaluated ones. -/
def devsOf (l : List Acc) : List Rat := (l.filter fun x => x.evaluated).map fun x => devPct x.dev2

/-- Enabled cores of a die that settle; 64 until its cores are chosen. -/
def settling (s : State) (d : Nat) : Nat :=
  let l := coreList.filter fun c => coreEnabled s d c
  if l.isEmpty then odNum s (0x4210 + d) 9 else (l.filter fun c => fget s (coreB d c) F.ASSY_WSTAT_SETTLING == 1).length

/-- Arrays of a die whose record meets a condition. -/
def accCount (s : State) (d : Nat) (p : Acc → Bool) : Nat :=
  (s.loom.accs.filter fun q => decide (q.1 / 36864 = d) && p q.2).length

/-- Accuracy entries of a die. -/
def viewAccuracy (s : State) (d sub : Nat) : Option OdVal :=
  let l := servingAccs s d
  match sub with
  | 1 => vMeas (ratMax (devsOf l))
  | 2 => vMeas (let v := devsOf l; if v.isEmpty then none else some (v.foldl (· + ·) 0 / ((v.length : Nat) : Rat)))
  | 3 => vMeas (ratMax (boundsOf l))
  | 4 => vNum (accCount s d fun x => x.trig)
  | 5 => vNum (accCount s d fun x => x.offdev)
  | 6 => vNum (accCount s d fun x => x.stale || x.lag)
  | 9 => vNum (settling s d)
  | 10 => vMeas (ratMax ((dieArrays s d fun a => [2, 3, 4].contains a.st).map fun k => (accOf s k).age))
  | _ => none

/-- Accuracy entries of the module. -/
def viewModuleAccuracy (s : State) (sub : Nat) : Option OdVal :=
  match sub with
  | 1 => vMeas (ratMax (boundsOf (dieList.flatMap fun d => servingAccs s d)))
  | 2 => vNum (dieList.map fun d => accCount s d fun x => x.trig).sum
  | 3 => vNum (dieList.map fun d => accCount s d fun x => x.offdev).sum
  | 4 => vNum (dieList.map fun d => accCount s d fun x => x.stale || x.lag).sum
  | 5 => vNum (dieList.filter fun d => decide (settling s d > 0)).length
  | _ => none

/-- An integer in two's complement over some bytes. -/
def twosBytes (n : Nat) (x : Int) : List Byte := leBytes n (toTwos (8 * n) x)

/-- The array accuracy record (Table 8.5) of the array that a selector names. -/
def accuracyRecord (s : State) (sel d c a : Nat) : List Byte :=
  let key := arrKey d c a
  let x := accOf s key
  let t := degrees (junction s d c)
  let flags := b2n (fget s (coreB d c) F.ASSY_WSTAT_SETTLING == 1) + 2 * b2n (x.stale || x.lag) + 4 * b2n (decide (t < 10)) + 8 * b2n (decide (t > 85)) +
    16 * fget s (coreB d c) F.LOOM_STAT_FRUGAL_ACT + 32 * b2n x.untraced + 64 * b2n x.trig + 128 * b2n x.gclamp + 256 * b2n x.oclamp +
    512 * b2n x.offdev + 1024 * b2n (!x.evaluated)
  leBytes 1 0x10 ++ leBytes 1 (arrOf s key).st ++ leBytes 2 flags ++ leBytes 4 sel ++
    leBytes 2 (if x.evaluated then min 0xFFFE (ratRne (devPct x.dev2 * 1000)).toNat else 0xFFFF) ++ leBytes 2 x.bound ++
    leBytes 4 (ratRne (x.rho * 2 ^ 24)).toNat ++ twosBytes 2 (ratRne (x.dom * 8)) ++ twosBytes 2 x.tev ++
    leBytes 4 (min (2 ^ 32 - 1) ((hubTime s - x.at_) / 1000)) ++ leBytes 4 (ratRne (x.age * 10)).toNat ++ leBytes 1 (min 255 x.trigCnt) ++ leBytes 3 0

/-- The endurance record (Table 9.10). -/
def enduranceRecord (s : State) (sel d c a : Nat) : List Byte :=
  let p := permOf s (arrKey d c a)
  leBytes 1 0x10 ++ leBytes 1 (arrOf s (arrKey d c a)).st ++ leBytes 1 p.remap.length ++ leBytes 1 p.reason ++ leBytes 4 sel ++
    leBytes 2 p.cyc ++ leBytes 6 0 ++ leBytes 8 p.lastProg

/-- A record of the array that a selector entry names. -/
def ofArray (s : State) (idx : Nat) (f : State → Nat → Nat → Nat → Nat → List Byte) : Option OdVal :=
  vRecord ((selArray (odNum s idx 1)).map fun a => f s (odNum s idx 1) a.1 a.2.1 a.2.2)

/-! ### Serving, models, tenants (Tables 14.14, 15.1, 15.3, 18.1, 18.9) -/

/-- The context record (Table 15.1) as OD 0x7031.02 shows it, with SEED zero. -/
def contextRecord (c : Ctx) : List Byte :=
  leBytes 1 0x10 ++ leBytes 1 c.st ++ leBytes 2 c.tenant ++ leBytes 4 (c.queue + 2 ^ 30 * b2n c.generate + 2 ^ 31 * b2n c.greedy) ++
    leBytes 4 c.length ++ leBytes 4 c.maxlen ++ leBytes 4 c.pending ++ leBytes 4 c.maxnew ++ leBytes 8 0 ++ leBytes 4 c.temp ++ leBytes 4 c.topp ++
    leBytes 1 c.topk ++ leBytes 1 (c.kmax + 16 * c.kcur) ++ leBytes 1 c.rej ++ leBytes 1 c.probe ++ leBytes 1 c.retry ++ leBytes 1 c.adapt.length ++
    leBytes 2 0 ++ ((List.range 8).flatMap fun i => leBytes 4 (c.adapt.getD i 0)) ++ leBytes 4 c.appr ++ leBytes 4 c.ttl ++ leBytes 6 c.kvva ++
    leBytes 2 0 ++ ((List.range 4).flatMap fun i => leBytes 4 (c.stop.getD i 0xFFFFFFFF)) ++ leBytes 8 c.stepnum ++ leBytes 8 c.touched

/-- The generation record (Table 14.14). -/
def generationRecord (s : State) (g : Gen) : List Byte :=
  let placed := g.tiles.filter fun t => !t.unplaced && (t.shared || [2, 3].contains (arrOf s t.arr).st)
  leBytes 1 0x10 ++ leBytes 1 g.st ++ leBytes 1 g.binding ++ leBytes 1 g.gen ++ leBytes 4 g.tiles.length ++ leBytes 4 placed.length ++
    leBytes 4 (g.tiles.filter fun t => t.unplaced).length ++ leBytes 4 g.missing.length ++
    leBytes 4 (s.serve.steps.filter fun t => t.binding == g.binding && t.gen == g.gen).length ++ (leBytes 48 g.digest).take 8

/-- Layers promoted above the floor, over all bindings (OD 0x4116). -/
def layersPromoted (s : State) : Nat :=
  (s.serve.binds.map fun p => (p.2.promo.filter fun q => decide (q.2.level > odNum s 0x4106)).length).sum

/-- The frames of a die's page groups that meet a condition. -/
def framesWhere (s : State) (d : Nat) (p : PageGroup → Bool) : Nat :=
  (s.serve.groups.map fun q => if q.2.die = d && p q.2 then q.2.frames else 0).sum

/-- Frame counts of a die (Table 16.9). -/
def viewFrames (s : State) (d sub : Nat) : Option OdVal :=
  match sub with
  | 1 => vNum (framesWhere s d fun g => decide (g.refs > 0))
  | 2 => vNum (framesWhere s d fun g => decide (g.refs > 1))
  | 3 => vNum (framesWhere s d fun g => g.freeing)
  | 4 => vNum (poolFrames s d - heldFrames s d)
  | _ => none

/-- Serving entries. -/
def viewServe (s : State) (idx sub : Nat) : Option OdVal :=
  match idx, sub with
  | 0x1060, 2 => vBytes (adminRecord (adminOf s (odNum s 0x1060 1)))
  | 0x4116, 0 => vNum (layersPromoted s)
  | 0x4220, k => viewModuleAccuracy s k
  | 0x4230, 2 => ofArray s 0x4230 accuracyRecord
  | 0x4308, 3 => vNum (untracedLanes s)
  | 0x4330, 2 => ofArray s 0x4330 enduranceRecord
  | 0x6010, 0 => vNum (fabricState s)
  | 0x6011, 1 => vNum (classCount s 1)
  | 0x6011, 2 => vNum (classCount s 2)
  | 0x6011, 3 => vNum (classCount s 3)
  | 0x6011, 4 => vNum (classCount s 4)
  | 0x6011, 6 => vNum (groupDepth s 0)
  | 0x6011, 7 => vNum (unreachedDies s).length
  | 0x7010, 2 => vRecord ((genOf s (odNum s 0x7010 1 % 256) (odNum s 0x7010 1 / 256)).map (generationRecord s))
  | 0x7030, 2 => vBytes (queueRecord (queueOf s (odNum s 0x7030 1)))
  | 0x7031, 2 => vBytes (contextRecord (ctxOf s (odNum s 0x7031 1)))
  | 0x7057, 0 => vNum s.serve.blocksUsed.length
  | 0x7080, 2 => vBytes (tenantRecord s (odNum s 0x7080 1))
  | 0x7080, 3 => vBytes (meterRecord s (odNum s 0x7080 1))
  | 0x7081, 2 => vBytes (leBytes 4 0 ++ budgetBytes (queueOf s (odNum s 0x7081 1)).next ++ leBytes 4 0)
  | 0x7081, 3 => vBytes (queueMeter s (odNum s 0x7081 1))
  | _, _ => none

/-! ### Faults, CPER, audit, thermal -/

/-- A GUID as it is stored: its first three fields little-endian, the last eight bytes in order. -/
def guid (a b c d : Nat) : List Byte := leBytes 4 a ++ leBytes 2 b ++ leBytes 2 c ++ (leBytes 8 d).reverse

/-- A number's decimal digits in ASCII. -/
def decimal (n : Nat) : List Byte := (Nat.toDigits 10 n).map fun c => BitVec.ofNat 8 c.toNat

/-- The FRU text of a CPER record (Table 20.8). -/
def fruText (r : LedgerRec) : List Byte :=
  let head := [0x50, 0x51, 0x38, 0x2D, 0x4D, 0x37, 0x36, 0x38, 0x20, 0x64].map fun n => BitVec.ofNat 8 n
  sliceBytes (head ++ (if r.die < 8 then decimal r.die else leBytes 1 0x48) ++ leBytes 1 0x20 ++ leBytes 1 0x69 ++ decimal r.inst) 0 20

/-- A CPER record's 264 bytes (R510, Table 20.8; the UEFI layout). (DESIGN CHOICE: notes/assumptions/24.md.) -/
def cperBytes (s : State) (c : CperRec) : List Byte :=
  let creator := guid 0x3F6A2C91 0x5B7E 0x4D08 0x9A41C2E7D05B1F36
  let notify := guid 0x8C0D5E12 0x7A34 0x4B6F 0xB1C26E09A7D4F385
  let kind := guid 0xD41B6E07 0x2C95 0x4F3A 0x8E601A7C93B5D248
  let header := leBytes 4 0x52455043 ++ leBytes 2 0x0100 ++ leBytes 4 0xFFFFFFFF ++ leBytes 2 1 ++ leBytes 4 c.severity ++ leBytes 4 1 ++
    leBytes 4 264 ++ leBytes 8 0 ++ serial16 s ++ leBytes 16 0 ++ creator ++ notify ++ leBytes 8 c.id ++ leBytes 4 0 ++ leBytes 8 0 ++ leBytes 12 0
  let descriptor := leBytes 4 200 ++ leBytes 4 64 ++ leBytes 2 0x0100 ++ leBytes 1 3 ++ leBytes 1 0 ++ leBytes 4 (1 + 2 * b2n c.prev) ++ kind ++
    serial16 s ++ leBytes 4 c.severity ++ fruText c.record
  let body := c.record.bytes ++ leBytes 8 c.formed ++ leBytes 8 c.step ++ leBytes 16 0
  header ++ descriptor ++ body

/-- An audit record's 96 bytes. -/
def AuditRec.bytes (r : AuditRec) : List Byte := r.bytes72 ++ (leBytes 48 r.chain.toNat).take 24

/-- A seal's 168 bytes (R461). -/
def Seal.bytes (x : Seal) : List Byte :=
  leBytes 1 0x10 ++ leBytes 7 0 ++ leBytes 8 x.seq ++ leBytes 8 x.time ++ leBytes 48 x.chain.toNat ++ leBytes 96 x.sig.toNat

/-- Fault, audit and key entries (Tables 19.10, 20.12, 18.8, 14.13). (DESIGN CHOICE: notes/assumptions/24.md.) -/
def viewFaults (s : State) (idx sub : Nat) : Option OdVal :=
  match idx, sub with
  | 0x8000, 1 => vNum s.faults.modLedger.length
  | 0x8000, 2 => vNum (unackCount s.faults.modLedger)
  | 0x8000, 3 => vNum (openClass s.faults.openFaults)
  | 0x8001, 2 => vRecord ((s.faults.modLedger.find? fun r => r.seq == odNum s 0x8001 1).map LedgerRec.bytes)
  | 0x8060, 2 => vRecord ((s.faults.cper.find? fun c => c.id == odNum s 0x8060 1).map (cperBytes s))
  | 0xA012, 0 => vBytes (leBytes 48 (Config.sha384 Config.makerKey).toNat)
  | 0xA111, 0 => vBytes (if s.flash.kik.isEmpty then [] else (leBytes 16 (Config.aes256 s.flash.kik (leBytes 16 0)).toNat).take 3)
  | 0xA112, 0 => vNum (s.models.keys.filter fun p => p.2.isSome).length
  | 0xA200, 2 => vRecord (((s.flash.auditLog ++ s.mgmt.auditBuf).find? fun r => r.seq == odNum s 0xA200 1).map AuditRec.bytes)
  | 0xA201, 0 => vNum (s.mgmt.auditSeq - 1)
  | 0xA202, 0 => vBytes (sliceBytes Config.auditPublicKey 0 97)
  | 0xA203, 2 => vRecord ((s.flash.seals.find? fun x => x.seq == odNum s 0xA203 1).map Seal.bytes)
  | 0xF000, 0 => vBytes (Config.fuseMap.take 4096)
  | _, _ => none

/-- The highest junction of a die, in °C; none before its first update. -/
def dieHottest (s : State) (d : Nat) : Option Rat :=
  if (thermOf s d).past.isEmpty then none else (hottest s d coreList).map fun p => degrees p.2

/-- Thermal entries of a die (Table 21.10). -/
def viewThermal (s : State) (d sub : Nat) : Option OdVal :=
  match sub with
  | 1 => vMeas (dieHottest s d)
  | 2 =>
    let l := (coreList.filter fun c => coreEnabled s d c).map fun c => degrees (junction s d c)
    vMeas (if (dieHottest s d).isNone ∨ l.isEmpty then none else some (l.foldl (· + ·) 0 / ((l.length : Nat) : Rat)))
  | 3 => vNum (24 - (thermOf s d).dropped.length)
  | 4 => vNum (fget s (dieB d) F.MESH_HCLK_ACT 0)
  | 5 => vNum (fget s (dieB d) F.MESH_HCLK_ACT 1)
  | 7 => vMeas (if s.cap.seen then some ((fget s hubB F.HUB_DIEPWR_POWER d : Nat) / 100) else none)
  | _ => none

/-- Half-dies of the module, as die and half. -/
def halfDies : List (Nat × Nat) := dieList.flatMap fun d => [(d, 0), (d, 1)]

/-- Thermal entries of the module. -/
def viewModuleThermal (s : State) (idx sub : Nat) : Option OdVal :=
  match idx, sub with
  | 0x9040, 1 => vMeas (ratMax (dieList.filterMap fun d => dieHottest s d))
  | 0x9040, 2 => vNum (halfDies.filter fun h => fget s (dieB h.1) F.MESH_HCLK_CAUSE h.2 != 0).length
  | 0x9040, 3 => vNum (s.care.wins.filter fun p => p.2.st == 3).length
  | 0x9050, 2 =>
    let v := odNum s 0x9050 1
    let x := thermOf s (v % 8)
    if x.past.isEmpty ∨ dieState s (v % 8) ≠ 2 then vBytes []
    else vBytes (leBytes 4 (ratF32 (degrees (tget (fun _ => 0) x.sens (v / 8)))) ++ leBytes 1 (b2n (!x.dropped.contains (v / 8))) ++ leBytes 3 0)
  | _, _ => none

/-! ### Reading any entry -/

/-- Whether a measurement of a die comes from its housekeeping controller (R559). (DESIGN CHOICE: notes/assumptions/48.md.) -/
def fromController (g sub : Nat) : Bool :=
  (g == 0x4210 && [1, 2, 3, 10].contains sub) || (g == 0x3070 && [1, 2].contains sub) || (g == 0x9030 && [1, 2].contains sub) ||
    (g == 0x4300 && sub == 4)

/-- The entries of per-die groups. -/
def viewGroup (s : State) (idx sub : Nat) : Option OdVal :=
  let d := idx % 8
  let g := idx - d
  if fromController g sub && dieState s d != 2 then vNum 0x7FC00000
  else
    match g with
    | 0x4210 => viewAccuracy s d sub
    | 0x7070 => viewFrames s d sub
    | 0x9030 => viewThermal s d sub
    | _ => viewDie s g d sub

/-- The count that subindex 0x00 of a record or an array holds: its elements, or its highest subindex (R553). -/
def highestSub (idx : Nat) : Nat :=
  odMap.foldl (fun a e => if decide (e.idx ≤ idx) && decide (idx < e.idx + e.run) then max a (e.sub + e.subs - 1) else a) 0

/-- The value that an entry reads as. -/
def odRead (s : State) (idx sub : Nat) : OdVal :=
  if sub = 0 && odRecord idx then .num (highestSub idx)
  else
    match viewIdentity s idx sub with
    | some v => v
    | none =>
      match viewServe s idx sub with
      | some v => v
      | none =>
        match viewFaults s idx sub with
        | some v => v
        | none =>
          match viewModuleThermal s idx sub with
          | some v => v
          | none => (viewGroup s idx sub).getD (odGet s idx sub)

/-- The type code of an entry; U8 for subindex 0x00 of a record or an array. -/
def odTypeCode (idx sub : Nat) : Nat := match odFind idx sub with | some e => e.ty.code | none => 1

/-- A value in the encoding of Table 0.4: a number in its type's size, a STR or BLOB with its length in front. -/
def odEncode (idx sub : Nat) (v : OdVal) : List Byte :=
  match odFind idx sub with
  | none => leBytes 1 v.nat
  | some e =>
    match e.ty with
    | .str => leBytes 2 v.bytesOf.length ++ v.bytesOf
    | .blob => leBytes 4 v.bytesOf.length ++ v.bytesOf
    | t => leBytes (t.bits / 8) v.nat

/-- The value that an encoding spells for an entry; a value of the wrong shape where its length is not the type's, so that check 5 of
R554 fails. -/
def odDecode (idx sub : Nat) (b : List Byte) : OdVal :=
  match odFind idx sub with
  | none => .bytes b
  | some e =>
    match e.ty with
    | .str => if b.length ≥ 2 ∧ b.length = 2 + leAt b 0 2 then .bytes (b.drop 2) else .num 0
    | .blob => if b.length ≥ 4 ∧ b.length = 4 + leAt b 0 4 then .bytes (b.drop 4) else .num 0
    | t => if b.length = t.bits / 8 then .num (leNat b) else .bytes b

end Sys2Proof.Machine
end

