-- ==== Sys2Proof/Machine/Manage.lean ====
section
/-! DEFINITION. The messages of CMP and the mailbox, sessions, discovery, and the segment's own events
(spec/22_management_network.md R535–R549, spec/18_tenants_and_metering.md R456–R458, spec/23_object_dictionary.md R554). -/

namespace Sys2Proof.Machine

/-! ### A request (Table 22.1) -/

/-- A request as received: transport (1 CMP, 2 mailbox), source address and port (0 on the mailbox), message. -/
structure Req where
  tr : Nat
  addr : Nat
  port : Nat
  bytes : List Byte
  deriving DecidableEq, Repr

/-- The header's fields, and the payload. -/
def Req.typ (r : Req) : Nat := leAt r.bytes 1 1
/-- SIGNED. -/
def Req.signed (r : Req) : Bool := leAt r.bytes 2 1 % 2 == 1
/-- SESSION. -/
def Req.session (r : Req) : Nat := leAt r.bytes 4 4
/-- SEQ. -/
def Req.seq (r : Req) : Nat := leAt r.bytes 8 4
/-- LEN. -/
def Req.len (r : Req) : Nat := leAt r.bytes 12 2
/-- The payload. -/
def Req.payload (r : Req) : List Byte := sliceBytes r.bytes 16 r.len

/-- The answer to a request: status, SESSION and payload of the response, the state, and whether a module reset follows the response. -/
structure Answer where
  status : Nat
  session : Nat
  payload : List Byte
  s : State
  reset : Bool
  deriving DecidableEq, Repr

/-- An answer of a status alone. -/
def Req.says (r : Req) (st : Nat) (s : State) : Answer := ⟨st, r.session, [], s, false⟩

/-- Whether the header's encoding is correct beyond its version (R537, R538). -/
def Req.formed (r : Req) : Bool :=
  decide (1 ≤ r.typ) && decide (r.typ ≤ 0x0B) && decide (leAt r.bytes 2 1 < 2) && leAt r.bytes 3 1 == 0 && leAt r.bytes 14 2 == 0 &&
  r.bytes.length == 16 + r.len + (if r.signed then 64 else 0) && decide (r.len ≤ if r.tr = 1 then 1372 else 2032) &&
  !(r.tr == 2 && r.signed)

/-- The entry that a READ or WRITE names: index and subindex. -/
def Req.index (r : Req) : Nat := leAt r.payload 0 2
/-- The subindex. -/
def Req.sub (r : Req) : Nat := leAt r.payload 2 1

/-- Whether the boot ROM serves a request in Recovery (R548). -/
def Req.recovery (r : Req) : Bool :=
  match r.typ with
  | 1 | 3 | 4 | 5 | 8 | 9 | 10 => true
  | 6 => decide (0x1000 ≤ r.index) && decide (r.index ≤ 0x1FFF)
  | 7 => r.index == 0x2040
  | _ => false

/-! ### Sessions (R457, R458, R540, R543) -/

/-- The public key of a role's list entry. -/
def keyOf (s : State) (role entry : Nat) : Option (List Byte) :=
  if role = 3 then some Config.makerKey else ((roleList s role)[entry]?).map fun e => e.take 65

/-- Whether a request's signature verifies under a session's credential. -/
def Req.verified (r : Req) (x : Session) (s : State) : Bool :=
  match keyOf s x.role x.entry with
  | some k => Config.ecdsaP256 k (Config.sha256 (r.bytes.take (16 + r.len))) (sliceBytes r.bytes (16 + r.len) 64)
  | none => false

/-- Whether a session is the requester's: its transport, and over CMP the address and port of its OPEN. -/
def Session.bound (x : Session) (r : Req) : Bool := x.tr == r.tr && (r.tr == 2 || (x.addr == r.addr && x.port == r.port))

/-- Whether a CMP request must carry SIGNED (R543). -/
def Req.needsSignature (r : Req) : Bool :=
  r.tr == 1 && ((r.session != 0 && r.typ != 9) || (r.typ == 6 && !(decide (0x1000 ≤ r.index) && decide (r.index ≤ 0x1FFF))))

/-- The nonce held for a requester. -/
def nonceFor (s : State) (r : Req) : Option Nonce := s.mgmt.nonces.find? fun n => n.tr == r.tr && n.addr == r.addr && n.port == r.port

/-- The requester's nonce spent. -/
def dropNonce (r : Req) (s : State) : State :=
  { s with mgmt := { s.mgmt with nonces := s.mgmt.nonces.filter fun n => !(n.tr == r.tr && n.addr == r.addr && n.port == r.port) } }

/-- Whether a transport's challenges are held. -/
def held (s : State) (tr : Nat) : Bool := if tr = 1 then s.mgmt.holdCmp else s.mgmt.holdMb

/-- The failures in a row of a transport, set. -/
def setFails (tr n : Nat) (s : State) : State :=
  { s with mgmt := if tr = 1 then { s.mgmt with failsCmp := n } else { s.mgmt with failsMb := n } }

/-- A transport's challenges held, or not. -/
def setHold (tr : Nat) (h : Bool) (s : State) : State :=
  { s with mgmt := if tr = 1 then { s.mgmt with holdCmp := h } else { s.mgmt with holdMb := h } }

/-- The entry index of a role: 0xFF for the maker. -/
def keyIndex (role entry : Nat) : Nat := if role = 3 then 0xFF else entry

/-- An authentication failure (R457, R459): audited, counted, and the fifth in a row holds the transport's challenges. -/
def authFail (r : Req) (role entry : Nat) (s : State) : State :=
  let s := odInc (auditAdd ⟨4, role, r.tr, false, 0x07, 0, 0, 0, 0, keyIndex role entry, 0, [], [], 0⟩ s) 0xA022 0
  let n := (if r.tr = 1 then s.mgmt.failsCmp else s.mgmt.failsMb) + 1
  if n ≥ 5 then setHold r.tr true (setFails r.tr 0 s) else setFails r.tr n s

/-- CHALREQ: a nonce bound to the requester, role and entry replaces its earlier one. (DESIGN CHOICE: notes/assumptions/8.md.) -/
def serveChalreq (r : Req) (s : State) : Answer :=
  let role := leAt r.payload 0 1
  if r.len ≠ 3 ∨ role = 0 ∨ role > 3 then r.says 0x02 s
  else if held s r.tr then r.says 0x0B s
  else
    let (v, s) := takeRandom s
    let v := v % 2 ^ 256
    let s := dropNonce r s
    let s := { s with mgmt := { s.mgmt with nonces := s.mgmt.nonces ++ [⟨r.tr, r.addr, r.port, role, leAt r.payload 1 2, v⟩] } }
    ⟨0, 0, leBytes 32 v, s, false⟩

/-- An unused session identifier, other than 0, from a random number: the first free one at or after it.
(DESIGN CHOICE: notes/assumptions/8.md.) -/
def freshId (l : List Nat) (v : Nat) : Nat :=
  ((List.range (l.length + 2)).map fun k => (v + k) % 2 ^ 32).find? (fun x => x != 0 && !l.contains x) |>.getD 1

/-- What an OPEN's signature is taken over. -/
def openMessage (s : State) (n : Nonce) : List Byte :=
  leBytes 32 n.value ++ serial16 s ++ leBytes 1 n.role ++ leBytes 1 n.tr ++ leBytes 2 n.entry

/-- Whether an OPEN proves the role: its live nonce names the role and entry, and the signature verifies. -/
def openProves (r : Req) (s : State) : Bool :=
  match nonceFor s r, keyOf s (leAt r.payload 0 1) (leAt r.payload 1 2) with
  | some n, some k =>
    n.role == leAt r.payload 0 1 && n.entry == leAt r.payload 1 2 && Config.ecdsaP256 k (Config.sha256 (openMessage s n)) (sliceBytes r.payload 4 64)
  | _, _ => false

/-- OPEN: the nonce is spent; a proof opens a session, anything else is a failure. -/
def serveOpen (r : Req) (s : State) : Answer :=
  let role := leAt r.payload 0 1
  let entry := leAt r.payload 1 2
  if r.len ≠ 68 ∨ role = 0 ∨ role > 3 ∨ leAt r.payload 3 1 ≠ 0 then r.says 0x02 s
  else if role = 1 ∧ inRecovery s then r.says 0x04 s
  else
    let ok := openProves r s
    let s := dropNonce r s
    if !ok then r.says 0x07 (authFail r role entry s)
    else
      let s := setFails r.tr 0 s
      if s.mgmt.sessions.length ≥ 16 then r.says 0x0F s
      else
        let (v, s) := takeRandom s
        let id := freshId (s.mgmt.sessions.map Session.id) (v % 2 ^ 32)
        let x : Session := ⟨id, role, r.tr, keyIndex role entry, r.addr, r.port, none, [], none, none⟩
        let s := countSessions { s with mgmt := { s.mgmt with sessions := s.mgmt.sessions ++ [x] } }
        let s := auditAdd ⟨3, role, r.tr, false, 0, 0, 0, 0, 0, keyIndex role entry, id, [], [], 0⟩ s
        ⟨0, id, leBytes 4 (odNum s 0xA020), s, false⟩

/-! ### READ and WRITE (R544, R545, R554) -/

/-- The session's snapshot and staged value set. -/
def setTransfer (id : Nat) (snap staged : Option (Nat × Nat × Nat × List Byte)) (s : State) : State :=
  modSession id (fun x => { x with snap := snap, staged := staged }) s

/-- Whether an access code lets a role read. -/
def OdAcc.reads : OdAcc → Bool
  | .ro | .rw => true
  | _ => false

/-- Checks 1 to 4 of R554 on a READ: 0 where all hold. Role 0 is none. -/
def readGate (s : State) (role tr idx sub : Nat) : Nat :=
  match odFind idx sub with
  | none =>
    if sub = 0 && odRecord idx && odPresent s idx then (if role = 0 ∧ ¬ (0x1000 ≤ idx ∧ idx ≤ 0x1FFF) then 0x04 else 0) else 0x05
  | some e =>
    if !odPresent s idx then 0x05
    else if e.mailbox && tr != 2 then 0x0A
    else if role = 0 then (if 0x1000 ≤ idx ∧ idx ≤ 0x1FFF ∧ e.oper.reads then 0 else 0x04)
    else if (e.access role).reads then 0 else 0x04

/-- The bytes of a READ response: type code, total length, and up to 1,024 bytes from the offset. -/
def readPayload (code : Nat) (b : List Byte) (off : Nat) : List Byte :=
  leBytes 1 code ++ leBytes 3 0 ++ leBytes 4 b.length ++ (b.drop off).take 1024

/-- READ: a snapshot at offset 0, its further bytes at higher offsets. -/
def serveRead (r : Req) (x : Option Session) (s : State) : Answer :=
  let drop (s : State) : State := match x with | some y => setTransfer y.id none none s | none => s
  let off := leAt r.payload 4 4
  if r.len < 3 then r.says 0x02 (drop s)
  else
    let g := readGate s ((x.map Session.role).getD 0) r.tr r.index r.sub
    if g ≠ 0 then r.says g (drop s)
    else if r.len ≠ 8 ∨ leAt r.payload 3 1 ≠ 0 then r.says 0x02 (drop s)
    else if off = 0 then
      let code := odTypeCode r.index r.sub
      let b := odEncode r.index r.sub (odRead s r.index r.sub)
      let s := match x with | some y => setTransfer y.id (some (r.index, r.sub, code, b)) none s | none => s
      ⟨0, r.session, readPayload code b 0, s, false⟩
    else
      match x with
      | none => r.says 0x0E s
      | some y =>
        match y.snap with
        | some (i, k, code, b) =>
          if i = r.index ∧ k = r.sub then
            let s := setTransfer y.id y.snap none s
            if off < b.length then ⟨0, r.session, readPayload code b off, s, false⟩ else r.says 0x0E s
          else r.says 0x0E (drop s)
        | none => r.says 0x0E (drop s)

/-- Whether a total length is one that the entry's type can have (R545). -/
def totalOk (idx sub total : Nat) : Bool :=
  match odFind idx sub with
  | some e =>
    match e.ty with
    | .str => decide (2 ≤ total)
    | .blob => decide (4 ≤ total)
    | t => total == t.bits / 8
  | none => true

/-- A write rejected before its value is whole: audited, with the hub's notice. (DEDUCED: notes/assumptions/22.md.) -/
def rejectWrite (w : Writer) (idx sub st : Nat) (new : List Byte) (s : State) : State :=
  respond st [] (auditWrite w idx sub st (odGet s idx sub) (.bytes new) (hubNotice (writeHead w) s))

/-- A value complete: the write of the whole value (R545), and the notice where OD 0x1028 turns false with it. A module reset waits
for the response. -/
def applyWrite (w : Writer) (idx sub : Nat) (v : OdVal) (test assay : Bool) (s : State) : State × Bool :=
  if idx = 0x2040 ∧ sub = 0 then
    let permit := modState s != 6 && decide (bootPhase s ≥ 3)
    (odWrite w 0x2040 0 v permit accept s, odCheck w 0x2040 0 v permit s == 0 && !s.sys.resetting)
  else
    let was := plcaStatus s
    let s := odApply w idx sub v test assay s
    (if was && !plcaStatus s then hubNotice 0 s else s, false)

/-- WRITE: segments staged from FIRST on; LAST applies the value. -/
def serveWrite (r : Req) (x : Session) (test assay : Bool) (s : State) : Answer :=
  let w : Writer := ⟨x.role, r.tr, x.entry, x.id⟩
  let fl := leAt r.payload 3 1
  let off := leAt r.payload 4 4
  let total := leAt r.payload 8 4
  let seg := r.payload.drop 12
  let s0 := setTransfer x.id none none s
  let g := odGate w r.index r.sub s
  let bad (st : Nat) : Answer := r.says st (rejectWrite w r.index r.sub st seg s0)
  if r.len < 3 then r.says 0x02 s0
  else if g ≠ 0 then bad g
  else if r.len < 12 ∨ fl > 3 ∨ seg.length > 1024 then bad 0x02
  else
    let first := fl % 2 == 1
    let sofar : Option (List Byte) :=
      if first then (if off = 0 then some [] else none)
      else match x.staged with
        | some (i, k, t, b) => if i = r.index ∧ k = r.sub ∧ t = total ∧ off = b.length then some b else none
        | none => none
    match sofar with
    | none => bad 0x0E
    | some b =>
      let b := b ++ seg
      if (first && !totalOk r.index r.sub total) || decide (b.length > total) then bad 0x02
      else if fl < 2 then r.says 0 (setTransfer x.id none (some (r.index, r.sub, total, b)) s)
      else if b.length ≠ total then bad 0x02
      else
        let t := applyWrite w r.index r.sub (odDecode r.index r.sub b) test assay s0
        ⟨t.1.mgmt.resp.status, r.session, [], t.1, t.2⟩

/-! ### Firmware update (R546, R547) -/

/-- The slot's image digest as an audit record holds it. -/
def slotDigest (s : State) (k : Nat) : List Byte := (leBytes 48 (Config.sha384 (slotOf s k).bytes).toNat).take 16

/-- The audit record of an upload command: a write of INDEX 0x1050, SUB slot + 1. -/
def auditUpload (x : Session) (k st : Nat) (digested : Bool) (old new : List Byte) (s : State) : State :=
  auditAdd ⟨if st = 0 then 1 else 2, x.role, x.tr, digested, st, 0, 0, 0x1050, k + 1, x.entry, x.id, sliceBytes old 0 16, sliceBytes new 0 16, 0⟩ s

/-- The slot that runs. -/
def runningSlot (s : State) : Nat := fget s hubB F.HUB_BOOTSTAT_SLOT

/-- Whether the module is in Service or Stopped. -/
def servingOrStopped (s : State) : Bool := modState s == 2 || modState s == 4

/-- The largest image, in bytes. -/
def imageMax : Nat := 32 * 2 ^ 20

/-- The status of FWBEGIN (R546). -/
def fwbeginStatus (r : Req) (x : Session) (s : State) : Nat :=
  let k := leAt r.payload 0 1
  if x.role = 1 then 0x04
  else if r.len ≠ 8 ∨ k > 1 ∨ leAt r.payload 1 3 ≠ 0 ∨ leAt r.payload 4 4 > imageMax then 0x02
  else if servingOrStopped s ∧ k = runningSlot s then 0x0C
  else
    match s.sys.upload with
    | some (_, _, _, id) => if id ≠ x.id then 0x09 else 0
    | none => 0

/-- FWBEGIN: an upload of the session is abandoned; the slot's header is erased and the upload begins.
(DESIGN CHOICE: notes/assumptions/46.md.) -/
def serveFwbegin (r : Req) (x : Session) (s : State) : Answer :=
  let k := leAt r.payload 0 1
  let st := fwbeginStatus r x s
  let old := slotDigest s k
  if st ≠ 0 then r.says st (auditUpload x k st true old old s)
  else
    let s := modSlot k (fun _ => ⟨2, 0, 0, 0, false, []⟩) (abandonUpload x.id s)
    let s := { s with sys := { s.sys with upload := some (k, leAt r.payload 4 4, 0, x.id), uploadBad := false } }
    r.says 0 (auditUpload x k 0 true old (slotDigest s k) s)

/-- The session's own upload: slot, length, next offset. -/
def ownUpload (s : State) (x : Session) : Option (Nat × Nat × Nat) :=
  match s.sys.upload with
  | some (k, len, next, id) => if id = x.id then some (k, len, next) else none
  | none => none

/-- FWDATA: the next segment is written. (DESIGN CHOICE: notes/assumptions/46.md.) -/
def serveFwdata (r : Req) (x : Session) (s : State) : Answer :=
  let b := r.payload.drop 4
  if x.role = 1 then r.says 0x04 s
  else if r.len < 4 ∨ b.length > 1024 then r.says 0x02 s
  else
    match ownUpload s x with
    | none => r.says 0x0C s
    | some (k, len, next) =>
      if leAt r.payload 0 4 ≠ next then r.says 0x0E s
      else if next + b.length > len then r.says 0x02 s
      else
        let s := { s with sys := { s.sys with upload := some (k, len, next + b.length, x.id) } }
        if s.sys.flashBad ≠ 0 then r.says 0 (spendFlash { s with sys := { s.sys with uploadBad := true } })
        else r.says 0 (modSlot k (fun i => { i with bytes := i.bytes ++ b }) s)

/-- The check detail of FWEND (R546): 0 where the image is accepted. The length is looked at first.
(DESIGN CHOICE: notes/assumptions/9.md.) -/
def imageDetail (s : State) (b : List Byte) (len : Nat) : Nat :=
  let n := b.length - 96
  if b.length ≠ len ∨ b.length < 97 then 4
  else if !Config.ecdsaP384 Config.firmwareKey (Config.sha384 (b.take n)) (b.drop n) then 1
  else if leAt b 0 1 / 16 ≠ 1 then 2
  else if Config.imageSecver b < s.flash.antiRollback ∨ Config.imageSecver b > 63 then 3
  else 0

/-- FWEND: the image is checked as the boot ROM does; one accepted makes its slot valid. (DESIGN CHOICE: notes/assumptions/46.md.) -/
def serveFwend (r : Req) (x : Session) (s : State) : Answer :=
  if x.role = 1 then r.says 0x04 s
  else if r.len ≠ 0 then r.says 0x02 s
  else
    match ownUpload s x with
    | none => r.says 0x0C s
    | some (k, len, _) =>
      let b := (slotOf s k).bytes
      let det := if s.sys.uploadBad ∨ s.sys.flashBad ≠ 0 then 5 else imageDetail s b len
      let s := if s.sys.flashBad ≠ 0 then spendFlash s else s
      let st := if det = 0 then 0 else 0x0D
      let s := { s with sys := { s.sys with upload := none, uploadBad := false } }
      let s := modSlot k (fun i => if det = 0 then ⟨1, Config.imageRelease b % 2 ^ 32, 1, Config.imageSecver b, true, b⟩ else { i with st := 0 }) s
      ⟨st, r.session, leBytes 1 det, auditUpload x k st true (slotDigest s k) (slotDigest s k) s, false⟩

/-- FWCOMMIT: the anti-rollback count rises to the running image's security version (R547). -/
def serveFwcommit (r : Req) (x : Session) (s : State) : Answer :=
  let k := runningSlot s
  let old := leBytes 1 s.flash.antiRollback
  let st := if x.role = 1 then 0x04
    else if r.len ≠ 0 then 0x02
    else if servingOrStopped s && fget s hubB F.HUB_BOOTSTAT_SLOTFALLBACK == 0 && odNum s 0x2042 == k then 0 else 0x0C
  if st ≠ 0 then r.says st (auditUpload x k st false old old s)
  else
    let n := max s.flash.antiRollback (slotOf s k).secver
    let s := { s with flash := { s.flash with antiRollback := n } }
    ⟨0, r.session, leBytes 1 n, auditUpload x k 0 false old (leBytes 1 n) s, false⟩

/-! ### Serving a message (R537–R540, R543) -/

/-- A request whose checks of session, signature and SEQ have passed. -/
def serveChecked (r : Req) (x : Option Session) (test assay : Bool) (s : State) : Answer :=
  match r.typ, x with
  | 6, _ => serveRead r x s
  | _, none => r.says 0x03 s
  | 5, some y => if r.len ≠ 0 then r.says 0x02 s else r.says 0 (closeSession y.id s)
  | 7, some y => serveWrite r y test assay s
  | 8, some y => serveFwbegin r y s
  | 9, some y => serveFwdata r y s
  | 10, some y => serveFwend r y s
  | _, some y => serveFwcommit r y s

/-- The message of an answer to a request: TYPE with bit 7 set. -/
def Req.response (r : Req) (a : Answer) : List Byte := cmpMessage (r.typ % 128 + 128) a.status a.session r.seq a.payload

/-- A request within a session, its signature checked: the SEQ rules of R540, and the response stored. -/
def serveInSession (r : Req) (x : Session) (test assay : Bool) (s : State) : List Byte × State × Bool :=
  if x.lastSeq = some r.seq then (x.lastResp, s, false)
  else if (match x.lastSeq with | some q => decide (r.seq < q) | none => false) then (r.response (r.says 0x08 s), s, false)
  else
    let s := modSession x.id (fun y => { y with lastSeq := some r.seq }) s
    let a := serveChecked r (sessionOf s x.id) test assay s
    let m := r.response a
    (m, modSession x.id (fun y => { y with lastResp := m }) a.s, a.reset)

/-- A request unsigned or unverified: 0x07, counted in OD 0x1040.04. -/
def signatureFails (r : Req) (s : State) : Answer := r.says 0x07 (odInc s 0x1040 4)

/-- A request that opens no state of its own: the response message, the state, and no reset. -/
def Req.plain (r : Req) (a : Answer) : List Byte × State × Bool := (r.response a, a.s, a.reset)

/-- A message of either transport served: the response message (empty for none), the state after it, and whether a module reset follows
the response. A SOLICIT over the mailbox is answered with ANNOUNCE; over CMP its ANNOUNCE follows after the delay of R541. -/
def serveMessage (r : Req) (test assay : Bool) (s : State) : List Byte × State × Bool :=
  if leAt r.bytes 0 1 / 16 ≠ 1 then r.plain (r.says 0x01 s)
  else if r.typ = 2 then ([], s, false)
  else if !r.formed then r.plain (r.says 0x02 s)
  else if inRecovery s ∧ !r.recovery then r.plain (r.says 0x0C s)
  else if r.typ = 1 ∨ r.typ = 3 ∨ r.typ = 4 then
    if r.session ≠ 0 then r.plain (r.says 0x02 s)
    else if r.typ = 3 then r.plain (serveChalreq r s)
    else if r.typ = 4 then r.plain (serveOpen r s)
    else if r.len ≠ 0 then r.plain (r.says 0x02 s)
    else if r.tr = 2 then
      let s := countAnnounce s
      (cmpMessage 2 0 0 r.seq (announcePayload s), s, false)
    else ([], { s with mgmt := { s.mgmt with solicitors := s.mgmt.solicitors ++ [(r.addr, r.port, r.seq)] } }, false)
  else if r.session ≠ 0 then
    match s.mgmt.sessions.find? fun x => x.id == r.session && x.bound r with
    | none => r.plain (r.says 0x03 s)
    | some x =>
      if (r.needsSignature && !r.signed) || (r.signed && !r.verified x s) then r.plain (signatureFails r s)
      else serveInSession r x test assay s
  else if r.typ ≠ 6 then r.plain (r.says 0x03 s)
  else if r.needsSignature && !r.signed then r.plain (signatureFails r s)
  else if r.signed then r.plain (r.says 0x03 s)
  else r.plain (serveChecked r none test assay s)

/-! ### Discovery (R541, R542) -/

/-- The table of partners: at most 32. -/
def partnersMax : Nat := 32

/-- A partner entered: known serials are updated, a full table loses the entry received least recently. -/
def enterPartner (l : List Partner) (p : Partner) : List Partner :=
  if l.any fun q => q.serial == p.serial then
    l.map fun q => if q.serial == p.serial then { p with first := q.first } else q
  else if l.length < partnersMax then l ++ [p]
  else
    let oldest := l.foldl (fun m q => min m q.last) p.last
    let k := (l.findIdx? fun q => q.last == oldest).getD 0
    l.set k p

/-- An ANNOUNCE from another node (R542): its partner entry; the module's own serial is a notice. -/
def announceReceived (addr : Nat) (m : List Byte) (s : State) : State :=
  let p := sliceBytes m 16 64
  if leAt m 0 1 / 16 ≠ 1 ∨ leAt m 12 2 ≠ 64 ∨ m.length ≠ 80 then s
  else if p.take 16 = serial16 s then hubNotice 0 s
  else
    let q : Partner := ⟨p.take 16, p, addr, hubTime s, hubTime s, leAt p 44 4⟩
    { s with mgmt := { s.mgmt with partners := enterPartner s.mgmt.partners q } }

/-! ### Datagrams (R536, R540) -/

/-- Whether a datagram is dropped (R536, R537, Table 22.8). -/
def dropsDatagram (s : State) (g : Dgram) : Bool :=
  !isLinkLocal g.addr || g.hop != 255 || !g.plain || !g.sumOk || g.dport != cmpPort || odNum s 0x102A != 1 || decide (g.bytes.length < 16)

/-- A datagram served: dropped and counted, or counted, served, and its response sent. An ANNOUNCE has no response.
(DEDUCED: notes/assumptions/44.md.) -/
def serveDatagram (g : Dgram) (test assay : Bool) (s : State) : State :=
  if !cmpUp s then s
  else if dropsDatagram s g then odInc s 0x1040 3
  else
    let s := odInc s 0x1040 1
    if leAt g.bytes 1 1 = 2 ∧ leAt g.bytes 0 1 / 16 = 1 then announceReceived g.addr g.bytes s
    else
      let (m, s, reset) := serveMessage ⟨1, g.addr, g.port, g.bytes⟩ test assay s
      let s := if m.isEmpty then s else sendCmp g.addr g.port m s
      if reset then moduleReset s else s

/-- A datagram of a row: its TYPE is the row's, or one that no row has (a message too short, or a reserved TYPE).
(DEDUCED: notes/assumptions/44.md.) -/
def rowTakes (t : Nat) (g : Dgram) : Bool :=
  let y := leAt g.bytes 1 1
  y == t || decide (g.bytes.length < 2) || y == 0 || decide (y > 0x0B)

/-- A datagram of a row served; one whose TYPE is another row's is that row's command. (DEDUCED: notes/assumptions/44.md.) -/
def datagram (t : Nat) (g : Dgram) (test assay : Bool) (s : State) : State := if rowTakes t g then serveDatagram g test assay s else s

/-- CMP_CHALREQ (R457): a nonce is returned. -/
def execCmpChalreq (g : Dgram) (s : State) : Host.Outcome State Fault Refusal := .next (datagram 3 g false false s)
/-- CMP_OPEN (R457): a session opens. -/
def execCmpOpen (g : Dgram) (s : State) : Host.Outcome State Fault Refusal := .next (datagram 4 g false false s)
/-- CMP_CLOSE (R458): a session ends. -/
def execCmpClose (g : Dgram) (s : State) : Host.Outcome State Fault Refusal := .next (datagram 5 g false false s)
/-- CMP_READ (R545): bytes of an entry from a snapshot. -/
def execCmpRead (g : Dgram) (s : State) : Host.Outcome State Fault Refusal := .next (datagram 6 g false false s)
/-- CMP_WRITE (R545): a segment of a value; `test` and `assay` are the results of the tests that an unfence runs. -/
def execCmpWrite (g : Dgram) (test assay : Bool) (s : State) : Host.Outcome State Fault Refusal := .next (datagram 7 g test assay s)
/-- FWBEGIN (R546): an upload begins. -/
def execFwbegin (g : Dgram) (s : State) : Host.Outcome State Fault Refusal := .next (datagram 8 g false false s)
/-- FWDATA (R546): the next segment of an image. -/
def execFwdata (g : Dgram) (s : State) : Host.Outcome State Fault Refusal := .next (datagram 9 g false false s)
/-- FWEND (R546): the image is checked. -/
def execFwend (g : Dgram) (s : State) : Host.Outcome State Fault Refusal := .next (datagram 10 g false false s)
/-- FWCOMMIT (R547): the anti-rollback count rises. -/
def execFwcommit (g : Dgram) (s : State) : Host.Outcome State Fault Refusal := .next (datagram 11 g false false s)
/-- CMP_SOLICIT (R541): an ANNOUNCE to the solicitor is scheduled. -/
def execCmpSolicit (g : Dgram) (s : State) : Host.Outcome State Fault Refusal := .next (datagram 1 g false false s)
/-- ANNOUNCE_RECEIVED (R542): the partner table. -/
def execAnnounceReceived (g : Dgram) (s : State) : Host.Outcome State Fault Refusal := .next (datagram 2 g false false s)

/-- ANNOUNCE_JITTER_EXPIRY (R541): the unicast ANNOUNCE that a solicitor waits for is sent, with its SEQ. -/
def announceTo (addr port : Nat) (s : State) : State :=
  match s.mgmt.solicitors.find? fun x => x.1 == addr && x.2.1 == port with
  | none => s
  | some x =>
    let s := { s with mgmt := { s.mgmt with solicitors := s.mgmt.solicitors.erase x } }
    if cmpUp s && !s.mgmt.dadFailed then
      let s := countAnnounce s
      sendCmp addr port (cmpMessage 2 0 0 x.2.2 (announcePayload s)) s
    else s

/-- ANNOUNCE_JITTER_EXPIRY (R541). -/
def execAnnounceJitterExpiry (addr port : Nat) (s : State) : Host.Outcome State Fault Refusal := .next (announceTo addr port s)

/-- ANNOUNCE_PERIOD_TICK (R541): ANNOUNCE to the all-nodes group. -/
def execAnnouncePeriodTick (s : State) : Host.Outcome State Fault Refusal := .next (announce s)

/-- PARTNER_EXPIRY (R542): 3 × ANNPERIOD has passed without an ANNOUNCE of the serial. -/
def execPartnerExpiry (serial : List Byte) (s : State) : Host.Outcome State Fault Refusal :=
  .next { s with mgmt := { s.mgmt with partners := s.mgmt.partners.filter fun p => p.serial != serial } }

/-- NONCE_EXPIRY (R457): a requester's nonce is no longer valid. -/
def execNonceExpiry (tr addr port : Nat) (s : State) : Host.Outcome State Fault Refusal := .next (dropNonce ⟨tr, addr, port, []⟩ s)

/-- CHALLENGE_HOLD_EXPIRY (R457): a transport takes challenges again. -/
def execChallengeHoldExpiry (tr : Nat) (s : State) : Host.Outcome State Fault Refusal := .next (setHold tr false s)

/-- SESSION_IDLE_EXPIRY (R458): SESSIDLE has passed without a message of the session. -/
def execSessionIdleExpiry (id : Nat) (s : State) : Host.Outcome State Fault Refusal := .next (closeSession id s)

/-! ### The segment's own events (R535, R536) -/

/-- DAD_DONE (R536): a failure is a notice, counted, and stops CMP. -/
def dadDone (ok : Bool) (s : State) : State :=
  if !s.mgmt.dadRun then s
  else
    let s := { s with mgmt := { s.mgmt with dadRun := false, dadFailed := !ok } }
    if ok then s else odInc (hubNotice 0 s) 0x1040 5

/-- DAD_DONE (R536). -/
def execDadDone (ok : Bool) (s : State) : Host.Outcome State Fault Refusal := .next (dadDone ok s)

/-- DAD_RETRY_EXPIRY (R536): 10 s after a failure, detection is repeated. -/
def execDadRetryExpiry (s : State) : Host.Outcome State Fault Refusal :=
  .next { s with mgmt := { s.mgmt with dadRun := s.mgmt.dadRun || s.mgmt.dadFailed } }

/-- A frame other than CMP that the module answers with. -/
def answerFrame (kind addr : Nat) (b : List Byte) (s : State) : State :=
  if cmpUp s then { s with mgmt := { s.mgmt with tx := some ⟨kind, addr, 0, b⟩ } } else s

/-- NEIGHBOR_SOLICITATION (R536): one for the module's address is answered with an advertisement of it. -/
def execNeighborSolicitation (addr target : Nat) (s : State) : Host.Outcome State Fault Refusal :=
  .next (if target = ownAddr s then answerFrame 1 addr (addrBytes target) s else s)

/-- ECHO_REQUEST (R536): the reply carries the request's data. -/
def execEchoRequest (addr : Nat) (data : List Byte) (s : State) : Host.Outcome State Fault Refusal := .next (answerFrame 2 addr data s)

/-- The beacons' presence changed; OD 0x1028 turning false is one notice (R535). -/
def setBeacon (on : Bool) (s : State) : State :=
  let t := { s with mgmt := { s.mgmt with beacon := on } }
  if plcaStatus s && !plcaStatus t then hubNotice 0 t else t

/-- PLCA_BEACON_LOSS (R535): the module falls back to CSMA/CD. -/
def execPlcaBeaconLoss (s : State) : Host.Outcome State Fault Refusal := .next (setBeacon false s)

/-- PLCA_BEACON_REGAINED (R535). -/
def execPlcaBeaconRegained (s : State) : Host.Outcome State Fault Refusal := .next (setBeacon true s)

/-! ### The mailbox (R549) -/

/-- Whether the mailbox is served: once phase 0x03 has brought it up, and in Recovery. -/
def mailboxUp (s : State) : Bool := s.power.rails && decide (bootPhase s ≥ 4)

/-- The response put before the host: response buffer, RLEN, DONE, and the interrupt that IRQEN asks for. -/
def mailboxDone (m : List Byte) (s : State) : State :=
  let s := { s with hif := { s.hif with mbResp := m ++ s.hif.mbResp.drop m.length } }
  let s := fset (fset s hubB F.HUB_MBSTAT_RLEN m.length) hubB F.HUB_MBSTAT_DONE 1
  if fget s hubB F.HUB_MBCTRL_IRQEN = 1 then hifCause F.HUB_HIFCAUSE_MBDONE s else s

/-- A write to HUB_MBCTRL with GO set (R549, Table 22.6): a reserved LEN discards the write; GO while DONE reads 1 is ignored; a LEN below 16
is answered with RLEN 0. -/
def mailboxGo (v : Nat) (test assay : Bool) (s : State) : State :=
  let len := v % 4096
  if s.hif.d3hot ∨ fget s hubB F.HUB_SIGSTAT_PERST_IN = 1 then s
  else if len > 2048 then hubNotice 0x0800 s
  else
    let s := fset (fset s hubB F.HUB_MBCTRL_LEN len) hubB F.HUB_MBCTRL_IRQEN (v / 2 ^ 17 % 2)
    if v / 2 ^ 16 % 2 = 0 ∨ !mailboxUp s ∨ fget s hubB F.HUB_MBSTAT_DONE = 1 ∨ fget s hubB F.HUB_MBSTAT_BUSY = 1 then s
    else if len < 16 then mailboxDone [] s
    else
      let (m, s, reset) := serveMessage ⟨2, 0, 0, sliceBytes s.hif.mbReq 0 len⟩ test assay s
      let s := mailboxDone m s
      if reset then moduleReset s else s

/-- MAILBOX_GO (R549): the value written; `test` and `assay` as for CMP_WRITE. -/
def execMailboxGo (v : Nat) (test assay : Bool) (s : State) : Host.Outcome State Fault Refusal := .next (mailboxGo v test assay s)

end Sys2Proof.Machine
end

