-- ==== Sys2Proof/Machine/Control.lean ====
section
/-! DEFINITION. Writes to the control spaces and through BAR0, and the hourly write of the counters since manufacture
(spec/00_scope.md R5–R9, the register tables of each chapter, spec/24_host_interface.md R570, R571,
spec/23_object_dictionary.md R557). -/

namespace Sys2Proof.Machine

/-! ### Which register, and who may write it -/

/-- The control space of an offset in a die's space or the hub's (R5). -/
def spaceOf (die off : Nat) : Space := if die = hubDie then .hub else if off < 72 * 65536 then .core else .die

/-- The offset within the space: in a core's window, or in the die's or hub's space. -/
def spaceOff (die off : Nat) : Nat := if spaceOf die off = .core then off % 65536 else off

/-- The key base of the space. -/
def spaceBase (die off : Nat) : Nat := if die = hubDie then hubB else if off < 72 * 65536 then coreB die (off / 65536) else dieB die

/-- The fields of the register at an offset of a space, each with its copy's number. -/
def fieldsAt (sp : Space) (o : Nat) : List (Fld × Nat) :=
  (regMap.filter fun f => f.space = sp ∧ f.off ≤ o ∧ (o - f.off) % f.stride = 0 ∧ (o - f.off) / f.stride < f.copies).map fun f =>
    (f, (o - f.off) / f.stride)

/-- The source that may write a register: the writer of its first writable field, else of its first field. -/
def writerOf (l : List (Fld × Nat)) : Option RegWriter :=
  match (l.filter fun p => p.1.acc != .ro).head? with
  | some p => some p.1.writer
  | none => l.head?.map fun p => p.1.writer

/-- Whether a source (0 housekeeping controller, 1 hub, 2 host through BAR0) is a register's. (DEDUCED: notes/assumptions/50.md.) -/
def mayWrite (src : Nat) (w : RegWriter) : Bool :=
  match w with
  | .housekeeping => src == 0
  | .hub => src == 1
  | .hubOrHost => src == 1 || src == 2

/-- Whether a word places a reserved encoding in a writable field (R9). -/
def reservedIn (l : List (Fld × Nat)) (v : Nat) : Bool :=
  l.any fun p => (p.1.acc == .rw || p.1.acc == .wo) && p.1.bad.any fun r =>
    decide (r.1 ≤ natBits v p.1.lo p.1.width) && decide (natBits v p.1.lo p.1.width ≤ r.2)

/-- The notice of a write that is discarded, by the block it addressed (R475). (DESIGN CHOICE: notes/assumptions/23.md.) -/
def writeNotice (die off : Nat) (s : State) : State :=
  let o := spaceOff die off
  match spaceOf die off with
  | .hub => hubNotice off s
  | .core =>
    if (0x1000 ≤ o ∧ o < 0x2000) ∨ o = 0x10 then notice 0x0400 die (off / 65536) off s else coreNotice die (off / 65536) off s
  | .die =>
    if o < 0x01001000 then notice 0x0500 die 0 off s
    else if o < 0x01001800 then notice 0x0600 die 0 off s
    else if o < 0x01002000 then notice 0x0700 die 0 off s
    else if o < 0x01003000 then notice 0x0800 die 0 off s
    else if o < 0x01004000 then notice 0x0B00 die 0 off s
    else notice 0x0A00 die 0 off s

/-! ### What a write stores (Table 0.3) -/

/-- One field written by its access code: RW set, W1C cleared where the word has 1; RO, WO and RC hold no written value. -/
def writeField (b v : Nat) (p : Fld × Nat) (s : State) : State :=
  let x := natBits v p.1.lo p.1.width
  match p.1.acc with
  | .rw => fset s b p.1 x p.2
  | .w1c => let cur := fget s b p.1 p.2; fset s b p.1 (cur - (cur &&& x)) p.2
  | _ => s

/-- Every field of a register written. (DEDUCED: notes/assumptions/50.md.) -/
def writeFields (b v : Nat) (l : List (Fld × Nat)) (s : State) : State := l.foldl (fun s p => writeField b v p s) s

/-! ### Registers whose write acts -/

/-- Whether an offset of a core's window is a slot register, and of which slot (R253, R423). -/
def slotRegister (o : Nat) : Option Nat :=
  if 0x100 ≤ o ∧ o < 0x180 then some ((o - 0x100) / 0x20) else if 0x3200 ≤ o ∧ o < 0x3240 then some ((o - 0x3200) / 0x10) else none

/-- The windows of a slot as its registers hold them. -/
def slotWindows (s : State) (d c t : Nat) : SlotCfg :=
  let b := coreB d c
  ⟨0, 0, 0, fget s b F.CORE_TWIN_BASE t, fget s b F.CORE_TWIN_LEN t, fget s b F.CORE_TPAT_BASE t, fget s b F.CORE_TPAT_LEN t, 0, 0, false, 0, 0, 0, 0,
    4, 0, 0, 0, 0, [], []⟩

/-- VALID = 1 written to an empty slot's CORE_TCTL (R253, R254): its data slots start empty (R286), and its task is one of no step.
(DEDUCED: notes/assumptions/20.md.) -/
def validateByWrite (d c t v : Nat) (s : State) : State :=
  let b := coreB d c
  let w := slotWindows s d c t
  if !windowsOk s d c t w || !patternOk s d c t w then writeNotice d (c * 65536 + 0x100 + 0x20 * t) s
  else
    let s := fset (fset (fset s b F.CORE_TCTL_TENANT (v / 65536) t) b F.CORE_TCTL_PREEMPT (v / 2) t) b F.CORE_TCTL_ENDED 0 t
    let s := (List.range 32).foldl (fun s i => modDslot d c t i (fun z => { z with fills := 0, full := false, landed := 0 }) s) s
    takeSlot d c (emptySlots d c t (openWin d c t 0 (4096 * w.tlen) (fset (fset s b F.CORE_TCTL_SUSPENDED 0 t) b F.CORE_TCTL_VALID 1 t)))

/-- A write to CORE_TCTL (R253, R262): a VALID slot takes a clear of VALID or a pre-emption request and no other change; an empty slot
takes its TENANT and PREEMPT, and VALID where its windows meet R254. -/
def writeTctl (d c t v : Nat) (s : State) : State :=
  let b := coreB d c
  if fget s b F.CORE_TCTL_VALID t = 1 then
    if v % 2 = 0 then clearSlot d c t s
    else if v / 2 % 2 = 1 ∧ v / 65536 = fget s b F.CORE_TCTL_TENANT t then preempt d c t s
    else writeNotice d (c * 65536 + 0x100 + 0x20 * t) s
  else if v % 2 = 1 then validateByWrite d c t v s
  else fset (fset s b F.CORE_TCTL_TENANT (v / 65536) t) b F.CORE_TCTL_PREEMPT (v / 2) t

/-- A data slot's definition written through CORE_DSIDX, while its task slot's VALID is 0 (R300). A LEN of 0 is reserved while the slot is
defined (Table 11.8). -/
def writeDsdef (d c o v : Nat) (s : State) : State :=
  let b := coreB d c
  let t := fget s b F.CORE_DSIDX_TASK
  let len := natBits v 0 21
  let empty := o = 0x310C ∧ len = 0 ∧ (dslotOf s d c t (fget s b F.CORE_DSIDX_DSLOT)).defined
  if fget s b F.CORE_TCTL_VALID t = 1 ∨ len % 16 ≠ 0 ∨ empty then writeNotice d (c * 65536 + o) s
  else
    modCore s d c fun x => { x with ds := tmod (fun _ => DSlot.off) x.ds (32 * t + fget s b F.CORE_DSIDX_DSLOT) fun y =>
      if o = 0x3108 then { y with base := len, defined := natBit v 31 } else { y with len := len } }

/-- A write to a register of a core's window by its own writer (Table 10.11 and the core blocks of the other chapters). -/
def writeCore (d c o v : Nat) (l : List (Fld × Nat)) (s : State) : State :=
  let b := coreB d c
  if o = 0x2044 then idataWrite d c v s
  else if o = 0x260C then writeDrift d c (natBits v 0 8) (natBits v 8 8) s
  else if o = 0x0004 then requestClock d c (natBits v 0 6) s
  else if o = 0x3108 ∨ o = 0x310C then writeDsdef d c o v s
  else if (o = 0x3400 ∧ v % 2 = 0 ∨ o = 0x2400 ∧ !natBit v 3) ∧ odNum s 0x8021 ≠ 1 then writeNotice d (c * 65536 + o) s
  else
    match slotRegister o with
    | some t =>
      if (o - 0x100) % 0x20 = 0 ∧ o < 0x180 then writeTctl d c t v s
      else if fget s b F.CORE_TCTL_VALID t = 1 then writeNotice d (c * 65536 + o) s
      else writeFields b v l s
    | none => writeFields b v l s

/-- A write to LINK_CTRL (R429, Table 17.10): EN = 0 holds the port Down, EN rising starts training, RETRAIN starts a full retrain. -/
def writeLinkCtrl (d p v : Nat) (l : List (Fld × Nat)) (s : State) : State :=
  let was := fget s (dieB d) F.LINK_CTRL_EN p
  let s := writeFields (dieB d) v l s
  if v % 2 = 0 then (if was = 1 then linkDown d p s else s)
  else if was = 0 then startTraining d p s
  else if natBit v 1 then retrain d p s
  else s

/-- A route table entry written through LINK_RIDX (R442). -/
def writeRoute (d v : Nat) (s : State) : State :=
  let k := (d * 2 + fget s (dieB d) F.LINK_RIDX_TBL) * 2 ^ 14 + fget s (dieB d) F.LINK_RIDX_DEST
  let r : Route := ⟨natBits v 0 3, natBit v 3, natBits v 4 3, natBit v 7⟩
  { s with fab := { s.fab with routes := tset (fun _ => Route.none) s.fab.routes k r } }

/-- One occurrence of a code forced at the die in test mode (R491, Table 19.8). A code that no source has is reserved (R475). -/
def writeFltForce (d v : Nat) (l : List (Fld × Nat)) (s : State) : State :=
  if (sourceOf (natBits v 0 16)).isNone then writeNotice d 0x01003028 s
  else
    let s := writeFields (dieB d) v l s
    if natBit v 31 && odNum s 0x8021 == 1 && placeOk (natBits v 0 16) d (fget s (dieB d) F.FLT_FORCEI_INSTANCE) then forceFault (natBits v 0 16) d (fget s (dieB d) F.FLT_FORCEI_INSTANCE) s else s

/-- A write to a die-level register by its own writer. -/
def writeDie (d o v : Nat) (l : List (Fld × Nat)) (s : State) : State :=
  let b := dieB d
  if o = 0x01000004 ∨ o = 0x01000008 then
    let h := (o - 0x01000004) / 4
    requestHalf d h (natBits v 0 6) (fget s b F.MESH_HCLK_CAUSE h) s
  else if o = 0x0100000C then
    if natBit v 31 then fset (fset s b F.MESH_SEAM_PEAK_W2E 0) b F.MESH_SEAM_PEAK_E2W 0 else s
  else if o = 0x01001804 then
    if natBit v 17 then invalStart d (natBits v 0 16) (natBit v 16) (fget s b F.MEMC_INVVA_PAGE) (fget s b F.MEMC_INVLEN_PAGES) s else s
  else if o = 0x01001814 then
    let c := natBits v 0 7
    let u := natBits v 7 3
    if natBits v 10 2 = 1 then xrespResume d c u s else xrespFail d c u s
  else if 0x01002000 ≤ o ∧ o < 0x01002300 ∧ (o - 0x01002000) % 0x80 = 0 then writeLinkCtrl d ((o - 0x01002000) / 0x80) v l s
  else if o = 0x01002408 then writeRoute d v s
  else if o = 0x01003028 then writeFltForce d v l s
  else writeFields b v l s

/-- A write to a register of hub control space by a source that may. -/
def writeHub (o v : Nat) (test assay : Bool) (l : List (Fld × Nat)) (s : State) : State :=
  if o = 0x0800 then mailboxGo v test assay s
  else if o = 0x2000 then hifEnable (natBit v 0) s
  else writeFields hubB v l s

/-! ### BAR0 (R570, R571) -/

/-- Four bytes written into the request buffer; discarded while BUSY reads 1. -/
def writeRequest (o v : Nat) (s : State) : State :=
  if fget s hubB F.HUB_MBSTAT_BUSY = 1 then s
  else
    let r := s.hif.mbReq ++ List.replicate (2048 - s.hif.mbReq.length) 0
    { s with hif := { s.hif with mbReq := r.take (o - 0x1000) ++ leBytes 4 v ++ r.drop (o - 0x1000 + 4) } }

/-- A word of the MSI-X table written: address, data, and the mask, whose clearing sends a pending message (R583). -/
def writeMsix (o v : Nat) (s : State) : State :=
  let k := (o - 0x10000) / 16
  let e := tget (fun _ => MsixEnt.off) s.hif.msix k
  let put (x : MsixEnt) : State := { s with hif := { s.hif with msix := tset (fun _ => MsixEnt.off) s.hif.msix k x } }
  match (o - 0x10000) / 4 % 4 with
  | 0 => put { e with addr := e.addr / 2 ^ 32 * 2 ^ 32 + v }
  | 1 => put { e with addr := e.addr % 2 ^ 32 + v * 2 ^ 32 }
  | 2 => put { e with data := v }
  | _ => if v % 2 = 0 then msixUnmask k s else put { e with masked := true }

/-! ### The command -/

/-- A write of a word to a register (R5, R6, R9): an unassigned offset ignores it; a wrong source or a reserved encoding discards it whole
with a notice; else it acts. -/
def writeRegister (src die off v : Nat) (test assay : Bool) (s : State) : State :=
  let o := spaceOff die off
  let l := fieldsAt (spaceOf die off) o
  match writerOf l with
  | none => s
  | some w =>
    if !mayWrite src w || reservedIn l v then writeNotice die off s
    else
      match spaceOf die off with
      | .core => writeCore die (off / 65536) o v l s
      | .die => writeDie die o v l s
      | .hub => writeHub o v test assay l s

/-- A host's write through BAR0 (R570, R571): nothing in D3hot or under PERST_N; aligned 32-bit writes only. -/
def hostWrite (off size v : Nat) (test assay : Bool) (s : State) : State :=
  if s.hif.d3hot ∨ fget s hubB F.HUB_SIGSTAT_PERST_IN = 1 then s
  else if size ≠ 4 ∨ off % 4 ≠ 0 then hubNotice off s
  else if 0x1000 ≤ off ∧ off < 0x1800 then writeRequest off v s
  else if 0x10000 ≤ off ∧ off < 0x18000 then writeMsix off v s
  else if off ≥ 0x10000 then s
  else
    match writerOf (fieldsAt .hub off) with
    | some .hubOrHost => writeRegister 2 hubDie off v test assay s
    | _ => hubNotice off s

/-- REGISTER_WRITE: `src` 0 the housekeeping controller, 1 the hub, 2 the host; the control space of a die or (15) the hub's; nothing
answers with the rails off. (DEDUCED: notes/assumptions/50.md.) -/
def registerWrite (src die off size v : Nat) (test assay : Bool) (s : State) : State :=
  let v := v % 2 ^ 32
  if !s.power.rails ∨ (8 ≤ die ∧ die ≠ hubDie) then s
  else if src = 2 ∧ die = hubDie then hostWrite off size v test assay s
  else writeRegister src die off v test assay s

/-- REGISTER_WRITE (R6); `test` and `assay` as for CMP_WRITE, for a mailbox message that the write submits. -/
def execRegisterWrite (src die off size v : Nat) (test assay : Bool) (s : State) : Host.Outcome State Fault Refusal :=
  .next (registerWrite src die off size v test assay s)

/-! ### The hourly write (R557) -/

/-- Microseconds of an hour. -/
def hourUs : Nat := 3600 * 10 ^ 6

/-- The time in Service since the last tick counted, whole hours to OD 0x1006, and the counters since manufacture written to flash.
(DEDUCED: notes/assumptions/65.md.) -/
def hourTick (us : Nat) (s : State) : State :=
  if !s.power.rails then s
  else
    let n := s.sys.hoursBase + us
    let s : State := { s with sys := { s.sys with hoursBase := n % hourUs } }
    flashMfg (odInc s 0x1006 0 (n / hourUs))

/-- MANUFACTURE_COUNTER_HOUR_TICK (R557): `us` is the time in Service since the last tick. -/
def execManufactureCounterHourTick (us : Nat) (s : State) : Host.Outcome State Fault Refusal := .next (hourTick us s)

end Sys2Proof.Machine
end

