-- ==== Sys2Proof/Machine/Reread.lean ====
section
/-! DEFINITION. The re-read of an uncorrectable folio, and what it means for who asked for the folio
(spec/13_memory_and_translation.md R337, R338). -/

namespace Sys2Proof.Machine

/-- A command that read poisoned data fails: nothing more is delivered, and the stitch check fails. A channel records PROGRESS. -/
def poisonUnit (d c u : Nat) (s : State) : State :=
  match runOf s d c u with
  | none => s
  | some r => failRun d c u r (if u < 4 then noteProgress d c u r.prog s else s)

/-- A folio's user answered with poisoned data. Poisoned data is written nowhere. -/
def poisonUser (d st : Nat) (who : MemUser) (s : State) : State :=
  match who with
  | .unit e c u => poisonUnit e c u s
  | .redo e c => failRedo e c s
  | .answer x => answerRead d x true [] s
  | .read _ _ => memAnswer d st none s
  | .merge _ => s
  | .none => s

/-- A folio's user served from the re-read, whose data is `l`; a walk and a redo end by their own rows. -/
def serveUser (d st phi : Nat) (l : List Byte) (who : MemUser) (s : State) : State :=
  match who with
  | .unit e c u =>
    (match runOf s e c u with
    | some r => if r.wait == .folio then continueRun e c u { r with wait := .go } s else s
    | none => s)
  | .redo _ _ => s
  | .answer x => readFor d x s
  | .read off len => dramReadCmd d off len s
  | .merge new => mergeInto d st phi l new s
  | .none => s

/-- FOLIO_REREAD: the oldest re-read due decodes, an F1; or the folio is uncorrectable: its user receives poisoned data, a remap entry is
written, and an F2 starts the die reset. A scrubbed folio that is unallocated is remapped and zeroed, an F1. With no entry free
the stack is unusable, an F2. (DEDUCED: notes/assumptions/59.md.) -/
def folioReread (d st : Nat) (alloc : Bool) (s : State) : State :=
  match (memcOf s d st).reread with
  | [] => s
  | (phi, src, who) :: rest =>
    let s := modMemc d st (fun m => { m with reread := rest }) s
    match fetchFolio d st phi src s with
    | (some (l, _), s) =>
      let s := odInc (finc s (dieB d) F.MEMC_CNT_REREAD_COUNT 1 st) (0x5000 + d) 4
      serveUser d st phi l who (closeF1 0x0601 d st (fault 0x0601 d st (memDetail s d st phi) s))
    | (none, s) =>
      let s := poisonUser d st who (odInc (finc s (dieB d) F.MEMC_CNT_UNCORR_COUNT 1 st) (0x5000 + d) 5)
      let det := memDetail s d st phi
      match freeRemap s d st with
      | none => fault 0x0605 d st det s
      | some e =>
        let s := putRemap d st e phi s
        if src = 2 ∧ !alloc then
          let a := dramAddr d (2048 * folioAt st phi)
          closeF1 0x0603 d st (fault 0x0603 d st det (mzero s a (a + 2048)))
        else fault 0x0604 d st det s

/-- FOLIO_REREAD (R337). -/
def execFolioReread (d stack : Nat) (alloc : Bool) (s : State) : Host.Outcome State Fault Refusal := .next (folioReread d stack alloc s)

end Sys2Proof.Machine
end

