-- ==== Sys2Proof/Machine/Dispatch.lean ====
section
/-! DEFINITION. Which meaning each command has. -/

namespace Sys2Proof.Machine

/-- The effect of one command on everything but the queue. -/
def exec (i : Instr) (s : State) : Host.Outcome State Fault Refusal :=
  match i with
  | .menHighRecognised => Sys2Proof.Machine.execMenHighRecognised s
  | .menLowRecognised => Sys2Proof.Machine.execMenLowRecognised s
  | .stopNAsserted => Sys2Proof.Machine.execStopNAsserted s
  | .orderlyStopCoreTimeout d c => Sys2Proof.Machine.execOrderlyStopCoreTimeout d c s
  | .stoppedEntry => Sys2Proof.Machine.execStoppedEntry s
  | .stopNReleased => Sys2Proof.Machine.execStopNReleased s
  | .inputLoss => Sys2Proof.Machine.execInputLoss s
  | .holdupCoreStopTimeout d c => Sys2Proof.Machine.execHoldupCoreStopTimeout d c s
  | .holdupFlashDone => Sys2Proof.Machine.execHoldupFlashDone s
  | .inputOvervoltage => Sys2Proof.Machine.execInputOvervoltage s
  | .inputSwitchReclose => Sys2Proof.Machine.execInputSwitchReclose s
  | .inputLow vin => Sys2Proof.Machine.execInputLow vin s
  | .inputHigh vin => Sys2Proof.Machine.execInputHigh vin s
  | .startPermitted => Sys2Proof.Machine.execStartPermitted s
  | .prechargeBypassClose => Sys2Proof.Machine.execPrechargeBypassClose s
  | .prechargeRearm => Sys2Proof.Machine.execPrechargeRearm s
  | .standbyDomainPowerUp => Sys2Proof.Machine.execStandbyDomainPowerUp s
  | .standbyDomainLoss => Sys2Proof.Machine.execStandbyDomainLoss s
  | .secondaryRailFault => Sys2Proof.Machine.execSecondaryRailFault s
  | .standbyDomainWatchdog => Sys2Proof.Machine.execStandbyDomainWatchdog s
  | .perstNAsserted => Sys2Proof.Machine.execPerstNAsserted s
  | .perstNReleased => Sys2Proof.Machine.execPerstNReleased s
  | .pcieHotReset => Sys2Proof.Machine.execPcieHotReset s
  | .functionLevelReset => Sys2Proof.Machine.execFunctionLevelReset s
  | .d3hotEntry => Sys2Proof.Machine.execD3hotEntry s
  | .d0Return => Sys2Proof.Machine.execD0Return s
  | .refclkMeasurement ppm => Sys2Proof.Machine.execRefclkMeasurement ppm s
  | .refCalMeasurement volts => Sys2Proof.Machine.execRefCalMeasurement volts s
  | .cableInserted d p => Sys2Proof.Machine.execCableInserted d p s
  | .cableRemoved d p => Sys2Proof.Machine.execCableRemoved d p s
  | .startMoment => Sys2Proof.Machine.execStartMoment s
  | .railsInWindow => Sys2Proof.Machine.execRailsInWindow s
  | .bootImageVerify slot => Sys2Proof.Machine.execBootImageVerify slot s
  | .hubFirmwareStarted => Sys2Proof.Machine.execHubFirmwareStarted s
  | .dieRelease d => Sys2Proof.Machine.execDieRelease d s
  | .memoryTrainingDone d stack pass => Sys2Proof.Machine.execMemoryTrainingDone d stack pass s
  | .coreSelfTestDone d c pass => Sys2Proof.Machine.execCoreSelfTestDone d c pass s
  | .adcSelfCalibrationDone d c lane adc offset gain dnl inl => Sys2Proof.Machine.execAdcSelfCalibrationDone d c lane adc offset gain dnl inl s
  | .memoryFillDone d => Sys2Proof.Machine.execMemoryFillDone d s
  | .referenceCheckDone d uv => Sys2Proof.Machine.execReferenceCheckDone d uv s
  | .probeDacTraceDone d c lane ratio charges => Sys2Proof.Machine.execProbeDacTraceDone d c lane ratio charges s
  | .columnTableDone d c a codes => Sys2Proof.Machine.execColumnTableDone d c a codes s
  | .moduleAssayDone => Sys2Proof.Machine.execModuleAssayDone s
  | .startupWatchdogExpiry => Sys2Proof.Machine.execStartupWatchdogExpiry s
  | .moduleResetRequest w v => Sys2Proof.Machine.execModuleResetRequest w v s
  | .dieResetRequest w n v => Sys2Proof.Machine.execDieResetRequest w n v s
  | .dieResetDone d => Sys2Proof.Machine.execDieResetDone d s
  | .goldenRestoreDone d => Sys2Proof.Machine.execGoldenRestoreDone d s
  | .loomP4 d c lane => Sys2Proof.Machine.execLoomP4 d c lane s
  | .loomP8 d c lane => Sys2Proof.Machine.execLoomP8 d c lane s
  | .loomWitnessProbe d c cmd => Sys2Proof.Machine.execLoomWitnessProbe d c cmd s
  | .loomProbeConversion d c cmd => Sys2Proof.Machine.execLoomProbeConversion d c cmd s
  | .laneQueuePlaceFree d c lane => Sys2Proof.Machine.execLaneQueuePlaceFree d c lane s
  | .loomOperationDone d c lane => Sys2Proof.Machine.execLoomOperationDone d c lane s
  | .loomIdataWrite d c data => Sys2Proof.Machine.execLoomIdataWrite d c data s
  | .ladderVerdict d c => Sys2Proof.Machine.execLadderVerdict d c s
  | .p16RedoDone d c => Sys2Proof.Machine.execP16RedoDone d c s
  | .stormGrantWrite d c => Sys2Proof.Machine.execStormGrantWrite d c s
  | .promotionHoldExpiry b layer => Sys2Proof.Machine.execPromotionHoldExpiry b layer s
  | .tallyAddition d c no => Sys2Proof.Machine.execTallyAddition d c no s
  | .tallyPlaceFree d c => Sys2Proof.Machine.execTallyPlaceFree d c s
  | .tallyMerge d c => Sys2Proof.Machine.execTallyMerge d c s
  | .tallyDrain d c => Sys2Proof.Machine.execTallyDrain d c s
  | .tallyClear d c => Sys2Proof.Machine.execTallyClear d c s
  | .menderLrz d c => Sys2Proof.Machine.execMenderLrz d c s
  | .menderLru d c => Sys2Proof.Machine.execMenderLru d c s
  | .menderTerm d c => Sys2Proof.Machine.execMenderTerm d c s
  | .menderBias d c => Sys2Proof.Machine.execMenderBias d c s
  | .menderMatv d c => Sys2Proof.Machine.execMenderMatv d c s
  | .mendDdataWrite d c gain offs => Sys2Proof.Machine.execMendDdataWrite d c gain offs s
  | .engineCommandDone d c eng => Sys2Proof.Machine.execEngineCommandDone d c eng s
  | .witnessPeriodDue d c a => Sys2Proof.Machine.execWitnessPeriodDue d c a s
  | .witnessEvaluationDone d c a => Sys2Proof.Machine.execWitnessEvaluationDone d c a s
  | .arrayStale d c a => Sys2Proof.Machine.execArrayStale d c a s
  | .boundEvaluation d c => Sys2Proof.Machine.execBoundEvaluation d c s
  | .ageUpdate d c => Sys2Proof.Machine.execAgeUpdate d c s
  | .adcPeriodicCalibration d c lane => Sys2Proof.Machine.execAdcPeriodicCalibration d c lane s
  | .adcShadowDone d c lane adc => Sys2Proof.Machine.execAdcShadowDone d c lane adc s
  | .laneRetraceDue d => Sys2Proof.Machine.execLaneRetraceDue d s
  | .arrayAssayDone d c a sums codes => Sys2Proof.Machine.execArrayAssayDone d c a sums codes s
  | .fullCoreAssayDone d c => Sys2Proof.Machine.execFullCoreAssayDone d c s
  | .writeVerifyIteration d c reads => Sys2Proof.Machine.execWriteVerifyIteration d c reads s
  | .programmingRowDone d c => Sys2Proof.Machine.execProgrammingRowDone d c s
  | .programmingPause d c => Sys2Proof.Machine.execProgrammingPause d c s
  | .programmingResume d c => Sys2Proof.Machine.execProgrammingResume d c s
  | .rtholdExpiry half => Sys2Proof.Machine.execRtholdExpiry half s
  | .windowRequest w v => Sys2Proof.Machine.execWindowRequest w v s
  | .windowOpen half => Sys2Proof.Machine.execWindowOpen half s
  | .winmaxExpiry half => Sys2Proof.Machine.execWinmaxExpiry half s
  | .wingapExpiry half => Sys2Proof.Machine.execWingapExpiry half s
  | .logicTestDue d c => Sys2Proof.Machine.execLogicTestDue d c s
  | .deferDeadline d c => Sys2Proof.Machine.execDeferDeadline d c s
  | .logicTestDone d c pass => Sys2Proof.Machine.execLogicTestDone d c pass s
  | .activityCoreLogicTest w v => Sys2Proof.Machine.execActivityCoreLogicTest w v s
  | .activityLaneAdcCalibration w v => Sys2Proof.Machine.execActivityLaneAdcCalibration w v s
  | .activityLaneRetrace w v => Sys2Proof.Machine.execActivityLaneRetrace w v s
  | .activityArrayAssay w v => Sys2Proof.Machine.execActivityArrayAssay w v s
  | .activityFullCoreAssay w v => Sys2Proof.Machine.execActivityFullCoreAssay w v s
  | .remapResetArray w v => Sys2Proof.Machine.execRemapResetArray w v s
  | .poisonedLineReload d c line => Sys2Proof.Machine.execPoisonedLineReload d c line s
  | .sequencerIssue d c => Sys2Proof.Machine.execSequencerIssue d c s
  | .sequencerStallEnd d c => Sys2Proof.Machine.execSequencerStallEnd d c s
  | .stitchBoundary d c => Sys2Proof.Machine.execStitchBoundary d c s
  | .stitchWatchdogExpiry d c => Sys2Proof.Machine.execStitchWatchdogExpiry d c s
  | .taskSlotValidate d c slot cfg => Sys2Proof.Machine.execTaskSlotValidate d c slot cfg s
  | .taskSlotClear d c slot => Sys2Proof.Machine.execTaskSlotClear d c slot s
  | .taskPreempt d c slot => Sys2Proof.Machine.execTaskPreempt d c slot s
  | .vecQuant d c => Sys2Proof.Machine.execVecQuant d c s
  | .vecNorm d c => Sys2Proof.Machine.execVecNorm d c s
  | .vecNormSumsq d c => Sys2Proof.Machine.execVecNormSumsq d c s
  | .vecNormPresum d c => Sys2Proof.Machine.execVecNormPresum d c s
  | .vecActGated d c => Sys2Proof.Machine.execVecActGated d c s
  | .vecActGelu d c => Sys2Proof.Machine.execVecActGelu d c s
  | .vecRope d c => Sys2Proof.Machine.execVecRope d c s
  | .vecAdd d c => Sys2Proof.Machine.execVecAdd d c s
  | .vecMul d c => Sys2Proof.Machine.execVecMul d c s
  | .vecConv d c => Sys2Proof.Machine.execVecConv d c s
  | .vecCnt d c => Sys2Proof.Machine.execVecCnt d c s
  | .sampleLocal d c => Sys2Proof.Machine.execSampleLocal d c s
  | .sampleMerge d c => Sys2Proof.Machine.execSampleMerge d c s
  | .sampleDraw d c => Sys2Proof.Machine.execSampleDraw d c s
  | .sampleAccept d c => Sys2Proof.Machine.execSampleAccept d c s
  | .attnScan d c => Sys2Proof.Machine.execAttnScan d c s
  | .attnMerge d c => Sys2Proof.Machine.execAttnMerge d c s
  | .attnFinal d c => Sys2Proof.Machine.execAttnFinal d c s
  | .porterCopy d c ch => Sys2Proof.Machine.execPorterCopy d c ch s
  | .porterGather d c ch => Sys2Proof.Machine.execPorterGather d c ch s
  | .porterScatter d c ch => Sys2Proof.Machine.execPorterScatter d c ch s
  | .porterAppend d c ch => Sys2Proof.Machine.execPorterAppend d c ch s
  | .kvAppend d c ch => Sys2Proof.Machine.execKvAppend d c ch s
  | .porterPush d c ch => Sys2Proof.Machine.execPorterPush d c ch s
  | .remoteWriteArrival idx => Sys2Proof.Machine.execRemoteWriteArrival idx s
  | .dataSlotRelease d c slot ds => Sys2Proof.Machine.execDataSlotRelease d c slot ds s
  | .fillwaitExpiry d c key => Sys2Proof.Machine.execFillwaitExpiry d c key s
  | .meshFlitReceive d router port ok => Sys2Proof.Machine.execMeshFlitReceive d router port ok s
  | .routeRecomputeDone d => Sys2Proof.Machine.execRouteRecomputeDone d s
  | .seamHeartbeatTimeout d => Sys2Proof.Machine.execSeamHeartbeatTimeout d s
  | .dieBarrierArrive d c => Sys2Proof.Machine.execDieBarrierArrive d c s
  | .dramRead d off len => Sys2Proof.Machine.execDramRead d off len s
  | .dramWrite d off data => Sys2Proof.Machine.execDramWrite d off data s
  | .writeMergeExpiry d stack phi => Sys2Proof.Machine.execWriteMergeExpiry d stack phi s
  | .folioReread d stack alloc => Sys2Proof.Machine.execFolioReread d stack alloc s
  | .scrubTick d stack => Sys2Proof.Machine.execScrubTick d stack s
  | .remapCopyDone d stack => Sys2Proof.Machine.execRemapCopyDone d stack s
  | .translationWalkDone d c u => Sys2Proof.Machine.execTranslationWalkDone d c u s
  | .xrespResume d c u => Sys2Proof.Machine.execXrespResume d c u s
  | .xrespFail d c u => Sys2Proof.Machine.execXrespFail d c u s
  | .xltwaitExpiry d c u => Sys2Proof.Machine.execXltwaitExpiry d c u s
  | .invalidationStart d tctx whole page pages => Sys2Proof.Machine.execInvalidationStart d tctx whole page pages s
  | .invalidationDone d => Sys2Proof.Machine.execInvalidationDone d s
  | .remapResetStack w v => Sys2Proof.Machine.execRemapResetStack w v s
  | .modelOpen aq e data layers groups => Sys2Proof.Machine.execModelOpen aq e data layers groups s
  | .modelPut aq e data => Sys2Proof.Machine.execModelPut aq e data s
  | .modelPlace aq e data nl groups vocab => Sys2Proof.Machine.execModelPlace aq e data nl groups vocab s
  | .modelPattern aq e data => Sys2Proof.Machine.execModelPattern aq e data s
  | .modelSwitch aq e => Sys2Proof.Machine.execModelSwitch aq e s
  | .modelRetire aq e => Sys2Proof.Machine.execModelRetire aq e s
  | .modelReuse aq e data nl groups vocab => Sys2Proof.Machine.execModelReuse aq e data nl groups vocab s
  | .keyimport aq e data => Sys2Proof.Machine.execKeyimport aq e data s
  | .keyerase aq e => Sys2Proof.Machine.execKeyerase aq e s
  | .modelClose aq e => Sys2Proof.Machine.execModelClose aq e s
  | .generationReady b gen => Sys2Proof.Machine.execGenerationReady b gen s
  | .serveCreate q e img => Sys2Proof.Machine.execServeCreate q e img s
  | .serveSubmit q e toks => Sys2Proof.Machine.execServeSubmit q e toks s
  | .serveCancel q e => Sys2Proof.Machine.execServeCancel q e s
  | .servePause q e => Sys2Proof.Machine.execServePause q e s
  | .serveResume q e => Sys2Proof.Machine.execServeResume q e s
  | .serveDestroy q e => Sys2Proof.Machine.execServeDestroy q e s
  | .serveSetparam q e img => Sys2Proof.Machine.execServeSetparam q e img s
  | .serveFork q e => Sys2Proof.Machine.execServeFork q e s
  | .queueRecordWrite w v => Sys2Proof.Machine.execQueueRecordWrite w v s
  | .stepFormation b accepted => Sys2Proof.Machine.execStepFormation b accepted s
  | .cowCopyDone x p => Sys2Proof.Machine.execCowCopyDone x p s
  | .hubmsgPrepare b num gen bucket audrole levels rows => Sys2Proof.Machine.execHubmsgPrepare b num gen bucket audrole levels rows s
  | .hubmsgReady b num m => Sys2Proof.Machine.execHubmsgReady b num m s
  | .hubmsgGo b num => Sys2Proof.Machine.execHubmsgGo b num s
  | .preptoExpiry b num => Sys2Proof.Machine.execPreptoExpiry b num s
  | .commitDecision b num reports results sigs => Sys2Proof.Machine.execCommitDecision b num reports results sigs s
  | .hubmsgCommit b num lens => Sys2Proof.Machine.execHubmsgCommit b num lens s
  | .hubmsgAbandon b num cause => Sys2Proof.Machine.execHubmsgAbandon b num cause s
  | .hubmsgDone b num m => Sys2Proof.Machine.execHubmsgDone b num m s
  | .gatetoExpiry b num m => Sys2Proof.Machine.execGatetoExpiry b num m s
  | .cellarCopyDone x => Sys2Proof.Machine.execCellarCopyDone x s
  | .cellarRestoreDone x data => Sys2Proof.Machine.execCellarRestoreDone x data s
  | .cellarTtlExpiry x => Sys2Proof.Machine.execCellarTtlExpiry x s
  | .idlepauseExpiry x => Sys2Proof.Machine.execIdlepauseExpiry x s
  | .frameReclaim => Sys2Proof.Machine.execFrameReclaim s
  | .portTrainingDone d p lanes => Sys2Proof.Machine.execPortTrainingDone d p lanes s
  | .trainingRetryTick d p => Sys2Proof.Machine.execTrainingRetryTick d p s
  | .linkRetrain d p => Sys2Proof.Machine.execLinkRetrain d p s
  | .identReceived d p ident => Sys2Proof.Machine.execIdentReceived d p ident s
  | .identSendTick d p => Sys2Proof.Machine.execIdentSendTick d p s
  | .linkFlitReceive d p corr unc flit => Sys2Proof.Machine.execLinkFlitReceive d p corr unc flit s
  | .linkReplay d p seq => Sys2Proof.Machine.execLinkReplay d p seq s
  | .fastRetrainDone d p ok => Sys2Proof.Machine.execFastRetrainDone d p ok s
  | .packetArrival d p pkt => Sys2Proof.Machine.execPacketArrival d p pkt s
  | .disctoExpiry d p => Sys2Proof.Machine.execDisctoExpiry d p s
  | .fabricPlanWrite w v => Sys2Proof.Machine.execFabricPlanWrite w v s
  | .lsaReceived d p lsa => Sys2Proof.Machine.execLsaReceived d p lsa s
  | .lsaPeriodicTick => Sys2Proof.Machine.execLsaPeriodicTick s
  | .routeTableCompute => Sys2Proof.Machine.execRouteTableCompute s
  | .barrierArrive d frm grp digest inj del => Sys2Proof.Machine.execBarrierArrive d frm grp digest inj del s
  | .barrierRelease d grp seq rootTime => Sys2Proof.Machine.execBarrierRelease d grp seq rootTime s
  | .snapshotRetry d grp seq => Sys2Proof.Machine.execSnapshotRetry d grp seq s
  | .broadcast d grp seq down data => Sys2Proof.Machine.execBroadcast d grp seq down data s
  | .fabricReset w v msg d p die seq => Sys2Proof.Machine.execFabricReset w v msg d p die seq s
  | .globalBarrierStart w v => Sys2Proof.Machine.execGlobalBarrierStart w v s
  | .globalSnapshotStart w v => Sys2Proof.Machine.execGlobalSnapshotStart w v s
  | .syncPeriodTick => Sys2Proof.Machine.execSyncPeriodTick s
  | .tenantRecordWrite w v => Sys2Proof.Machine.execTenantRecordWrite w v s
  | .cmpChalreq g => Sys2Proof.Machine.execCmpChalreq g s
  | .cmpOpen g => Sys2Proof.Machine.execCmpOpen g s
  | .cmpClose g => Sys2Proof.Machine.execCmpClose g s
  | .nonceExpiry tr addr port => Sys2Proof.Machine.execNonceExpiry tr addr port s
  | .challengeHoldExpiry tr => Sys2Proof.Machine.execChallengeHoldExpiry tr s
  | .sessionIdleExpiry id => Sys2Proof.Machine.execSessionIdleExpiry id s
  | .auditFlush => Sys2Proof.Machine.execAuditFlush s
  | .meteringPeriodBoundary => Sys2Proof.Machine.execMeteringPeriodBoundary s
  | .faultAcknowledge w v => Sys2Proof.Machine.execFaultAcknowledge w v s
  | .testModeEnter w v => Sys2Proof.Machine.execTestModeEnter w v s
  | .testModeLeave w v => Sys2Proof.Machine.execTestModeLeave w v s
  | .faultForce w v => Sys2Proof.Machine.execFaultForce w v s
  | .coreUnfence w v test assay => Sys2Proof.Machine.execCoreUnfence w v test assay s
  | .audtoExpiry b num => Sys2Proof.Machine.execAudtoExpiry b num s
  | .auditRequest w b v => Sys2Proof.Machine.execAuditRequest w b v s
  | .thermalModelUpdate d temps powers sens model => Sys2Proof.Machine.execThermalModelUpdate d temps powers sens model s
  | .riseCodeUpdate d => Sys2Proof.Machine.execRiseCodeUpdate d s
  | .windowCodeUpdate d => Sys2Proof.Machine.execWindowCodeUpdate d s
  | .winopenExpiry half => Sys2Proof.Machine.execWinopenExpiry half s
  | .windowRequeueExpiry half => Sys2Proof.Machine.execWindowRequeueExpiry half s
  | .plateNodeUpdate valid plate inlet outlet => Sys2Proof.Machine.execPlateNodeUpdate valid plate inlet outlet s
  | .hardTrip d sensor => Sys2Proof.Machine.execHardTrip d sensor s
  | .powerCapUpdate a01 a10 vin iin dies => Sys2Proof.Machine.execPowerCapUpdate a01 a10 vin iin dies s
  | .coolantAlarmExpiry => Sys2Proof.Machine.execCoolantAlarmExpiry s
  | .cmpSolicit g => Sys2Proof.Machine.execCmpSolicit g s
  | .announceJitterExpiry addr port => Sys2Proof.Machine.execAnnounceJitterExpiry addr port s
  | .announcePeriodTick => Sys2Proof.Machine.execAnnouncePeriodTick s
  | .announceReceived g => Sys2Proof.Machine.execAnnounceReceived g s
  | .partnerExpiry serial => Sys2Proof.Machine.execPartnerExpiry serial s
  | .cmpRead g => Sys2Proof.Machine.execCmpRead g s
  | .cmpWrite g test assay => Sys2Proof.Machine.execCmpWrite g test assay s
  | .fwbegin g => Sys2Proof.Machine.execFwbegin g s
  | .fwdata g => Sys2Proof.Machine.execFwdata g s
  | .fwend g => Sys2Proof.Machine.execFwend g s
  | .fwcommit g => Sys2Proof.Machine.execFwcommit g s
  | .dadDone ok => Sys2Proof.Machine.execDadDone ok s
  | .neighborSolicitation addr target => Sys2Proof.Machine.execNeighborSolicitation addr target s
  | .echoRequest addr data => Sys2Proof.Machine.execEchoRequest addr data s
  | .plcaBeaconLoss => Sys2Proof.Machine.execPlcaBeaconLoss s
  | .mailboxGo v test assay => Sys2Proof.Machine.execMailboxGo v test assay s
  | .doorbellSqtail admin q v => Sys2Proof.Machine.execDoorbellSqtail admin q v s
  | .doorbellCqhead admin q v => Sys2Proof.Machine.execDoorbellCqhead admin q v s
  | .doorbellOqhead admin q v => Sys2Proof.Machine.execDoorbellOqhead admin q v s
  | .submissionFetch admin q e => Sys2Proof.Machine.execSubmissionFetch admin q e s
  | .ringset aq e => Sys2Proof.Machine.execRingset aq e s
  | .ringclr aq e => Sys2Proof.Machine.execRingclr aq e s
  | .ringclrComplete q => Sys2Proof.Machine.execRingclrComplete q s
  | .adminQueueRecordWrite w v => Sys2Proof.Machine.execAdminQueueRecordWrite w v s
  | .interruptTimerExpiry which q => Sys2Proof.Machine.execInterruptTimerExpiry which q s
  | .msixUnmask vec => Sys2Proof.Machine.execMsixUnmask vec s
  | .hifEnable en => Sys2Proof.Machine.execHifEnable en s
  | .registerWrite src die off size v test assay => Sys2Proof.Machine.execRegisterWrite src die off size v test assay s
  | .dieWatchdogExpiry d => Sys2Proof.Machine.execDieWatchdogExpiry d s
  | .safeStateCoreStopTimeout d c => Sys2Proof.Machine.execSafeStateCoreStopTimeout d c s
  | .hubHardwareFault => Sys2Proof.Machine.execHubHardwareFault s
  | .internalFuseOpen => Sys2Proof.Machine.execInternalFuseOpen s
  | .inputReturnInRange vin => Sys2Proof.Machine.execInputReturnInRange vin s
  | .plcaBeaconRegained => Sys2Proof.Machine.execPlcaBeaconRegained s
  | .dadRetryExpiry => Sys2Proof.Machine.execDadRetryExpiry s
  | .coreClockChangeDone d c => Sys2Proof.Machine.execCoreClockChangeDone d c s
  | .manufactureCounterHourTick us => Sys2Proof.Machine.execManufactureCounterHourTick us s

end Sys2Proof.Machine
end

