-- ==== Sys2Proof/Machine/Idle.lean ====
section
/-! DEFINITION. What passes while no command waits. -/

namespace Sys2Proof.Machine

/-- A microsecond in which a half of a die is throttled: its code is lower than the other half's (R315, Table 12.6).
(DESIGN CHOICE: notes/assumptions/2.md.) -/
def countThrottle (s : State) (d : Nat) : State :=
  let b := dieB d
  let w := fget s b F.MESH_HCLK_ACT 0
  let e := fget s b F.MESH_HCLK_ACT 1
  if w < e then odInc (finc s b F.MESH_CNT_THR0_COUNT) (0x3070 + d) 3
  else if e < w then odInc (finc s b F.MESH_CNT_THR1_COUNT) (0x3070 + d) 4
  else s

/-- The counters since manufacture written to flash once an hour (R557). (DESIGN CHOICE: notes/assumptions/2.md.) -/
def hourly (s : State) : State := if hubTime s % 3600000000 = 0 then flashMfg s else s

/-- The parity errors of a microsecond in the words that they meet (R250). (DESIGN CHOICE: notes/assumptions/32.md.) -/
def enterUpsets (s : State) : State :=
  (Config.parityErrors s.sys.hubTime).foldl (fun s e =>
    if e.1 < 8 ∧ e.2.1 < 72 ∧ e.2.2.1 < 2 ^ 19 then modCore s e.1 e.2.1 fun x => { x with upsets := x.upsets ++ [e.2.2] } else s) s

/-- The residue mismatches of a microsecond in the tallies that they meet (R497). (DESIGN CHOICE: notes/assumptions/32.md.) -/
def enterGlitches (s : State) : State :=
  (Config.residueErrors s.sys.hubTime).foldl (fun s e =>
    if e.1 < 8 ∧ e.2.1 < 72 then modCore s e.1 e.2.1 fun x => { x with glitches := x.glitches ++ [e.2.2] } else s) s

/-- The errors that AER reports in a microsecond counted (OD 0x1061.07, .08). (DESIGN CHOICE: notes/assumptions/48.md.) -/
def countAer (s : State) : State :=
  let n := Config.aerErrors s.sys.hubTime
  let s := (List.range n.1).foldl (fun s _ => odInc s 0x1061 7) s
  (List.range n.2).foldl (fun s _ => odInc s 0x1061 8) s

/-- The failing flash writes of a microsecond (R556). (DESIGN CHOICE: notes/assumptions/31.md.) -/
def enterFlashErrors (s : State) : State :=
  { s with sys := { s.sys with flashBad := s.sys.flashBad + Config.flashErrors s.sys.hubTime } }

/-- The errors of a microsecond in the folios that they meet (R326). (DEDUCED: notes/assumptions/59.md.) -/
def enterFolioErrors (s : State) : State :=
  (Config.folioErrors s.sys.hubTime).foldl (fun s e =>
    if e.1 < 8 ∧ e.2.1 < 2 then modMemc e.1 e.2.1 (fun m => { m with bad := m.bad ++ [⟨e.2.2.1, e.2.2.2.1, e.2.2.2.2⟩] }) s else s) s

/-- The hub messages that wait sent (R448): each from the module's lowest die number to that of the module it is for. (DEDUCED:
notes/assumptions/57.md.) -/
def sendHub (s : State) : State :=
  let l := s.serve.outbox
  let low := dieList.foldl (fun a d => if dieNum s d < dieNum s a then d else a) 0
  l.foldl (fun s m => sendTo low (lowestDieAt s m.1) 8 m.2 s) { s with serve := { s.serve with outbox := [] } }

/-- A microsecond of hub time (OD 0x100B) while no command waits (DESIGN CHOICE, notes/assumptions/2.md). -/
def idleTick (s : State) : State :=
  if s.power.rails then countAer <| enterFlashErrors <| enterFolioErrors <| sendHub <| enterGlitches <| enterUpsets <| diesLate (hourly (dieList.foldl countThrottle { s with sys := { s.sys with hubTime := s.sys.hubTime + 1 } })) else s

end Sys2Proof.Machine
end

