-- ==== Sys2Proof/Safety.lean ====
section
/-! DEFINITION. What a safe run is, and the words in which statements speak of a command: that it completes, and what it leaves. -/

namespace Sys2Proof

open Machine

/-- The machine takes a step from a state. -/
def Progresses (s : State) : Prop := ∃ t, step s = .next t

/-- A command answers a next state, of which `P` holds. -/
def Completes (c : Instr) (s : State) (P : State → Prop) : Prop := ∃ t, exec c s = .next t ∧ P t

/-- Nothing but registers differs. -/
def OnlyRegs (s t : State) : Prop := ({ t with regs := s.regs } : State) = s

/-- Nothing but dictionary entries differs. -/
def OnlyOd (s t : State) : Prop := ({ t with od := s.od } : State) = s

/-- Nothing but registers and dictionary entries differs. -/
def OnlyRegsOd (s t : State) : Prop := ({ t with regs := s.regs, od := s.od } : State) = s

/-- Every register but those of the keys listed reads as before. -/
def RegsKept (ks : List Nat) (s t : State) : Prop := ∀ k, k ∉ ks → rget t k = rget s k

/-- Of the whole state only copy `i` of field `f` at base `b` may differ, and it reads `v`. -/
def OnlyField (b : Nat) (f : Fld) (i v : Nat) (s t : State) : Prop :=
  OnlyRegs s t ∧ fget t b f i = v ∧
  ∀ b' g j, fkey b' g j ≠ fkey b f i ∨ g.lo + g.width ≤ f.lo ∨ f.lo + f.width ≤ g.lo → fget t b' g j = fget s b' g j

/-- Every dictionary entry but those listed, each as index and subindex, reads as before. -/
def OdKept (es : List (Nat × Nat)) (s t : State) : Prop := ∀ idx sub, odKey idx sub ∉ es.map (fun e => odKey e.1 e.2) → odGet t idx sub = odGet s idx sub

/-- Every byte of memory outside the `n` bytes from `a` reads as before. -/
def MemKept (a n : Nat) (s t : State) : Prop := ∀ c, c < a ∨ a + n ≤ c → mget t c = mget s c

/-- On a core of the module, command `q` of one of the four task slots stands at the front of engine queue `key`, the commands `l` behind
it; it has opcode `op`, the core is not fenced, and no gate holds the command. -/
abbrev AtFront (s : State) (d c key op : Nat) (q : Issued) (l : List Issued) : Prop :=
  d < 8 ∧ c < 72 ∧ q.slot < 4 ∧ queueAt s d c key = q :: l ∧ leAt q.body 1 1 = op ∧ coreFenced s d c = false ∧ gateHolds s d c q = none

/-- A range of `n` bytes at relative address `a` of a task slot lies in its windows at physical offset `p`, no line of the core is
poisoned, no word fails its parity or is open, and poison mode is off: reading the range gives its bytes and does nothing else. -/
abbrev Reads (s : State) (d c slot a n p : Nat) : Prop :=
  relMap s d c slot a n false = some p ∧ (coreOf s d c).poisoned = [] ∧ (coreOf s d c).upsets = [] ∧ (coreOf s d c).unfilled = [] ∧
    fget s (coreB d c) F.CORE_PATCTL_POISON = 0

/-- A range of `n` bytes at relative address `a` of a task slot lies in its task window at physical offset `p`. -/
abbrev Writes (s : State) (d c slot a n p : Nat) : Prop := relMap s d c slot a n true = some p

/-- No folio of a die's stacks is in error. -/
abbrev FoliosClean (s : State) (d : Nat) : Prop := ∀ k, k < 2 → (memcOf s d k).bad = []

/-- What a read of a folio gives: what each of its codewords decodes to (none where it is in no error), and its data. -/
def folioRead (s : State) (d st phi : Nat) : List CwOut × List Byte :=
  let data := mread s (dramAddr d (2048 * folioAt st phi)) 2048
  let pat := errorsIn s d st phi
  if pat.isEmpty then ([], data) else decodeFolio (fget s (dieB d) F.MEMC_CTRL_STRENGTH_ACT st) data pat (takeNat s).1

/-- The array operations that a core has counted (LOOM_OPCNT_HI:LO). -/
def opCount (s : State) (d c : Nat) : Nat := fget s (coreB d c) F.LOOM_OPCNT_LO_COUNT + 2 ^ 32 * fget s (coreB d c) F.LOOM_OPCNT_HI_COUNT

/-- The tile operation of an issue number. -/
def tileOp (s : State) (d c no : Nat) : Option TileOp := (coreOf s d c).ops.find? fun o => o.no == no

/-- Every core but one is as before. -/
def OtherCores (d c : Nat) (s t : State) : Prop := ∀ d' c', coreKey d' c' ≠ coreKey d c → coreOf t d' c' = coreOf s d' c'

/-- The sequencer of a core can issue the entry at the PC of task slot `t` with no WAIT and no patch: the core runs, the slot is the
one that issues, once a slot is taken at a boundary, the entry lies in the pattern window with major version 1, no line is poisoned and no
word fails its parity, engine `eng` takes its body, a TERM names a loom command of the stitch, and the queue has a place. -/
abbrev Issues (s : State) (d c t eng : Nat) (body : List Byte) : Prop :=
  let b := coreB d c
  let pc := fget s b F.CORE_TPC_PC t
  let h := patRead s d c t pc 16
  d < 8 ∧ c < 72 ∧ t < 4 ∧ coreRuns s d c = true ∧ coreFenced s d c = false ∧ dieState s d = 2 ∧ (coreOf s d c).ending = false ∧
  (coreOf s d c).stopped = false ∧ (fget s b F.CORE_STAT_BOUNDARY = 0 ∨ stopWanted s = false) ∧ issuingSlot (takeSlot d c s) d c = some t ∧
  fget s b F.CORE_TCTL_VALID t = 1 ∧ (coreOf s d c).poisoned = [] ∧ (coreOf s d c).upsets = [] ∧ (taskOf s d c t).past = false ∧
  verOk h = true ∧ leAt h 1 1 = eng ∧ 1 ≤ eng ∧ eng ≤ 9 ∧ leAt h 4 2 = 0 ∧
  pc + 16 + bodyLen eng ≤ fget s b F.CORE_TPAT_LEN t * 4096 ∧ patchEntries s d c t pc = [] ∧ body = patRead s d c t (pc + 16) (bodyLen eng) ∧
  bodyBad eng body = false ∧ (eng = 2 → leAt body 1 1 = 3 → termOp s d c t (leAt body 30 2) ≠ none) ∧
  (queueAt s d c (queueKey eng body)).length < queueDepth eng

/-- A model command with operation `op` and header `e` is the one that an admin queue has fetched, the queue is not being disabled, its role may
submit the command, and the reserved bits are zero. -/
abbrev AdminTaken (s : State) (aq op : Nat) (e : List Byte) : Prop :=
  adminTook s aq 1 op e = true ∧ (adminOf s aq).disabling = false ∧ cmdRole s aq e = true ∧ cmdReserved e = true

/-- A command of an admin queue was answered: one completion more, of KIND 1, with the command's identifier. -/
def Answers (aq : Nat) (e : List Byte) (status result : Nat) (s t : State) : Prop :=
  (adminOf t aq).cqEntries = (adminOf s aq).cqEntries ++
    [⟨1, status, (adminOf s aq).cq.phase, leAt e 2 2, (adminOf s aq).sq.head, result, 0⟩]

/-- A fetched command with operation `op` of a serving queue names a context of the queue, and its reserved fields are zero. -/
abbrev ServeTaken (s : State) (q op : Nat) (e : List Byte) : Prop := fetched s q op e = true ∧ serveStatus s q e (leAt e 12 4) = 0

/-- A command of a serving queue was answered from the slot reserved for it: one completion more, with the command's identifier. -/
def Served (q : Nat) (e : List Byte) (status result : Nat) (s t : State) : Prop :=
  ∃ r r', ringsOf s q = some r ∧ ringsOf t q = some r' ∧
    r'.cqEntries = r.cqEntries ++ [⟨1, status, r.cq.phase, leAt e 2 2, r.sq.head, result, 0⟩] ∧ r'.cqReserved + 1 = r.cqReserved

/-- No completion ring of a serving queue changed. -/
def Waits (s t : State) : Prop := t.hif = s.hif

/-- Every context but one is as before. -/
def OtherCtxs (x : Nat) (s t : State) : Prop := ∀ y, y ≠ x → ctxOf t y = ctxOf s y

/-- A datagram as the request that it carries. -/
def reqOf (g : Dgram) : Req := ⟨1, g.addr, g.port, g.bytes⟩

/-- CMP runs and sends, outside Recovery, and a datagram that is not dropped carries a well-formed request of TYPE `y`. -/
abbrev CmpTaken (s : State) (y : Nat) (g : Dgram) : Prop :=
  cmpUp s = true ∧ s.mgmt.dadFailed = false ∧ inRecovery s = false ∧ dropsDatagram s g = false ∧ leAt g.bytes 0 1 / 16 = 1 ∧ leAt g.bytes 1 1 = y ∧ (reqOf g).formed = true

/-- Such a datagram is the next request of an open session of its sender, its signature present where it must be, and good. -/
abbrev CmpNext (s : State) (y : Nat) (g : Dgram) (x : Session) : Prop :=
  CmpTaken s y g ∧ (reqOf g).session ≠ 0 ∧ (s.mgmt.sessions.find? fun x => x.id == (reqOf g).session && x.bound (reqOf g)) = some x ∧
  sessionOf s x.id = some x ∧ ((reqOf g).needsSignature = true → (reqOf g).signed = true) ∧
  ((reqOf g).signed = true → (reqOf g).verified x s = true) ∧ ∀ q, x.lastSeq = some q → q < (reqOf g).seq

/-- A request was counted, answered with a status, a SESSION and a payload to its sender, and the response counted. -/
def CmpAnswered (g : Dgram) (status session : Nat) (payload : List Byte) (s t : State) : Prop :=
  t.mgmt.tx = some ⟨0, g.addr, g.port, cmpMessage ((reqOf g).typ + 128) status session (reqOf g).seq payload⟩ ∧
  odNum t 0x1040 1 = satAdd (odBits 0x1040 1) 1 (odNum s 0x1040 1) ∧ odNum t 0x1040 2 = satAdd (odBits 0x1040 2) 1 (odNum s 0x1040 2)

/-- The state in which a session's next request is served: the datagram is counted and its SEQ is the session's last. -/
def cmpServing (s : State) (g : Dgram) (x : Session) : State :=
  modSession x.id (fun y => { y with lastSeq := some (reqOf g).seq }) (odInc s 0x1040 1)

/-- A doorbell write was discarded: HUB_HIFQERR names it, an F0 notice of 0x0B00 stands in the ledger, and no ring changed. -/
def Discarded (admin : Bool) (q reason : Nat) (s t : State) : Prop :=
  fget t hubB F.HUB_HIFQERR_VALID = 1 ∧ fget t hubB F.HUB_HIFQERR_REASON = reason ∧ fget t hubB F.HUB_HIFQERR_QUEUE = q ∧
  fget t hubB F.HUB_HIFQERR_ADMIN = b2n admin ∧ (∃ r ∈ t.faults.modLedger, r.cls = 0 ∧ r.code = 0x0B00) ∧
  t.hif.rings = s.hif.rings ∧ t.hif.admin = s.hif.admin ∧ t.serve = s.serve ∧ t.mem = s.mem

end Sys2Proof
end

