-- ==== Sys2Proof/Certificates/Slice0/Obligations.lean ====
section
/-! DEFINITION. The statements for the provers. -/

open Sys2Proof Sys2Proof.Machine

/-- A step takes the command at the front of the queue and runs it with the rest of the queue (the block interface; log entry 1). -/
def Obligations.StepRunsFront : Prop :=
  ∀ (c : Instr) (rest : List Instr) (s : State),
    step { s with pending := c :: rest } = exec c { s with pending := rest }

/-- MEN recognised high sets HUB_SIGSTAT.MEN_IN, PERST_N released clears PERST_IN, the pre-charge bypass closing sets and re-arming clears HUB_INSTAGE.PRECHG_DONE; the input back in range stores VIN, of which the largest is 4,095, clears VLOW and VHIGH and makes VIN a measurement; a REFCLK measurement sets REFCLK_OK and REFSEL exactly for deviations from -5,500 ppm to +1,000 ppm. Nothing else changes: no other field of any register and no other part of the state. -/
def Obligations.PinsAndStageSetTheirBits : Prop :=
  (∀ s, Completes .menHighRecognised s (OnlyField hubB F.HUB_SIGSTAT_MEN_IN 0 1 s)) ∧
  (∀ s, Completes .perstNReleased s (OnlyField hubB F.HUB_SIGSTAT_PERST_IN 0 0 s)) ∧
  (∀ s, Completes .prechargeBypassClose s (OnlyField hubB F.HUB_INSTAGE_PRECHG_DONE 0 1 s)) ∧
  (∀ s, Completes .prechargeRearm s (OnlyField hubB F.HUB_INSTAGE_PRECHG_DONE 0 0 s)) ∧
  (∀ vin s, Completes (.inputReturnInRange vin) s fun t =>
    OnlyRegs { s with cap := { s.cap with vSeen := true } } t ∧ RegsKept [fkey hubB F.HUB_INSTAGE_VIN 0] s t ∧
    fget t hubB F.HUB_INSTAGE_VIN = min vin 4095 ∧ fget t hubB F.HUB_INSTAGE_VLOW = 0 ∧ fget t hubB F.HUB_INSTAGE_VHIGH = 0) ∧
  (∀ ppm s, Completes (.refclkMeasurement ppm) s fun t =>
    OnlyRegs s t ∧ RegsKept [fkey hubB F.HUB_SIGSTAT_REFCLK_OK 0] s t ∧ fget t hubB F.HUB_SIGSTAT_MEN_IN = fget s hubB F.HUB_SIGSTAT_MEN_IN ∧
    modState t = modState s ∧
    (fget t hubB F.HUB_SIGSTAT_REFCLK_OK = 1 ↔ -5500 ≤ ppm ∧ ppm ≤ 1000) ∧
    (fget t hubB F.HUB_SIGSTAT_REFSEL = 1 ↔ -5500 ≤ ppm ∧ ppm ≤ 1000))

/-- Start permission, the reclosed input switch and the powered standby domain set their flag of the power state; the return to D0 ends D3hot; nothing else changes. A REF_CAL measurement stores OD 0x2031 and sets REFCAL_OK exactly within the 5 mV window, and changes no other entry. -/
def Obligations.StandbyEventsChangeOnlyPowerState : Prop :=
  (∀ s, Completes .startPermitted s fun t => t = { s with power := { s.power with startOk := true } }) ∧
  (∀ s, Completes .inputSwitchReclose s fun t => t = { s with power := { s.power with switchClosed := true } }) ∧
  (∀ s, Completes .standbyDomainPowerUp s fun t => t = { s with power := { s.power with standby := true } }) ∧
  (∀ s, Completes .d0Return s fun t => t = { s with hif := { s.hif with d3hot := false } }) ∧
  (∀ v s, Completes (.refCalMeasurement v) s fun t =>
    OnlyRegsOd s t ∧ odNum t 0x2031 = v ∧ OdKept [(0x2031, 0)] s t ∧ RegsKept [fkey hubB F.HUB_SIGSTAT_REFCAL_OK 0] s t ∧
    fget t hubB F.HUB_SIGSTAT_REFCAL_OK = b2n (refCalOk v (odNum s 0x2030)))

/-- STOP_N asserted in start-up or Stopped sets only STOP_IN; in Service it also makes MOD_STATE Stopping (3). A core that has not stopped is stopped and its scratchpad reset at its timeout, in Stopping and in the stop of an endpoint reset. With every core stopped, the links quiet and STOP_N still asserted the module is Stopped (4). STOP_N released in Stopped returns to Service (2) unless OD 0x2045 or test mode holds it, and does not leave safe or grave state. -/
def Obligations.OrderlyStop : Prop :=
  (∀ s, modState s = 1 ∨ modState s = 4 → Completes .stopNAsserted s (OnlyField hubB F.HUB_SIGSTAT_STOP_IN 0 1 s)) ∧
  (∀ s, modState s = 2 → Completes .stopNAsserted s fun t =>
    modState t = 3 ∧ fget t hubB F.HUB_SIGSTAT_STOP_IN = 1 ∧ t.power = s.power ∧ t.mem = s.mem) ∧
  (∀ d c s, d < 8 → c < 72 → modState s = 3 ∨ s.sys.epStop = true → (coreOf s d c).stopped = false →
    Completes (.orderlyStopCoreTimeout d c) s fun t =>
      (coreOf t d c).stopped = true ∧ (coreOf t d c).queues = [] ∧ modState t = modState s ∧
      (∀ a, a < 2 ^ 21 → mget t (spadAddr d c a) = 0#8) ∧ OtherCores d c s t) ∧
  (∀ s, modState s = 3 → allStopped s = true → linksQuiet s = true → fget s hubB F.HUB_SIGSTAT_STOP_IN = 1 →
    Completes .stoppedEntry s fun t => modState t = 4 ∧ t.mem = s.mem ∧ t.power = s.power ∧ t.serve = s.serve) ∧
  (∀ s, modState s = 4 → odNum s 0x2045 = 0 → odNum s 0x8021 = 0 → Completes .stopNReleased s fun t =>
    modState t = 2 ∧ fget t hubB F.HUB_SIGSTAT_STOP_IN = 0) ∧
  (∀ s, modState s = 5 ∨ modState s = 6 → Completes .stopNReleased s (OnlyField hubB F.HUB_SIGSTAT_STOP_IN 0 0 s))

/-- What turns the rails off, and the cause it leaves (R52, R54, R57, R62, R92). That the need of a MEN toggle and of its recognition goes with the standby domain is the model's choice (log entry 71); no clause rests on it. -/
def Obligations.RailsTurnOff : Prop :=
  let off := fun (t : State) (cause : Nat) => t.power.rails = false ∧ t.power.cause = cause ∧ modState t = 7 ∧
    fget t hubB F.HUB_SIGSTAT_PG_OUT = 0 ∧ inHoldup t = false
  (∀ s, s.power.rails = true → inHoldup s = false → Completes .menLowRecognised s fun t =>
    off t 1 ∧ fget t hubB F.HUB_INSTAGE_LASTOFF = 1 ∧ fget t hubB F.HUB_SIGSTAT_MEN_IN = 0 ∧ t.power.needToggle = s.power.needToggle ∧
    (flashReady s = true → t.flash.lastOff = 1)) ∧
  (∀ s, s.power.rails = true → inHoldup s = true → Completes .menLowRecognised s fun t =>
    t.power = s.power ∧ modState t = modState s ∧ inHoldup t = true ∧ fget t hubB F.HUB_SIGSTAT_MEN_IN = 0 ∧ t.flash = s.flash ∧ t.mem = s.mem) ∧
  (∀ s, s.power.rails = false → Completes .menLowRecognised s fun t =>
    t.power = { s.power with menLowSeen := true, needToggle := false } ∧ fget t hubB F.HUB_SIGSTAT_MEN_IN = 0 ∧ t.flash = s.flash) ∧
  (∀ s, inHoldup s = true → s.power.cause < 16 → Completes .holdupFlashDone s fun t =>
    off t s.power.cause ∧ fget t hubB F.HUB_INSTAGE_LASTOFF = s.power.cause ∧ (flashReady s = true → t.flash.lastOff = s.power.cause)) ∧
  (∀ s, s.power.rails = true → Completes .secondaryRailFault s fun t =>
    off t 5 ∧ t.power.needToggle = true ∧ t.flash.auditLog = s.flash.auditLog ∧ t.flash.ledgerCopy = s.flash.ledgerCopy) ∧
  (∀ s, s.power.rails = true → Completes .standbyDomainWatchdog s fun t =>
    off t 6 ∧ t.power.needToggle = true ∧ t.flash.auditLog = s.flash.auditLog ∧ t.flash.ledgerCopy = s.flash.ledgerCopy) ∧
  (∀ s, s.flash.lastOff < 16 → Completes .standbyDomainLoss s fun t =>
    t.power.rails = false ∧ t.power.standby = false ∧ fget t hubB F.HUB_SIGSTAT_MEN_IN = 0 ∧ t.power.cause = s.flash.lastOff ∧
    fget t hubB F.HUB_INSTAGE_LASTOFF = s.flash.lastOff)

/-- Input loss, overvoltage and the hold-up (R48, R51-R53). LASTOFF 0x0 after an open fuse is the model's reading of R595 (log entry 71). -/
def Obligations.InputLossHoldsUp : Prop :=
  let held := fun t : State => inHoldup t = true ∧ fget t hubB F.HUB_SIGSTAT_PG_OUT = 0 ∧ modState t = 7
  (∀ s, s.power.rails = true → inHoldup s = false → Completes .inputLoss s fun t =>
    t.power = { s.power with startOk := false, cause := 2 } ∧ held t ∧ t.mem = s.mem) ∧
  (∀ s, s.power.rails = true → inHoldup s = true → Completes .inputLoss s fun t =>
    t.power = { s.power with startOk := false } ∧ inHoldup t = true ∧ modState t = modState s ∧ t.mem = s.mem) ∧
  (∀ s, s.power.rails = false → Completes .inputLoss s fun t =>
    OnlyRegs { s with power := { s.power with startOk := false } } t ∧ fget t hubB F.HUB_INSTAGE_VLOW = 0 ∧ fget t hubB F.HUB_INSTAGE_VHIGH = 0) ∧
  (∀ s, s.power.rails = true → inHoldup s = false → Completes .inputOvervoltage s fun t =>
    t.power = { s.power with switchClosed := false, cause := 3 } ∧ held t ∧ t.mem = s.mem) ∧
  (∀ s, s.power.rails = true → inHoldup s = true → Completes .inputOvervoltage s fun t =>
    t.power = { s.power with switchClosed := false } ∧ inHoldup t = true ∧ modState t = modState s ∧ t.mem = s.mem) ∧
  (∀ s, s.power.rails = true → Completes .internalFuseOpen s fun t =>
    t.power.rails = false ∧ t.power.fuseOpen = true ∧ t.power.cause = 0 ∧ modState t = 7 ∧ fget t hubB F.HUB_SIGSTAT_PG_OUT = 0) ∧
  (∀ d c s, inHoldup s = true → (coreOf s d c).stopped = false → Completes (.holdupCoreStopTimeout d c) s fun t =>
    (coreOf t d c).stopped = true ∧ (coreOf t d c).queues = [] ∧ OtherCores d c s t ∧ ({ t with cores := s.cores } : State) = s) ∧
  (∀ vin s, Completes (.inputLow vin) s fun t =>
    fget t hubB F.HUB_INSTAGE_VIN = min vin 4095 ∧ fget t hubB F.HUB_INSTAGE_VLOW = 1 ∧ t.power = s.power ∧ t.mem = s.mem ∧
    odNum t 0x8000 5 = if s.power.rails then satAdd (odBits 0x8000 5) 1 (odNum s 0x8000 5) else odNum s 0x8000 5) ∧
  (∀ vin s, Completes (.inputHigh vin) s fun t =>
    fget t hubB F.HUB_INSTAGE_VIN = min vin 4095 ∧ fget t hubB F.HUB_INSTAGE_VHIGH = 1 ∧ t.power = s.power ∧ t.mem = s.mem ∧
    odNum t 0x8000 5 = if s.power.rails then satAdd (odBits 0x8000 5) 1 (odNum s 0x8000 5) else odNum s 0x8000 5)

/-- PERST_N asserted, a hot reset, a Function Level Reset and the entry to D3hot leave no ring, no admin queue, no MSI-X entry and no kept doorbell; HUB_HIFCTRL.EN reads 0; EPOCH rises by 1, wrapping; MOD_STATE, the audit log, the power state and memory are unchanged. PERST_N asserted sets PERST_IN, and D3HOT_ENTRY alone enters D3hot. -/
def Obligations.EndpointReset : Prop :=
  ∀ s, let lost := fun t : State =>
      t.hif.rings = [] ∧ t.hif.admin = [] ∧ t.hif.msix = [] ∧ t.hif.bells = [] ∧ fget t hubB F.HUB_HIFCTRL_EN = 0 ∧
      fget t hubB F.HUB_HIFSTAT_EPOCH = (fget s hubB F.HUB_HIFSTAT_EPOCH + 1) % 2 ^ 8 ∧ t.flash.auditLog = s.flash.auditLog ∧ t.power = s.power ∧
      modState t = modState s ∧ t.mem = s.mem
    Completes .perstNAsserted s (fun t => lost t ∧ fget t hubB F.HUB_SIGSTAT_PERST_IN = 1 ∧ t.hif.d3hot = s.hif.d3hot) ∧
    Completes .pcieHotReset s (fun t => lost t ∧ t.hif.d3hot = s.hif.d3hot) ∧
    Completes .functionLevelReset s (fun t => lost t ∧ t.hif.d3hot = s.hif.d3hot) ∧
    Completes .d3hotEntry s (fun t => lost t ∧ t.hif.d3hot = true)

/-- Start-up advances through the phases of Table 3.1 (R71, R72, R74, R76). The 100 ms since the last rails-off are the sender's to keep: the start moment is the command itself. -/
def Obligations.StartupPhasesAdvance : Prop :=
  (∀ s, s.power.rails = false → fget s hubB F.HUB_SIGSTAT_MEN_IN = 1 → s.power.needToggle = false → s.power.startOk = true →
    s.power.standby = true → s.power.switchClosed = true → s.power.fuseOpen = false → fget s hubB F.HUB_INSTAGE_PRECHG_DONE = 1 →
    Completes .startMoment s fun t =>
      t.power = { s.power with rails := true } ∧ t.sys = { s.sys with t0 := s.sys.hubTime } ∧ bootPhase t = 1 ∧ modState t = 1 ∧
      odNum t 0x2044 = satAdd (odBits 0x2044 0) 1 (odNum s 0x2044) ∧ ({ t.flash with mfg := s.flash.mfg } : Flash) = s.flash ∧
      tget (fun _ => OdVal.num 0) t.flash.mfg (odKey 0x2044 0) = odGet t 0x2044 0 ∧ t.mem = s.mem) ∧
  (∀ s, bootPhase s = 1 → starting s = true → Completes .railsInWindow s fun t =>
    OnlyRegs s t ∧ bootPhase t = 2 ∧ fget t hubB F.HUB_SIGSTAT_PG_OUT = 1 ∧ modState t = modState s) ∧
  (∀ slot s, slot < 2 → bootPhase s = 2 → starting s = true → s.sys.accepted = none → imageOk s (slotOf s slot) = true →
    (slot = odNum s 0x2042 ↔ fget s hubB F.HUB_BOOTSTAT_SLOTFALLBACK = 0) → Completes (.bootImageVerify slot) s fun t =>
    t.sys = { s.sys with accepted := some slot } ∧ fget t hubB F.HUB_BOOTSTAT_SLOT = slot ∧ bootPhase t = 3 ∧ t.flash = s.flash) ∧
  (∀ s, bootPhase s = 2 → starting s = true → s.sys.accepted = none → imageOk s (slotOf s (odNum s 0x2042)) = false →
    fget s hubB F.HUB_BOOTSTAT_SLOTFALLBACK = 0 → Completes (.bootImageVerify (odNum s 0x2042)) s fun t =>
      t.sys.accepted = none ∧ fget t hubB F.HUB_BOOTSTAT_SLOTFALLBACK = 1 ∧ bootPhase t = 2) ∧
  (∀ s, bootPhase s = 3 → starting s = true → Completes .hubFirmwareStarted s fun t => bootPhase t = 4 ∧ t.sys.configRead = true) ∧
  (∀ d s, d < 8 → bootPhase s = 4 → starting s = true → dieState s d = 1 → Completes (.dieRelease d) s fun t =>
    (dieOf t d).fwUp = true ∧ ((∀ p ∈ s.loom.lanePerm, p.1 / 1152 = d → p.2.retired = []) →
      dieState t d = 1 ∧ ∀ c, c < 72 → coreEnabled t d c = ((coreList.filter fun x => coreUsable s d x).take 64).contains c)) ∧
  (∀ d k s, d < 8 → k < 2 → bootPhase s = 5 → starting s = true → dieState s d ≤ 2 → Completes (.memoryTrainingDone d k true) s fun t =>
    fget t (dieB d) F.MEMC_STAT_TRAINED k = 1 ∧ fget t (dieB d) F.MEMC_STAT_FILLING k = 1 ∧ k ∈ (dieOf t d).trained ∧ t.mem = s.mem)

/-- A filled die reads zero at every DRAM offset, both stacks FILLED, and is Released; the module assay done in phase 0x07 with every die in the start-up assayed gives phase 0x08, STOPPHASE 0 and Service, or Stopped while STOP_N, OD 0x2045 or test mode holds it; a core that fails its self-test in phase 0x06 with no fault open is fenced, no longer of the enabled set and entered in the field fence record, and one that passes is noted as tested with no fence and no memory changed; the start-up watchdog and a hub fault with no fault open enter safe state, the phase noted in STOPPHASE. -/
def Obligations.StartupEndsInServiceOrSafe : Prop :=
  (∀ d s, d < 8 → bootPhase s = 6 → starting s = true → dieState s d = 1 → (dieOf s d).trained.length = 2 →
    Completes (.memoryFillDone d) s fun t =>
      (∀ a, a < 2 ^ 48 → mget t (dramAddr d a) = 0#8) ∧ (∀ k, k < 2 → fget t (dieB d) F.MEMC_STAT_FILLED k = 1) ∧ dieState t d = 2 ∧
      (dieOf t d).filled = true ∧ t.flash = s.flash) ∧
  (∀ s, bootPhase s = 7 → starting s = true → diesReady s (dieAssayed s) = true → Completes .moduleAssayDone s fun t =>
    bootPhase t = 8 ∧ fget t hubB F.HUB_BOOTSTAT_STOPPHASE = 0 ∧ t.sys.resetting = false ∧
    modState t = if fget s hubB F.HUB_SIGSTAT_STOP_IN = 0 ∧ odNum s 0x2045 = 0 ∧ odNum s 0x8021 = 0 then 2 else 4) ∧
  (∀ d c s, inStage s 6 d = true → Completes (.coreSelfTestDone d c true) s fun t =>
    c ∈ (dieOf t d).tested ∧ t.flash = s.flash ∧ t.mem = s.mem ∧ t.cores = s.cores) ∧
  (∀ d c s, d < 8 → c < 72 → bootPhase s = 6 → starting s = true → dieState s d ≤ 2 → s.faults.openFaults = [] → coreFenced s d c = false →
    Completes (.coreSelfTestDone d c false) s fun t =>
      coreFenced t d c = true ∧ coreEnabled t d c = false ∧ coreKey d c ∈ t.flash.fences ∧ fget t hubB F.HUB_BOOTSTAT_DEGRADED = 1) ∧
  (∀ s, starting s = true → bootPhase s ≠ 9 → s.faults.openFaults = [] → Completes .startupWatchdogExpiry s fun t =>
    modState t = 5 ∧ fget t hubB F.HUB_BOOTSTAT_STOPPHASE = bootPhase s) ∧
  (∀ s, modState s < 5 → s.faults.openFaults = [] → Completes .hubHardwareFault s fun t => modState t = 5)

/-- An accepted write of OD 0x2040 with no reset running resets the module: phase 0x02, RESETKIND 1, no session, no host ring, hub time unchanged. An accepted write of OD 0x3010 + n puts die n, unless it is resetting, into reset, counts it and loses its DRAM; a die watchdog under reaction FENCE with no fault open does the same. A die reset done with its stages ended releases the die. A golden restore done with every section resident, no mirror read due again and none in error lets the die serve again and changes only memory and that flag. -/
def Obligations.ResetsOfModuleAndDie : Prop :=
  (∀ w v s, odCheck w 0x2040 0 v (modState s != 6 && decide (bootPhase s ≥ 3)) s = 0 → s.sys.resetting = false →
    Completes (.moduleResetRequest w v) s fun t =>
      bootPhase t = 2 ∧ fget t hubB F.HUB_BOOTSTAT_RESETKIND = 1 ∧ t.mgmt.sessions = [] ∧ t.hif.rings = [] ∧ t.sys.hubTime = s.sys.hubTime ∧
      t.sys.t0 = s.sys.hubTime ∧ t.power = s.power ∧ t.mgmt.resp.status = 0) ∧
  (∀ w n v s, n < 8 → odCheck w (0x3010 + n) 0 v (modState s != 1 && dieState s n != 5) s = 0 → dieState s n ≠ 3 →
    Completes (.dieResetRequest w n v) s fun t =>
      dieState t n = 3 ∧ odNum t (0x3000 + n) 4 = satAdd (odBits (0x3000 + n) 4) 1 (odNum s (0x3000 + n) 4) ∧ t.mgmt.resp.status = 0 ∧
      ∀ a, a < 2 ^ 48 → mget t (dramAddr n a) = 0#8) ∧
  (∀ d s, d < 8 → s.faults.openFaults = [] → fget s hubB F.FLT_MSTAT_DIEREACT = 1 → Completes (.dieWatchdogExpiry d) s fun t => dieState t d = 3) ∧
  (∀ d s, d < 8 → dieState s d = 3 → dieFilled s d = true → dieSwept s d = true → Completes (.dieResetDone d) s fun t => dieState t d = 2) ∧
  (∀ d s, (dieOf s d).goldenWait = true → dieState s d = 2 → sectionsHeld s d = true → rereadDue s (d ^^^ 1) .none = false →
    (∀ k, k < 2 → (memcOf s (d ^^^ 1) k).bad = []) → Completes (.goldenRestoreDone d) s fun t =>
    (dieOf t d).goldenWait = false ∧ ({ t with mem := s.mem, dies := s.dies } : State) = s)

/-- LOOM_P4 and LOOM_P8 start a command on its lane (R104-R117, R123, R142, R143). Of the order in which Table 4.8 is met, the spec says nothing: it is the model's choice (log entry 76). -/
def Obligations.LaneTakesItsCommand : Prop :=
  (∀ d c lane q l (o : TileOp) s, laneIdle s d c lane = true → laneRedo s d c lane = none → queueAt s d c lane = q :: l →
    tileOp s d c q.no = some o → o.no = q.no → o.st = 0 → o.lane = lane → s.faults.openFaults = [] → (coreOf s d c).upsets = [] →
    fget s (coreB d c) F.LOOM_CTRL_SPCHK_EN = 0 →
    let j := (joinOp d c o s).1
    let inWin := arrayInWindow s d c o.slot o.arr = true
    let open_ := laneFenced s d c lane = false
    let serving := (arrOf s (arrKey d c o.arr)).st = 2
    let lean := (arrOf s (arrKey d c o.arr)).mode = 1
    let started := fun t : State =>
      queueAt t d c lane = l ∧ (laneOf t d c lane).run = some q.no ∧ t.mem = s.mem ∧
      (∀ k, k ≠ lane → queueAt t d c k = queueAt s d c k) ∧
      (∃ o', tileOp t d c q.no = some o' ∧ o'.st = 1 ∧ o'.level = j.level ∧ o'.lean = j.lean ∧
        (¬inWin → o'.notFired = 3 ∧ o'.vals = []) ∧
        (inWin → laneFenced s d c lane = true → o'.notFired = 2 ∧ o'.vals = []) ∧
        (inWin → open_ → ¬serving → o'.notFired = 1 ∧ o'.vals = []) ∧
        (inWin → open_ → serving → lean → j.level = 1 → o'.notFired = 4 ∧ o'.vals = []) ∧
        (∀ p, inWin → open_ → serving → j.level = 0 ∨ (j.level = 1 ∧ ¬lean) → (j.lean = true ↔ lean) →
          Reads s d c o.slot (if j.level = 1 ∧ o.op = 1 then o.inAddr + 512 else o.inAddr) (if j.level = 1 then 528 else 272) p →
          (0xFF#8 ∈ mread s (spadAddr d c p) 16 → o'.notFired = 5 ∧ o'.vals = []) ∧
          (0xFF#8 ∉ mread s (spadAddr d c p) 16 → o'.notFired = 0 ∧ o'.vals.length = if j.lean then 192 else 128)))
    (leAt q.body 1 1 = 1 → Completes (.loomP4 d c lane) s started) ∧
    (leAt q.body 1 1 = 2 → Completes (.loomP8 d c lane) s started)) ∧
  (∀ d c lane no (o : TileOp) s, laneIdle s d c lane = true → laneRedo s d c lane = some no → tileOp s d c no = some o → o.no = no →
    o.st = 8 → o.joined = true → o.lane = lane → s.faults.openFaults = [] → (coreOf s d c).upsets = [] →
    fget s (coreB d c) F.LOOM_CTRL_SPCHK_EN = 0 → Completes (.loomP8 d c lane) s fun t =>
      (laneOf t d c lane).run = some no ∧ (coreOf t d c).redoQ = (coreOf s d c).redoQ.erase no ∧ t.mem = s.mem ∧
      (∀ k, queueAt t d c k = queueAt s d c k) ∧ ∃ o', tileOp t d c no = some o' ∧ o'.st = 1 ∧
        (o.lean = false → (∃ m, o.summ = some m ∧ m.dual = true) → o'.level = 1))

/-- Probes, the end of an operation and the indirect tables (R118, R121, R123-R128, R160, R205, R292). Which held lane delivers first is the model's choice (log entry 76). -/
def Obligations.ProbesOperationsAndTables : Prop :=
  (
  (∀ d c b s, let a := leAt b 2 2 % 512
    let key := arrKey d c a
    probeBad 3 b = false → laneQuiet s d c (a % 16) = true → laneFenced s d c (a % 16) = false → (arrOf s key).st = 2 ∨ (arrOf s key).st = 3 →
    fget s (coreB d c) F.LOOM_CTRL_SPCHK_EN = 0 → Completes (.loomWitnessProbe d c b) s fun t =>
      (∃ codes : List Int, codes.length = 8 ∧ (∀ x ∈ codes, -512 ≤ x ∧ x ≤ 511) ∧
        tget (fun _ => []) t.probes key = (let l := tget (fun _ => []) s.probes key; if l.length < odNum s 0x4203 then l ++ [codes] else l)) ∧
      (∀ k, k ≠ key → tget (fun _ => []) t.probes k = tget (fun _ => []) s.probes k) ∧
      opCount t d c = (opCount s d c + 1) % 2 ^ 64 ∧ t.mem = s.mem ∧ OtherCores d c s t ∧ (coreOf t d c).queues = (coreOf s d c).queues ∧
      t.loom.arrs = s.loom.arrs ∧ t.serve = s.serve) ∧
  (∀ d c b s, let a := leAt b 2 2 % 512
    probeBad 3 b = false → laneQuiet s d c (a % 16) = true → laneFenced s d c (a % 16) = true → Completes (.loomWitnessProbe d c b) s fun t =>
      (coreOf t d c).probeStat = leAt b 14 2 + 2 ^ 37 ∧ OtherCores d c s t ∧ ({ t with cores := s.cores } : State) = s) ∧
  (∀ d c b s, let lane := fget s (coreB d c) F.LOOM_PROBE_LANE
    probeBad 4 b = false → laneQuiet s d c lane = true → tracedLane s d ≠ some (16 * c + lane) → laneFenced s d c lane = false →
    fget s (coreB d c) F.LOOM_CTRL_SPCHK_EN = 0 → Completes (.loomProbeConversion d c b) s fun t =>
      fget t (coreB d c) F.LOOM_PROBERES_VALID = 1 ∧ opCount t d c = (opCount s d c + 1) % 2 ^ 64 ∧ t.mem = s.mem ∧ OtherCores d c s t ∧
      (coreOf t d c).queues = (coreOf s d c).queues ∧ t.loom.arrs = s.loom.arrs ∧ t.probes = s.probes ∧ t.serve = s.serve)) ∧
  (
  (∀ d c lane no (o : TileOp) s, (laneOf s d c lane).run = some no → tileOp s d c no = some o → o.no = no → o.st = 1 →
    laneFenced s d c lane = false → Completes (.loomOperationDone d c lane) s fun t =>
      t.mem = s.mem ∧ t.regs = s.regs ∧
      if tallyUsed s d c ≥ 32 then (laneOf t d c lane).run = some no ∧ tileOp t d c no = some { o with st := 2 }
      else (laneOf t d c lane).run = none ∧ tileOp t d c no = some { o with st := 3 } ∧
        (coreOf t d c).verdicts = (coreOf s d c).verdicts ++ [no]) ∧
  (∀ d c (o : TileOp) s, tallyUsed s d c < 32 → ((coreOf s d c).ops.find? fun x => x.st == 2) = some o → tileOp s d c o.no = some o →
    Completes (.tallyPlaceFree d c) s fun t =>
      (laneOf t d c o.lane).run = none ∧ tileOp t d c o.no = some { o with st := 3 } ∧
      (coreOf t d c).verdicts = (coreOf s d c).verdicts ++ [o.no] ∧ t.mem = s.mem ∧ t.regs = s.regs ∧ t.loom.arrs = s.loom.arrs) ∧
  (∀ d c v s, fget s (coreB d c) F.LOOM_IDX_TABLE = 0 → v % 8 < 6 → (natBit v 4 = true → natBit v 3 = true) →
    Completes (.loomIdataWrite d c v) s fun t =>
      ({ t with loom := { t.loom with arrs := s.loom.arrs }, probes := s.probes } : State) = s ∧
      (let k := arrKey d c (fget s (coreB d c) F.LOOM_IDX_ARRAY)
       (arrOf t k).mode = natBits v 3 1 ∧ (arrOf t k).wfmt = natBits v 4 1 ∧ (arrOf t k).gen = natBits v 8 8 ∧
       (if arrayBusy s d c (fget s (coreB d c) F.LOOM_IDX_ARRAY) = true then (arrOf t k).st = (arrOf s k).st ∧ (arrOf t k).later = some (v % 8)
        else (arrOf t k).st = v % 8 ∧ (arrOf t k).later = none) ∧
       ∀ k', k' ≠ k → arrOf t k' = arrOf s k' ∧ tget (fun _ => []) t.probes k' = tget (fun _ => []) s.probes k')))

/-- The ladder's verdicts and grants (R140-R143, R150, R152, R198). That CORE_LADCNT_TRB counts each verdict of trouble, and that a grant is written as at most 65,535, are the model's choices (log entry 76). -/
def Obligations.LadderVerdicts : Prop :=
  (∀ d c no l (o : TileOp) s, (coreOf s d c).verdicts = no :: l → tileOp s d c no = some o → o.no = no → o.notFired = 0 → o.deg = false → o.level ≠ 2 →
    fget s (coreB d c) F.CORE_LADCTRL_EN = 0 ∨ inTrouble s d c o = false → Completes (.ladderVerdict d c) s fun t =>
      (coreOf t d c).verdicts = l ∧ tileOp t d c no = some { o with st := 6, outcome := if o.skipped then 2 else 1, deg := false } ∧
      (let e := if o.level = 1 then 0x4112 else 0x4111
       odNum t e = satAdd (odBits e 0) 1 (odNum s e) ∧ OdKept [(e, 0)] s t) ∧ t.mem = s.mem ∧ t.regs = s.regs ∧ t.loom = s.loom) ∧
  (∀ d c no l (o : TileOp) m s, (coreOf s d c).verdicts = no :: l → tileOp s d c no = some o → o.no = no → o.notFired = 0 → o.deg = false → o.level = 0 →
    fget s (coreB d c) F.CORE_LADCTRL_EN = 1 → inTrouble s d c o = true → o.lean = false → o.summ = some m → m.clamp = 0 → m.dual = true →
    Completes (.ladderVerdict d c) s fun t =>
      (coreOf t d c).verdicts = l ∧ (coreOf t d c).redoQ = (coreOf s d c).redoQ ++ [no] ∧
      tileOp t d c no = some { o with st := 8, counted := true } ∧
      fget t (coreB d c) F.CORE_LADCNT_TRB_COUNT = (fget s (coreB d c) F.CORE_LADCNT_TRB_COUNT + 1) % 2 ^ F.CORE_LADCNT_TRB_COUNT.width ∧
      fget t (coreB d c) F.CORE_LADCNT_P8_COUNT = (fget s (coreB d c) F.CORE_LADCNT_P8_COUNT + 1) % 2 ^ F.CORE_LADCNT_P8_COUNT.width ∧
      t.mem = s.mem ∧ t.od = s.od ∧ t.loom = s.loom) ∧
  (∀ d c no l (o : TileOp) m s, (coreOf s d c).verdicts = no :: l → tileOp s d c no = some o → o.no = no → o.notFired = 0 → o.deg = false → o.level = 2 →
    o.floorExempt = false → o.summ = some m → grantLeft s d c = true → Completes (.ladderVerdict d c) s fun t =>
      (coreOf t d c).verdicts = l ∧
      (let x := coreOf s d c
       if x.p16Q.length ≤ 8 then (coreOf t d c).p16Q = x.p16Q ++ [no] ∧ (coreOf t d c).p16Held = x.p16Held
       else (coreOf t d c).p16Q = x.p16Q ∧ (coreOf t d c).p16Held = x.p16Held ++ [no]) ∧
      tileOp t d c no = some { o with st := 5, exempt := false, cover := false, care := false } ∧
      fget t (coreB d c) F.CORE_STORM_USED = satAdd F.CORE_STORM_USED.width 1 (fget s (coreB d c) F.CORE_STORM_USED) ∧
      t.mem = s.mem ∧ t.od = s.od ∧ t.loom = s.loom) ∧
  (∀ d c s, (coreOf s d c).grantQ = [] → Completes (.stormGrantWrite d c) s
    (OnlyField (coreB d c) F.CORE_STORM_GRANT 0 (min s.serve.stormCur 65535) s)) ∧
  (∀ d c no (o : TileOp) s, (coreOf s d c).grantQ = [no] → tileOp s d c no = some o → o.no = no → (coreOf s d c).p16Q.length ≤ 8 →
    fget s (coreB d c) F.CORE_STORM_USED < min s.serve.stormCur 65535 → Completes (.stormGrantWrite d c) s fun t =>
      (coreOf t d c).grantQ = [] ∧ (coreOf t d c).p16Q = (coreOf s d c).p16Q ++ [no] ∧ t.mem = s.mem ∧ t.serve = s.serve ∧
      fget t (coreB d c) F.CORE_STORM_USED = fget s (coreB d c) F.CORE_STORM_USED + 1)

/-- A CLEAR at the front writes a target of N empty entries (version 0x10, N, ADDS 0, every other byte 0) and no other byte of memory. A MERGE without ACCUM of a source whose header is valid leaves the destination reading as the source, entry by entry with the same N and ADDS, counts one merge and changes no other byte. Each leaves the queue without its command. -/
def Obligations.TallyClearsAndMerges : Prop :=
  (∀ d c q l p s, AtFront s d c 18 3 q l → isBlocked s d c q.no = false →
    let k := tallyOf q.body
    Writes s d c q.slot k.a (16 + 16 * k.n) p → Completes (.tallyClear d c) s fun t =>
      queueAt t d c 18 = l ∧ t.regs = s.regs ∧ t.od = s.od ∧
      mread t (spadAddr d c p) (16 + 16 * k.n) =
        [0x10#8, 0#8, BitVec.ofNat 8 k.n, BitVec.ofNat 8 (k.n / 256)] ++ List.replicate (12 + 16 * k.n) 0#8 ∧
      MemKept (spadAddr d c p) (16 + 16 * k.n) s t) ∧
  (∀ d c q l p p' s, AtFront s d c 18 1 q l → isBlocked s d c q.no = false →
    let k := tallyOf q.body
    let n := 16 + 16 * k.n
    k.accum = false → Reads s d c q.slot k.a n p → Writes s d c q.slot k.b n p' →
    verOk (mread s (spadAddr d c p) n) = true → leAt (mread s (spadAddr d c p) n) 2 2 = k.n → Completes (.tallyMerge d c) s fun t =>
      queueAt t d c 18 = l ∧
      Target.read k.n (mread t (spadAddr d c p') n) = Target.read k.n (mread s (spadAddr d c p) n) ∧
      fget t (coreB d c) F.CORE_TALCNT_MRG_COUNT = (fget s (coreB d c) F.CORE_TALCNT_MRG_COUNT + 1) % 2 ^ F.CORE_TALCNT_MRG_COUNT.width ∧
      MemKept (spadAddr d c p') n s t)

/-- With no wrong result in the adders, the addition of an accepted tile result to a fresh target writes, for each output value v in units of 2^-4, the entry with T = v * 2^44, frame F equal to the tile exponent, and the flags LIVE and ANALOG alone, N outputs and ADDS 1, settles the operation and counts it. A DRAIN of a valid target writes its N outputs and, at the next multiple of 16, a summary with version 0x10, N and ADDS of the target; it changes no other byte, counts one drain, and fails the stitch check where an output is range-flagged. -/
def Obligations.TallyAddsAndDrains : Prop :=
  (∀ d c no (o : TileOp) p s, d < 8 → c < 72 → o.slot < 4 → isBlocked s d c no = false → coreFenced s d c = false →
    ((coreOf s d c).ops.find? fun x => x.no == no && x.st == 6) = some o → tileOp s d c no = some o → o.no = no → o.outcome = 1 → o.accum = false →
    o.skipped = false → o.deg = false → o.eTile < 256 → (∀ v ∈ o.vals, v.natAbs < 2 ^ 34) → o.outAddr % 16 = 0 →
    (coreOf s d c).glitches = [] →
    let n := if o.lean then 192 else 128
    o.vals.length = n → Writes s d c o.slot o.outAddr (16 + 16 * n) p → Completes (.tallyAddition d c no) s fun t =>
      Target.read n (mread t (spadAddr d c p) (16 + 16 * n)) = ⟨n, 1, o.vals.map fun v => ⟨v * 2 ^ 44, o.eTile, 3⟩⟩ ∧
      MemKept (spadAddr d c p) (16 + 16 * n) s t ∧
      tileOp t d c no = some { o with st := 7, gates := [] } ∧
      fget t (coreB d c) F.CORE_TALCNT_TILE_COUNT = (fget s (coreB d c) F.CORE_TALCNT_TILE_COUNT + 1) % 2 ^ F.CORE_TALCNT_TILE_COUNT.width) ∧
  (∀ d c q l p pw po ps s, AtFront s d c 18 2 q l → isBlocked s d c q.no = false → (coreOf s d c).glitches = [] →
    let k := tallyOf q.body
    let n := 16 + 16 * k.n
    let w := if k.bf16 then 2 else 4
    let sum := (k.b + w * k.n + 15) / 16 * 16
    Reads s d c q.slot k.a n p → (k.wsen = true → Reads s d c q.slot k.c k.n pw) → Writes s d c q.slot k.b (w * k.n) po →
    Writes s d c q.slot sum 16 ps →
    verOk (mread s (spadAddr d c p) n) = true → leAt (mread s (spadAddr d c p) n) 2 2 = k.n → Completes (.tallyDrain d c) s fun t =>
      queueAt t d c 18 = l ∧
      (let b := mread t (spadAddr d c ps) 16
       leAt b 0 1 = 0x10 ∧ leAt b 2 2 = k.n ∧ leAt b 4 2 = leAt (mread s (spadAddr d c p) n) 4 2 ∧
       (leAt b 6 2 > 0 → q.slot ∈ (coreOf t d c).failed)) ∧
      (∀ a, (a < spadAddr d c po ∨ spadAddr d c po + w * k.n ≤ a) → (a < spadAddr d c ps ∨ spadAddr d c ps + 16 ≤ a) → mget t a = mget s a) ∧
      fget t (coreB d c) F.CORE_TALCNT_DRN_COUNT = (fget s (coreB d c) F.CORE_TALCNT_DRN_COUNT + 1) % 2 ^ F.CORE_TALCNT_DRN_COUNT.width)

/-- A matrix command (LRZ, LRU or MATV) whose operands can be read leaves one result per vector, for its targets in order, each of N values; without weight scales the values are the mender products of its weights and inputs. A BIAS leaves one result of N values, a TERM with no outlier list an empty one that names its loom command. Each leaves the queue without its command, changes no memory, and puts the result last among those that wait. -/
def Obligations.MenderResultsAwaitTheirAddition : Prop :=
  (∀ d c q l pw pws s, AtFront s d c 17 (leAt q.body 1 1) q l →
    let m := mendOf q.body
    ∀ px : Nat → Nat, Reads s d c q.slot m.w (m.n * m.k * weightBytes m.wfmt) pw → (m.wsen = true → Reads s d c q.slot m.ws m.n pws) →
    (∀ i, i < m.m → Reads s d c q.slot (m.x + 16 * m.xstr * i) (m.k * if m.xbf16 then 2 else 4) (px i)) →
    let x := fun i => (sourceVec m.xbf16 m.k (mread s (spadAddr d c (px i)) (m.k * if m.xbf16 then 2 else 4))).map (mendInput m.fp8 m.pre)
    let y := fun i => mendRows m.wfmt (mread s (spadAddr d c pw) (m.n * m.k * weightBytes m.wfmt)) m.k m.n (x i)
    let left := fun t : State => queueAt t d c 17 = l ∧ t.mem = s.mem ∧
      ∃ parts : List (Nat × List Nat), (coreOf t d c).adds = (coreOf s d c).adds ++ [⟨q.no, q.slot, q.entry, parts, none, none⟩] ∧
        parts.map (fun p => p.1) = (List.range m.m).map (fun i => m.out + 16 * m.ostr * i) ∧ (∀ p ∈ parts, p.2.length = m.n) ∧
        (m.wsen = false → parts.map (fun p => p.2) = (List.range m.m).map y)
    (leAt q.body 1 1 = 1 → Completes (.menderLrz d c) s left) ∧
    (leAt q.body 1 1 = 2 → Completes (.menderLru d c) s left) ∧
    (leAt q.body 1 1 = 5 → Completes (.menderMatv d c) s left)) ∧
  (∀ d c q l p pws s, AtFront s d c 17 4 q l →
    let m := mendOf q.body
    Reads s d c q.slot m.x (2 * m.n) p → (m.wsen = true → Reads s d c q.slot m.ws m.n pws) → Completes (.menderBias d c) s fun t =>
      queueAt t d c 17 = l ∧ t.mem = s.mem ∧
      ∃ y : List Nat, (coreOf t d c).adds = (coreOf s d c).adds ++ [⟨q.no, q.slot, q.entry, [(m.out, y)], none, none⟩] ∧ y.length = m.n) ∧
  (∀ d c q l s, AtFront s d c 17 3 q l →
    let m := mendOf q.body
    (m.n = match (coreOf s d c).ops.find? (fun o => o.no + 1 == q.ref) with | some o => if o.lean then 192 else 128 | none => 128) → m.l = 0 →
    Completes (.menderTerm d c) s fun t =>
      queueAt t d c 17 = l ∧ t.mem = s.mem ∧ t.regs = s.regs ∧
      (coreOf t d c).adds = (coreOf s d c).adds ++ [⟨q.no, q.slot, q.entry, [(m.out, [])], some (q.ref - 1), none⟩])

/-- The front P16 redo whose source vector and golden copy can be read, with a place in the tally where it would wait, delivers one value per output, 192 lean or 128 nested, awaiting its addition as P16, counts itself, and lets in the first redo that the ladder holds; no memory changes. A drift entry below 192 written through MEND_DDATA joins the staged record of its array, leaving every entry in force as it was; an entry from 192 on or a ninth array is refused with a notice. A command that has completed leaves its engine with one command fewer outstanding. -/
def Obligations.RedoneStagedAndCompleted : Prop :=
  (∀ d c no l (o : TileOp) (m : Summ) p s, (coreOf s d c).p16Q = no :: l → tileOp s d c no = some o → o.no = no → o.summ = some m →
    isBlocked s d c no = false ∨ tallyUsed s d c < 32 → rereadDue s (coverSource s d c).1 (.redo d c) = false → FoliosClean s (coverSource s d c).1 →
    Reads s d c o.slot m.src (m.k * if m.bf16 then 2 else 4) p → Completes (.p16RedoDone d c) s fun t =>
      (coreOf t d c).p16Q = l ++ (coreOf s d c).p16Held.take 1 ∧ (coreOf t d c).p16Held = (coreOf s d c).p16Held.drop 1 ∧ t.mem = s.mem ∧
      (∃ y : List Nat, tileOp t d c no = some { o with st := 6, outcome := 3, p16 := y } ∧ y.length = if o.lean then 192 else 128) ∧
      odNum t 0x4113 = satAdd (odBits 0x4113 0) 1 (odNum s 0x4113) ∧ odNum t 0x4143 = satAdd (odBits 0x4143 0) 1 (odNum s 0x4143)) ∧
  (∀ d c g o s, let a := fget s (coreB d c) F.MEND_DIDX_ARRAY
    let e := fget s (coreB d c) F.MEND_DIDX_ENTRY
    let st := (coreOf s d c).staged
    e < 192 → st.length < 8 ∨ (∃ l, (a, l) ∈ st) → Completes (.mendDdataWrite d c g o) s fun t =>
      t.loom = s.loom ∧ t.mem = s.mem ∧ t.regs = s.regs ∧ OtherCores d c s t ∧
      ∃ l, (coreOf t d c).staged = (st.filter fun p => p.1 != a) ++ [(a, l)] ∧ l[e]? = some (sext 8 g, sext 8 o)) ∧
  (∀ d c g o s, let a := fget s (coreB d c) F.MEND_DIDX_ARRAY
    192 ≤ fget s (coreB d c) F.MEND_DIDX_ENTRY ∨ (8 ≤ (coreOf s d c).staged.length ∧ ∀ p ∈ (coreOf s d c).staged, p.1 ≠ a) → Completes (.mendDdataWrite d c g o) s fun t =>
      (coreOf t d c).staged = (coreOf s d c).staged ∧ odNum t 0x8000 5 = satAdd (odBits 0x8000 5) 1 (odNum s 0x8000 5)) ∧
  (∀ d c e s, busyOf s d c e < outOf s d c e → Completes (.engineCommandDone d c e) s fun t =>
      outOf t d c e + 1 = outOf s d c e ∧ (∀ e', e' ≠ e → outOf t d c e' = outOf s d c e') ∧ t.mem = s.mem ∧ t.od = s.od ∧ OtherCores d c s t)

/-- A calibration within the limits of Table 9.2 gives the ADC the OFFS and GTRIM that undo the offset and gain error found and ends it: a working ADC converts again with no spare in its place, a spare is free. One outside them retires the ADC, in flash too. The periodic round takes the next ADC of a lane that is not fenced: a working one calibrates with a free spare in its place, and is passed over, the round incomplete, where none is free. A suspect ADC whose shadow period of WINDOW rounds has passed converts again with fewer than STRIKES disagreements, and else is retired. -/
def Obligations.AdcsCalibrateAndReturn : Prop :=
  (∀ d c lane n (o g : Int) dnl inl s, d < 8 → c < 72 → lane < 16 → n < 136 → (adcOf s d c lane n).st = 3 → calPasses o g dnl inl = true →
    Completes (.adcSelfCalibrationDone d c lane n o g dnl inl) s fun t =>
      (let x := adcOf t d c lane n
       x.offs = -ratRne ((o : Rat) / 16) ∧ x.gtrim = -ratRne ((g : Rat) / 16) ∧ x.st = (if n < 128 then 0 else 1) ∧ x.cal = true) ∧
      (n < 128 → ∀ i, i < 8 → (adcOf t d c lane (128 + i)).stands ≠ n + 1) ∧
      odNum t (0x4300 + d) 5 = satAdd (odBits (0x4300 + d) 5) 1 (odNum s (0x4300 + d) 5) ∧ t.mem = s.mem ∧ t.cores = s.cores) ∧
  (∀ d c lane n (o g : Int) dnl inl s, d < 8 → c < 72 → lane < 16 → n < 128 → (adcOf s d c lane n).st = 3 → calPasses o g dnl inl = false →
    s.faults.openFaults = [] → Completes (.adcSelfCalibrationDone d c lane n o g dnl inl) s fun t =>
      (adcOf t d c lane n).st = 5 ∧ n ∈ (lanePermOf t d c lane).retired) ∧
  (∀ d c lane s, d < 8 → c < 72 → lane < 16 → laneFenced s d c lane = false → coreFenced s d c = false →
    let n := (laneOf s d c lane).nextAdc
    n < 128 → (adcOf s d c lane n).st = 0 → Completes (.adcPeriodicCalibration d c lane) s fun t =>
      (laneOf t d c lane).nextAdc = n + 1 ∧ t.mem = s.mem ∧ t.cores = s.cores ∧
      (∀ i, freeSpare s d c lane false = some i → (adcOf t d c lane n).st = 3 ∧
        (adcOf t d c lane (128 + i)).st = 2 ∧ (adcOf t d c lane (128 + i)).stands = n + 1) ∧
      (freeSpare s d c lane false = none → t.loom.adcs = s.loom.adcs ∧ (laneOf t d c lane).incomplete = true)) ∧
  (∀ d c lane n s, d < 8 → c < 72 → lane < 16 → n < 128 → (adcOf s d c lane n).st = 4 →
    fget s (coreB d c) F.LOOM_SPCHK_WINDOW < (adcOf s d c lane n).shade → (∀ o ∈ s.faults.openFaults, o.cls = 1 ∧ o.code ≠ 0x0202) →
    let k := (adcOf s d c lane n).strikes.length
    Completes (.adcShadowDone d c lane n) s fun t =>
      (k < fget s (coreB d c) F.LOOM_SPCHK_STRIKES → (adcOf t d c lane n).st = 0 ∧ t.mem = s.mem ∧ t.cores = s.cores ∧
        ∀ i, i < 8 → (adcOf t d c lane (128 + i)).stands ≠ n + 1) ∧
      (fget s (coreB d c) F.LOOM_SPCHK_STRIKES ≤ k → (adcOf t d c lane n).st = 5 ∧ n ∈ (lanePermOf t d c lane).retired))

/-- The die reference check passes at 50 uV or less and is kept either way; a passing one lets a retrace begin. On its turn, with the reference valid, no die reference offset and the nominal trace capacitor, a trace of five exactly nominal charges (16 product units a code) gives its lane KP 16 (2^20 in units of 2^-16) and ZP 0, marked traced; five zero charges fence a lane, an F2. The column table at the front of a core's queue gives its array one entry per output and the lane's trace mark, and stages its drift entries. A due retrace lists exactly the lanes that are not fenced of the enabled cores that are not fenced, and waits for a reference check. -/
def Obligations.ReferenceAndTraces : Prop :=
  (∀ d uv s, d < 8 → s.faults.openFaults = [] → Completes (.referenceCheckDone d uv) s fun t =>
    ((dieOf t d).refOk = true ↔ uv.natAbs ≤ 50) ∧ tget (fun _ => (0, false)) t.loom.refs d = (uv, decide (uv.natAbs ≤ 50)) ∧
    (uv.natAbs ≤ 50 → d ∉ t.care.refWait) ∧ (50 < uv.natAbs → t.care.refWait = s.care.refWait) ∧
    t.mem = s.mem ∧ t.cores = s.cores ∧ t.faults.openFaults = []) ∧
  (∀ d c lane r s, d < 8 → c < 72 → lane < 16 → traceTurn s d c lane = true →
    refCalOkNow s = true → (dieOf s d).refOk = true → (tget (fun _ => (0, false)) s.loom.refs d).1 = 0 → tget (fun _ => 1) s.loom.caps d = 1 →
    Completes (.probeDacTraceDone d c lane r ([-2000, -1000, 0, 1000, 2000].map fun k => 16 * k * 65536)) s fun t =>
      (laneOf t d c lane).kp = 2 ^ 20 ∧ (laneOf t d c lane).zp = 0 ∧ (laneOf t d c lane).untraced = false ∧ (laneOf t d c lane).ran = true ∧
      lanePermOf t d c lane = { lanePermOf s d c lane with kp := 2 ^ 20, zp := 0, ratio := r, refcal := odNum s 0x2031, time := hubTime s } ∧
      t.mem = s.mem ∧ t.cores = s.cores) ∧
  (∀ d c lane r s, d < 8 → c < 72 → lane < 16 → traceTurn s d c lane = true → refCalOkNow s = true → laneFenced s d c lane = false →
    s.faults.openFaults = [] → Completes (.probeDacTraceDone d c lane r [0, 0, 0, 0, 0]) s fun t =>
      laneFenced t d c lane = true ∧ odNum t (0x4300 + d) 7 = satAdd (odBits (0x4300 + d) 7) 1 (odNum s (0x4300 + d) 7)) ∧
  (∀ d c a codes s, tableAt s d c = some a → Completes (.columnTableDone d c a codes) s fun t =>
    let x := accOf t (arrKey d c a)
    x.col.length = min (arrOutputs s (arrKey d c a)) codes.length ∧ x.untraced = (laneOf s d c (a % 16)).untraced ∧
    (careOf t d c).tabQ = (careOf s d c).tabQ.erase a ∧
    ((∃ l, (a, l) ∈ (coreOf t d c).staged) ∨ a ∈ (careOf t d c).stageQ) ∧ t.mem = s.mem ∧ t.regs = s.regs) ∧
  (∀ d s, tget (fun _ => []) s.care.retrace d = [] → Completes (.laneRetraceDue d) s fun t =>
    ({ t with care := s.care } : State) = s ∧ d ∈ t.care.refWait ∧
    ∀ k, k ∈ tget (fun _ => []) t.care.retrace d ↔
      k / 16 < 72 ∧ coreEnabled s d (k / 16) = true ∧ coreFenced s d (k / 16) = false ∧ laneFenced s d (k / 16) (k % 16) = false)

/-- A due witness period begins the probes of the next array of the core's round. An evaluation on its turn with enough probes whose corrected codes are the ideal ones finds deviation 0 at the core's temperature and hub time, and in an assay records gain 1 and offset 0 as the base. Staleness is noted once. A settled, fresh, traced array within 0.25 % of its cells at 25 to 85 C, whose entries do not lag, has the bound 0.800 %, an array below 10 C the code 0xFFFF. Ten seconds at a mean junction of 85 C add 1/360 hour to the age of every array that is not Unprogrammed. -/
def Obligations.WitnessesBoundsAndAges : Prop :=
  (∀ d c a s, nextEval s d c = some a → Completes (.witnessPeriodDue d c a) s fun t =>
      ({ t with probes := s.probes, care := s.care } : State) = s ∧ careOf t d c = { careOf s d c with turn := a } ∧
      tget (fun _ => []) t.probes (arrKey d c a) = [] ∧
      ∀ k, k ≠ arrKey d c a → tget (fun _ => []) t.probes k = tget (fun _ => []) s.probes k) ∧
  (∀ d c a s, (arrOf s (arrKey d c a)).st = 2 ∨ (arrOf s (arrKey d c a)).st = 3 → laneFenced s d c (a % 16) = false →
    (assaying s d c = true → sweepTurn s d c = true) → (∀ k, k < 8 → adcCorr s d c (a % 16) k = 0) →
    let l := tget (fun _ => []) s.probes (arrKey d c a)
    odNum s 0x4203 ≤ l.length → 0 < l.length → (∀ p ∈ l, p.drop 2 = [384, -384, 192, -192, 48, -48]) → (winOf s (halfDie d c)).st ≠ 3 →
    Completes (.witnessEvaluationDone d c a) s fun t =>
      let x := accOf t (arrKey d c a)
      x.evaluated = true ∧ x.stale = false ∧ x.dev2 = 0 ∧ x.at_ = hubTime s ∧ x.tev = junction s d c ∧
      (assaying s d c = true → x.gam0 = 1 ∧ x.om0 = 0 ∧ x.t0 = junction s d c ∧ x.rho = 1 ∧ x.dom = 0) ∧
      tget (fun _ => []) t.probes (arrKey d c a) = [] ∧ t.mem = s.mem) ∧
  (∀ d c a s, (arrOf s (arrKey d c a)).st = 2 ∨ (arrOf s (arrKey d c a)).st = 3 → (accOf s (arrKey d c a)).stale = false →
    Completes (.arrayStale d c a) s fun t =>
      accOf t (arrKey d c a) = { accOf s (arrKey d c a) with stale := true } ∧ t.mem = s.mem ∧ t.cores = s.cores ∧
      odNum t 0x8000 5 = satAdd (odBits 0x8000 5) 1 (odNum s 0x8000 5)) ∧
  (∀ d c s, Completes (.boundEvaluation d c) s fun t =>
    ({ t with loom := { t.loom with accs := s.loom.accs } } : State) = s ∧
    ∀ a, a < 512 → (arrOf s (arrKey d c a)).st = 2 →
      (junction s d c < 640 → (accOf t (arrKey d c a)).bound = 0xFFFF) ∧
      (1600 ≤ junction s d c → junction s d c ≤ 5440 → fget s (coreB d c) F.ASSY_WSTAT_SETTLING = 0 →
        fget s (coreB d c) F.LOOM_STAT_FRUGAL_ACT = 0 → (accOf s (arrKey d c a)).stale = false → (accOf s (arrKey d c a)).untraced = false →
        devPct (accOf s (arrKey d c a)).dev2 ≤ 1 / 4 → (accOf s (arrKey d c a)).lag = false → entriesLag s d c a = false →
        (accOf t (arrKey d c a)).bound = 800)) ∧
  (∀ d c s, meanJunction s d c = 85 → Completes (.ageUpdate d c) s fun t =>
    ({ t with loom := { t.loom with accs := s.loom.accs } } : State) = s ∧
    ∀ a, a < 512 → let x := accOf s (arrKey d c a)
      accOf t (arrKey d c a) = if (arrOf s (arrKey d c a)).st ≠ 0 then { x with age := x.age + 1 / 360 } else x)

/-- An accepted write of OD 0x4340 whose KIND is that of the row: a core logic test or a full core assay becomes due on the core, a lane ADC calibration round begins with the lane's first ADC where none runs, a lane joins its die's retrace, an array's assay is requested. The write answers status 0x00. An accepted maker write of OD 0xF100 clears the array's remap table and a retirement of reason 1, keeps which spares have failed, and leaves the array Unprogrammed where it was not retired for another reason. -/
def Obligations.ActivitiesAndRemapReset : Prop :=
  (∀ w v s, odCheck w 0x4340 0 v (dieState s (natBits v.nat 8 3) != 3) s = 0 → activityStatus s v.nat = 0 →
    let d := natBits v.nat 8 3
    let c := natBits v.nat 11 7
    let a := natBits v.nat 18 9
    let done := fun t : State => t.mgmt.resp.status = 0 ∧ t.mem = s.mem ∧ t.cores = s.cores
    (natBits v.nat 0 8 = 1 → Completes (.activityCoreLogicTest w v) s fun t => done t ∧ careOf t d c = { careOf s d c with test := max 1 (careOf s d c).test }) ∧
    (natBits v.nat 0 8 = 2 → (laneOf s d c a).nextAdc = 0 → (adcOf s d c a 0).st = 0 → freeSpare s d c a false ≠ none →
      Completes (.activityLaneAdcCalibration w v) s fun t => done t ∧ (adcOf t d c a 0).st = 3 ∧ (laneOf t d c a).nextAdc = 1) ∧
    (natBits v.nat 0 8 = 3 → Completes (.activityLaneRetrace w v) s fun t => done t ∧
      ∀ k, k ∈ tget (fun _ => []) t.care.retrace d ↔ k = 16 * c + a ∨ k ∈ tget (fun _ => []) s.care.retrace d) ∧
    (natBits v.nat 0 8 = 4 → Completes (.activityArrayAssay w v) s fun t => done t ∧ a ∈ (careOf t d c).arrReq) ∧
    (natBits v.nat 0 8 = 5 → (careOf s d c).asked = false → Completes (.activityFullCoreAssay w v) s fun t =>
      done t ∧ (careOf t d c).assay = max 1 (careOf s d c).assay ∧ (careOf t d c).asked = true)) ∧
  (∀ w v d c a s, selArray v.nat = some (d, c, a) → odCheck w 0xF100 0 v (dieState s d != 3) s = 0 → Completes (.remapResetArray w v) s fun t =>
    (permOf t (arrKey d c a)).remap = [] ∧ (permOf t (arrKey d c a)).bad = (permOf s (arrKey d c a)).bad ∧ (permOf t (arrKey d c a)).cyc = (permOf s (arrKey d c a)).cyc ∧
    ((permOf s (arrKey d c a)).reason ≤ 1 → (permOf t (arrKey d c a)).reason = 0 ∧ arrOf t (arrKey d c a) = Arr.blank) ∧
    (2 ≤ (permOf s (arrKey d c a)).reason → (permOf t (arrKey d c a)).reason = (permOf s (arrKey d c a)).reason ∧
      arrOf t (arrKey d c a) = arrOf s (arrKey d c a)) ∧ t.mgmt.resp.status = 0 ∧ t.mem = s.mem)

/-- In a running programming whose junction is within 20 to 70 C, an iteration gives each column of the group at work that its verify read finds in its band, and that is not yet accepted or failing, the level its tile's codes ask for in the present row, and changes no other cell. A row with its 13 groups done and no failing column is followed by the next. Out of range the engine pauses and counts it; in range, with the die released and the codes resident, it resumes and an Offline array is Programming again. -/
def Obligations.ProgrammingWritesItsRow : Prop :=
  (∀ d c reads p s, (careOf s d c).prog = some p → p.paused = false → p.row < 512 → p.group ≤ 12 → (arrOf s (arrKey d c p.arr)).st = 1 →
    pulseRange s d c = true → FoliosClean s d →
    let cell := fun col => arrKey d c p.arr * 2 ^ 19 + p.row * 2 ^ 10 + col
    let inBand := fun col => verifyRead (p.iter == 0 || p.restart.contains col) (verifyTarget s d c p.arr p.row col) (reads.getD (col % 64) 0) = 1
    Completes (.writeVerifyIteration d c reads) s fun t =>
      (∀ col, col < 816 → (col / 64 = p.group ∧ col ∉ p.accepted ∧ col ∉ p.failing ∧ inBand col) →
        tget (fun _ => 0) t.loom.cells (cell col) = cellTarget s d c p.arr p.row col) ∧
      (∀ k, (∀ col, col < 816 → col / 64 = p.group → col ∉ p.accepted → col ∉ p.failing → inBand col → k ≠ cell col) →
        tget (fun _ => 0) t.loom.cells k = tget (fun _ => 0) s.loom.cells k) ∧
      (∃ p', (careOf t d c).prog = some p' ∧ p'.arr = p.arr ∧ p'.row = p.row ∧ p'.paused = false ∧ ∀ x ∈ p.failing, x ∈ p'.failing) ∧
      t.mem = s.mem ∧ t.regs = s.regs ∧ t.cores = s.cores) ∧
  (∀ d c p s, (careOf s d c).prog = some p → p.paused = false → p.row < 512 → 12 < p.group → (arrOf s (arrKey d c p.arr)).st = 1 → p.failing = [] →
    Completes (.programmingRowDone d c) s fun t =>
      (careOf t d c).prog = some { p with row := p.row + 1, overs := [], group := 0 } ∧ ({ t with care := s.care } : State) = s) ∧
  (∀ d c p s, (careOf s d c).prog = some p → p.paused = false → pulseRange s d c = false → Completes (.programmingPause d c) s fun t =>
      (careOf t d c).prog = some { p with paused := true } ∧ t.mem = s.mem ∧ t.loom = s.loom ∧
      fget t (coreB d c) F.ASSY_CNT_PAUSE_COUNT = (fget s (coreB d c) F.ASSY_CNT_PAUSE_COUNT + 1) % 2 ^ F.ASSY_CNT_PAUSE_COUNT.width) ∧
  (∀ d c p s, (careOf s d c).prog = some p → p.paused = true → pulseRange s d c = true → halted s = false → dieState s d = 2 →
    codesHeld s (arrKey d c p.arr) = true → Completes (.programmingResume d c) s fun t =>
      (careOf t d c).prog = some { p with paused := false } ∧ t.mem = s.mem ∧ t.regs = s.regs ∧
      (arrOf t (arrKey d c p.arr)).st = if (arrOf s (arrKey d c p.arr)).st = 4 then 1 else (arrOf s (arrKey d c p.arr)).st)

/-- With no other request waiting, the expiry of RTHOLD under AUTO with work on the half-die, and an accepted write of OD 0x4315, ask the die for a closed window that may be granted, and else leave the request waiting. A requested window whose cores are all in range opens, is counted, and, with cycles left on the half-die's arrays, every idle core that is not fenced and has a queued tile begins to program it from row 0. WINMAX lets a window of re-tempering end after what is under way, or closes it at once. WINGAP ends the gap. -/
def Obligations.WriteWindows : Prop :=
  (∀ h s, let asked := fun t : State => t.mem = s.mem ∧ t.loom = s.loom ∧
      (if grantable s h then (winOf t h).st = 2 ∧ fget t (dieB (h / 2)) F.THRM_HALF_WINREQ (h % 2) = 1
       else (winOf t h).st = 1 ∧ t.care.winQ = [h])
    h < 16 → s.care.winQ = [] → (winOf s h).st = 0 → (winOf s h).again = false →
    (odNum s 0x4314 = 0 → halfHasWork s h = true → Completes (.rtholdExpiry h) s asked) ∧
    (∀ w v, odCheck w 0x4315 0 v (dieState s (h / 2) != 3) s = 0 → v.nat = h → Completes (.windowRequest w v) s fun t =>
      asked t ∧ (winOf t h).asked = true ∧ t.mgmt.resp.status = 0)) ∧
  (∀ h s, h < 16 → (winOf s h).st = 2 → halfWithin s h = true → (winOf s h).again = false → s.care.winQ = [] →
    (∀ c a, c ∈ halfCores (h % 2) → a ∈ (careOf s (h / 2) c).queue → a < 512) →
    (∀ c a, c ∈ halfCores (h % 2) → a < 512 → (permOf s (arrKey (h / 2) c a)).cyc < 10000) → Completes (.windowOpen h) s fun t =>
      fget t (dieB (h / 2)) F.THRM_CNT_WIN_COUNT = (fget s (dieB (h / 2)) F.THRM_CNT_WIN_COUNT + 1) % 2 ^ F.THRM_CNT_WIN_COUNT.width ∧
      (((winOf t h).st = 3 ∧ fget t (dieB (h / 2)) F.THRM_HALF_WINOPEN (h % 2) = 1) ∨
       ((winOf t h).st = 0 ∧ (winOf t h).gap = true ∧ fget t (dieB (h / 2)) F.THRM_HALF_WINOPEN (h % 2) = 0)) ∧
      (∀ c a l, (winOf s h).closing = false → c ∈ halfCores (h % 2) → (careOf s (h / 2) c).prog = none → coreFenced s (h / 2) c = false →
        (careOf s (h / 2) c).queue = a :: l →
        (winOf t h).st = 3 ∧ ∃ p, (careOf t (h / 2) c).prog = some p ∧ p.arr = a ∧ p.row = 0)) ∧
  (∀ h s, h < 16 → (winOf s h).st = 3 → (winOf s h).forced = false → (winOf s h).again = false → s.care.winQ = [] → Completes (.winmaxExpiry h) s fun t =>
      t.mem = s.mem ∧ t.loom = s.loom ∧
      if halfBusy s h then (winOf t h).st = 3 ∧ (winOf t h).closing = true
      else (winOf t h).st = 0 ∧ (winOf t h).gap = true ∧ fget t (dieB (h / 2)) F.THRM_HALF_WINREQ (h % 2) = 0) ∧
  (∀ h s, h < 16 → (winOf s h).gap = true → Completes (.wingapExpiry h) s fun t => (winOf t h).gap = false ∧ t.mem = s.mem ∧ t.loom = s.loom)

/-- A due logic test is put off on an enabled core that is not fenced. At the deadline the test and the assay are past it, and a task in the middle of a stitch is marked for pre-emption. A passed test of a free core resets it (scratchpad zero, test counter 1) and is kept; a failed one fences it. A full core assay of a free core whose four stages have ended leaves it settling, and lifts a lane fence whose lane has passed in a requested assay. With no window open, a requested array assay records the evaluation as its base and the column table; the end of a programming leaves no programming behind. -/
def Obligations.TestsAndAssaysOfCores : Prop :=
  (∀ d c s, coreEnabled s d c = true → coreFenced s d c = false → Completes (.logicTestDue d c) s fun t =>
      ({ t with care := s.care } : State) = s ∧ careOf t d c = { careOf s d c with test := max 1 (careOf s d c).test }) ∧
  (∀ d c k s, d < 8 → c < 72 → k < 4 → (careOf s d c).test = 1 → fget s (coreB d c) F.CORE_STAT_SLOT = k → fget s (coreB d c) F.CORE_STAT_BOUNDARY = 0 →
    fget s (coreB d c) F.CORE_TCTL_VALID k = 1 → (∀ i, i < 4 → i ≠ k → fget s (coreB d c) F.CORE_TCTL_VALID i = 0) → Completes (.deferDeadline d c) s fun t =>
      (careOf t d c).test = 2 ∧ fget t (coreB d c) F.CORE_TCTL_PREEMPT k = 1 ∧ fget t (coreB d c) F.CORE_TCTL_VALID k = 1 ∧ t.mem = s.mem ∧ t.serve = s.serve) ∧
  (∀ d c s, d < 8 → c < 72 → (careOf s d c).test ≠ 0 → coreFree s d c = true → coreFenced s d c = false → Completes (.logicTestDone d c true) s fun t =>
      (careOf t d c).test = 0 ∧ (careOf t d c).passed = true ∧ fget t (coreB d c) F.ASSY_CNT_LTEST_COUNT = 1 ∧ coreFenced t d c = false ∧
      (∀ a, a < 2 ^ 21 → mget t (spadAddr d c a) = 0#8) ∧ (∀ k, (arrOf s k).later = none → arrOf t k = arrOf s k) ∧ OtherCores d c s t) ∧
  (∀ d c s, d < 8 → c < 72 → (careOf s d c).test ≠ 0 → coreFree s d c = true → coreFenced s d c = false → s.faults.openFaults = [] →
    Completes (.logicTestDone d c false) s fun t => coreFenced t d c = true ∧ coreKey d c ∈ t.flash.fences) ∧
  (∀ d c s, d < 8 → c < 72 → fullAssayRuns s d c = true → assayStages s d c = true → (∀ p ∈ (dieOf s d).rehome, p.2 ≠ c) →
    Completes (.fullCoreAssayDone d c) s fun t =>
      (careOf t d c).assay = 0 ∧ fget t (coreB d c) F.ASSY_WSTAT_SETTLING = 1 ∧ t.mem = s.mem ∧ t.cores = s.cores ∧
      ∀ l, l < 16 → laneFenced t d c l = (laneFenced s d c l && !((careOf s d c).asked && (careOf s d c).lanesOk.contains l &&
        !(careOf s d c).lanesBad.contains l && laneWhole s d c l))) ∧
  (∀ d c a sums codes s, (careOf s d c).prog = none → a ∈ (careOf s d c).arrReq → (winOf s (halfDie d c)).st ≠ 3 → Completes (.arrayAssayDone d c a sums codes) s fun t =>
      let x := accOf t (arrKey d c a)
      a ∉ (careOf t d c).arrReq ∧ x.evaluated = true ∧ x.t0 = junction s d c ∧ x.tev = junction s d c ∧ x.rho = 1 ∧ x.dom = 0 ∧
      x.col.length = min (arrOutputs s (arrKey d c a)) codes.length) ∧
  (∀ d c a sums codes p s, (careOf s d c).prog = some p → p.arr = a → 512 ≤ p.row → (arrOf s (arrKey d c a)).st = 1 → (winOf s (halfDie d c)).st ≠ 3 →
    Completes (.arrayAssayDone d c a sums codes) s fun t =>
      (careOf t d c).prog = none ∧ (arrOf t (arrKey d c a)).st ∈ [0, 2, 3] ∧ (permOf t (arrKey d c a)).lastProg = hubTime s ∧
      fget t (coreB d c) F.ASSY_CNT_PROG_COUNT = (fget s (coreB d c) F.ASSY_CNT_PROG_COUNT + 1) % 2 ^ F.ASSY_CNT_PROG_COUNT.width ∧ t.mem = s.mem)

/-- Where the sequencer can issue an entry, SEQUENCER_ISSUE puts its body last in the queue of its engine under the next issue number, raises the engine's outstanding commands by one, moves the PC past the entry, clears both stall bits, and changes no byte of memory and no other queue. SEQUENCER_STALL_END does the same for a stalled sequencer, and LANE_QUEUE_PLACE_FREE for one stalled on a full queue whose lane has a place. -/
def Obligations.SequencerIssues : Prop :=
  ∀ d c t eng body s, Issues s d c t eng body →
    let pc := fget s (coreB d c) F.CORE_TPC_PC t
    let k := queueKey eng body
    let issued := fun u : State =>
      (∃ q, queueAt u d c k = queueAt s d c k ++ [q] ∧ q.body = body ∧ q.slot = t ∧ q.entry = pc ∧ q.no = (coreOf s d c).nextNo) ∧
      (coreOf u d c).nextNo = (coreOf s d c).nextNo + 1 ∧ (∀ k', k' ≠ k → queueAt u d c k' = queueAt s d c k') ∧
      outOf u d c (eng - 1) = outOf s d c (eng - 1) + 1 ∧ fget u (coreB d c) F.CORE_TPC_PC t = (pc + 16 + bodyLen eng) % 2 ^ 20 ∧
      fget u (coreB d c) F.CORE_STAT_STALL_Q = 0 ∧ fget u (coreB d c) F.CORE_STAT_STALL_W = 0 ∧ fget u (coreB d c) F.CORE_STAT_BOUNDARY = 0 ∧
      u.mem = s.mem ∧ OtherCores d c s u
    Completes (.sequencerIssue d c) s issued ∧
    (fget s (coreB d c) F.CORE_STAT_STALL_Q = 1 ∨ fget s (coreB d c) F.CORE_STAT_STALL_W = 1 → Completes (.sequencerStallEnd d c) s issued) ∧
    (∀ lane, fget s (coreB d c) F.CORE_STAT_STALL_Q = 1 → (queueAt s d c lane).length < 4 → Completes (.laneQueuePlaceFree d c lane) s issued)

/-- A slot that is not VALID, whose windows and pattern window meet the rules and whose core has the neighbours of its role, becomes VALID with the tenant, tag, translation context, windows and PC 0 that the hub, the step and its role give it, and its task belongs to the binding and step given; else VALID stays 0, with a notice and no byte of memory changed. A VALID slot whose task stands at a boundary is cleared, and its undecided step abandoned, by a clear or a pre-emption; in the middle of its stitch a clear waits and a pre-emption sets PREEMPT. -/
def Obligations.TaskSlots : Prop :=
  (∀ d c k w s, d < 8 → c < 72 → k < 4 → fget s (coreB d c) F.CORE_TCTL_VALID k = 0 →
    let v := fromRole s d c w
    let fits := windowsOk (growShared d c v s) d c k v && patternOk s d c k v && !roleBlocked s v.binding v.step d c
    (fits = true → v.tenant < 2 ^ 16 → v.tag < 2 ^ 16 → v.tctx < 2 ^ 16 → v.tbase < 2 ^ 9 → v.tlen < 2 ^ 9 → v.pbase < 2 ^ 9 → v.plen < 2 ^ 9 →
      Completes (.taskSlotValidate d c k w) s fun t =>
        let b := coreB d c
        fget t b F.CORE_TCTL_VALID k = 1 ∧ fget t b F.CORE_TCTL_PREEMPT k = 0 ∧ fget t b F.CORE_TCTL_ENDED k = 0 ∧
        fget t b F.CORE_TCTL_TENANT k = v.tenant ∧ fget t b F.CORE_TTAG_TASKTAG k = v.tag ∧ fget t b F.CORE_TTAG_TCTX k = v.tctx ∧
        fget t b F.CORE_TWIN_BASE k = v.tbase ∧ fget t b F.CORE_TWIN_LEN k = v.tlen ∧ fget t b F.CORE_TPAT_BASE k = v.pbase ∧
        fget t b F.CORE_TPAT_LEN k = v.plen ∧ fget t b F.CORE_TPC_PC k = 0 ∧
        (taskOf t d c k).binding = w.binding ∧ (taskOf t d c k).step = w.step ∧ (taskOf t d c k).stitch = 0 ∧ (taskOf t d c k).leaving = false ∧
        OtherCores d c s t) ∧
    (fits = false → Completes (.taskSlotValidate d c k w) s fun t =>
        fget t (coreB d c) F.CORE_TCTL_VALID k = 0 ∧ t.mem = s.mem ∧ odNum t 0x8000 5 = satAdd (odBits 0x8000 5) 1 (odNum s 0x8000 5))) ∧
  (∀ d c k s, d < 8 → c < 72 → k < 4 → fget s (coreB d c) F.CORE_TCTL_VALID k = 1 →
    (fget s (coreB d c) F.CORE_STAT_SLOT ≠ k ∨ fget s (coreB d c) F.CORE_STAT_BOUNDARY = 1) →
    let left := fun t : State => fget t (coreB d c) F.CORE_TCTL_VALID k = 0 ∧ fget t (coreB d c) F.CORE_TCTL_PREEMPT k = 0 ∧ taskOf t d c k = Task.none ∧
      ∀ p, stepOf s (taskOf s d c k).binding (taskOf s d c k).step = some p → undecided p = true → stepOf t p.binding p.num = none
    Completes (.taskSlotClear d c k) s left ∧ Completes (.taskPreempt d c k) s left) ∧
  (∀ d c k s, d < 8 → c < 72 → k < 4 → fget s (coreB d c) F.CORE_TCTL_VALID k = 1 → fget s (coreB d c) F.CORE_STAT_SLOT = k →
    fget s (coreB d c) F.CORE_STAT_BOUNDARY = 0 →
    Completes (.taskSlotClear d c k) s (fun t => taskOf t d c k = { taskOf s d c k with leaving := true } ∧ t.regs = s.regs ∧ t.mem = s.mem) ∧
    Completes (.taskPreempt d c k) s (OnlyField (coreB d c) F.CORE_TCTL_PREEMPT k 1 s))

/-- A completed stitch of a task that stays leaves the core at a boundary, not running, with no tile operation, verdict, redo or open addition, the task one stitch on, the staged drift records in force and none staged, and the next ready slot chosen; a failed stitch check is counted and fails the step of the task. A stitch that the watchdog finds in progress, with no fault open, is an F2 that fences the core and enters it in the field fence record. -/
def Obligations.StitchBoundaries : Prop :=
  (∀ d c s, d < 8 → c < 72 → stitchDone s d c = true → stopWanted s = false →
    let k := fget s (coreB d c) F.CORE_STAT_SLOT
    (taskOf s d c k).leaving = false → fget s (coreB d c) F.CORE_TCTL_PREEMPT k = 0 → (careOf s d c).stageQ = [] → (coreOf s d c).taken = false →
    ((coreOf s d c).staged.map fun p => p.1).Nodup → Completes (.stitchBoundary d c) s fun t =>
      fget t (coreB d c) F.CORE_STAT_BOUNDARY = 1 ∧ fget t (coreB d c) F.CORE_STAT_RUNNING = 0 ∧ (coreOf t d c).ops = [] ∧
      (coreOf t d c).verdicts = [] ∧ (coreOf t d c).redoQ = [] ∧ (coreOf t d c).p16Q = [] ∧ (coreOf t d c).p16Held = [] ∧ (coreOf t d c).order = [] ∧ (coreOf t d c).ending = false ∧
      (taskOf t d c k).stitch = (taskOf s d c k).stitch + 1 ∧ (coreOf t d c).staged = [] ∧
      (∀ a l, (a, l) ∈ (coreOf s d c).staged → tget (fun _ => []) t.loom.drift (arrKey d c a) = l) ∧
      (∀ u, nextSlot s d c = some u → fget t (coreB d c) F.CORE_STAT_SLOT = u) ∧
      (k ∈ (coreOf s d c).failed → fget t (coreB d c) F.CORE_CNT_CHKFAIL_COUNT = (fget s (coreB d c) F.CORE_CNT_CHKFAIL_COUNT + 1) % 2 ^ 32 ∧
        ∀ p, stepOf t (taskOf s d c k).binding (taskOf s d c k).step = some p → p.failed = true) ∧ t.mem = s.mem) ∧
  (∀ d c s, d < 8 → c < 72 → fget s (coreB d c) F.CORE_STAT_BOUNDARY = 0 → coreFenced s d c = false → s.faults.openFaults = [] →
    Completes (.stitchWatchdogExpiry d c) s fun t => coreFenced t d c = true ∧ coreKey d c ∈ t.flash.fences)

/-- A remote write that is first of its path, no push to a fenced core, and whose tag and tenant a VALID slot matches lands its bytes in that slot's task window and nowhere else; one that no slot matches is dropped and counted. A release that is due, of a slot that no unit still reads, clears FULL, leaves every word of the slot unfilled (the model's own list, assumption log entry 12), and in poison mode leaves each reading 0x7FA5_A5A5. A fill timeout lifts the gate that holds a queue, is counted, and fails the stitch check. A poisoned line of the shared window is no longer poisoned after its reload. -/
def Obligations.ScratchpadEvents : Prop :=
  (∀ i r k p s, s.wire[i]? = some r → (∀ x ∈ s.wire.take i, x.src ≠ r.src ∨ x.die ≠ r.die ∨ x.core ≠ r.core) →
    (isPush r && coreFenced s r.die r.core) = false → taskSlot s r.die r.core r.tenant r.tag = some k → relMap s r.die r.core k r.rel r.bytes.length true = some p → Completes (.remoteWriteArrival i) s fun t =>
      t.wire = s.wire.eraseIdx i ∧ mread t (spadAddr r.die r.core p) r.bytes.length = r.bytes ∧
      MemKept (spadAddr r.die r.core p) r.bytes.length s t) ∧
  (∀ i r s, s.wire[i]? = some r → r.die < 8 → r.core < 72 → (∀ x ∈ s.wire.take i, x.src ≠ r.src ∨ x.die ≠ r.die ∨ x.core ≠ r.core) →
    (isPush r && coreFenced s r.die r.core) = false → taskSlot s r.die r.core r.tenant r.tag = none → Completes (.remoteWriteArrival i) s fun t =>
      t.wire = s.wire.eraseIdx i ∧ t.mem = s.mem ∧
      fget t (coreB r.die r.core) F.SPAD_CNT_RDROP_COUNT = (fget s (coreB r.die r.core) F.SPAD_CNT_RDROP_COUNT + 1) % 2 ^ F.SPAD_CNT_RDROP_COUNT.width) ∧
  (∀ d c k n s, (k, n) ∈ (coreOf s d c).relDue → stillReads s d c k n = false → Completes (.dataSlotRelease d c k n) s fun t =>
      (dslotOf t d c k n) = { dslotOf s d c k n with full := false } ∧ (coreOf t d c).relDue = (coreOf s d c).relDue.erase (k, n) ∧ t.regs = s.regs ∧
      (fget s (coreB d c) F.CORE_PATCTL_POISON = 0 → t.mem = s.mem) ∧
      (∀ p, fget s (coreB d c) F.CORE_PATCTL_POISON = 1 → relMap s d c k (dslotOf s d c k n).base (dslotOf s d c k n).len true = some p →
        ∀ w ∈ wordsOf p (dslotOf s d c k n).len, mread t (spadAddr d c (4 * w)) 4 = leBytes 4 0x7FA5A5A5) ∧
      (∀ p, relMap s d c k (dslotOf s d c k n).base (dslotOf s d c k n).len true = some p →
        ∀ w ∈ wordsOf p (dslotOf s d c k n).len, inWords (coreOf t d c).unfilled w = true)) ∧
  (∀ d c key q l g s, d < 8 → c < 72 → key < 64 → (∃ h ∈ (coreOf s d c).held, h.key = key) → queueAt s d c key = q :: l → gateHolds s d c q = some g →
    Completes (.fillwaitExpiry d c key) s fun t =>
      queueAt t d c key = { q with gates := q.gates.filter fun h => h != g } :: l ∧ (∀ h ∈ (coreOf t d c).held, h.key ≠ key) ∧
      q.slot ∈ (coreOf t d c).failed ∧ t.mem = s.mem ∧
      fget t (coreB d c) F.CORE_CNT_FILLTO_COUNT = (fget s (coreB d c) F.CORE_CNT_FILLTO_COUNT + 1) % 2 ^ 32) ∧
  (∀ d c line s, line ∈ (coreOf s d c).poisoned →
    fget s (coreB d c) F.CORE_SHWIN_SBASE * 64 ≤ line → line < fget s (coreB d c) F.CORE_SHWIN_SBASE * 64 + fget s (coreB d c) F.CORE_SHWIN_SLEN * 64 →
    Completes (.poisonedLineReload d c line) s fun t =>
      (coreOf t d c).poisoned = (coreOf s d c).poisoned.filter (fun k => k != line) ∧ OtherCores d c s t ∧ ({ t with cores := s.cores } : State) = s)

/-- A vector command at the front of its queue, whose sources can be read and whose destination lies in the task window, leaves the queue and writes at DST, in DFMT, the value that its operation gives for every element of its sources: sums, products, rescaled values, gated and GELU activations, rotated pairs, normalised elements, and, in NORM MODE 1, the FP32 sum of squares. It changes no other byte, no register and no dictionary entry. The last element of a ROPE of odd N, which the spec does not state, is free. -/
def Obligations.VectorValues : Prop :=
  ∀ d c q l op pa pb pz po s, AtFront s d c 19 op q l →
    let v := vecOf q.body
    Reads s d c q.slot v.a (v.n * elemBytes v.sfmt) pa →
    let x := elems v.sfmt v.n (mread s (spadAddr d c pa) (v.n * elemBytes v.sfmt))
    let y := elems v.sfmt v.n (mread s (spadAddr d c pb) (v.n * elemBytes v.sfmt))
    let gain := elems 1 v.n (mread s (spadAddr d c pb) (2 * v.n))
    let inB := Reads s d c q.slot v.b (v.n * elemBytes v.sfmt) pb
    let inG := Reads s d c q.slot v.b (2 * v.n) pb
    let writes := fun (out : List Byte) (t : State) => queueAt t d c 19 = l ∧ t.regs = s.regs ∧ t.od = s.od ∧
      mread t (spadAddr d c po) out.length = out ∧ MemKept (spadAddr d c po) out.length s t
    let vals := Writes s d c q.slot v.dst (v.n * elemBytes v.dfmt) po
    let one := fun (i : Instr) (f : Nat → Nat) => vals → Completes i s (writes (elemsOut v.dfmt (x.map f)))
    let two := fun (i : Instr) (f : Nat → Nat → Nat) => inB → vals → Completes i s (writes (elemsOut v.dfmt ((x.zip y).map fun p => f p.1 p.2)))
    (op = 5 → two (.vecAdd d c) f32Add) ∧
    (op = 6 → two (.vecMul d c) f32Mul) ∧
    (op = 3 → v.mode = 0 → two (.vecActGated d c) fun a b => f32Mul (f32Mul a (f32Sigma a)) b) ∧
    (op = 3 → v.mode = 1 → one (.vecActGelu d c) gelu) ∧
    (op = 7 → one (.vecConv d c) (shifted v.shift)) ∧
    (op = 2 → v.mode = 0 → inG → vals → Completes (.vecNorm d c) s (writes (elemsOut v.dfmt (normed v (sumSq x) x gain)))) ∧
    (op = 2 → v.mode = 1 → Writes s d c q.slot v.dst 4 po →
      Completes (.vecNormSumsq d c) s (writes (leBytes 4 (laneSum (x.map fun a => f32Mul a a))))) ∧
    (op = 2 → v.mode = 2 → inG → Reads s d c q.slot v.aux 4 pz → vals →
      Completes (.vecNormPresum d c) s (writes (elemsOut v.dfmt (normed v (leAt (mread s (spadAddr d c pz) 4) 0 4) x gain)))) ∧
    (op = 4 → vals → Completes (.vecRope d c) s fun t =>
      ∃ w : List Nat, w.length = v.n % 2 ∧ writes (elemsOut v.dfmt (ropePairs v 0 (elems v.sfmt (v.n / 2 * 2) (mread s (spadAddr d c pa) (v.n * elemBytes v.sfmt))) ++ w)) t)

/-- A QUANT of K elements without an outlier list writes at DST the P4 record of the vector padded with zeros to 512, with DUAL its P8 record 512 bytes on, and leaves in the summary table, where it has a place, a summary that names the record, the source, the formats, the pre-shift, K and the classes of the blocks. A CNT writes at DST, as a U32, how many elements satisfy its comparison; with CHECK a count that is not zero is counted and fails the stitch check. Neither changes another byte. -/
def Obligations.VectorRecordsAndCounts : Prop :=
  (∀ d c q l pa po pd s, AtFront s d c 19 1 q l →
    let v := vecOf q.body
    let dual := natBit v.mode 1
    v.aux = 0 → v.n ≤ 512 → Reads s d c q.slot v.a (v.n * elemBytes v.sfmt) pa → Writes s d c q.slot v.dst 272 po →
    (dual = true → Writes s d c q.slot (v.dst + 512) 528 pd) →
    ((coreOf s d c).summs.length < 64 ∨ ∃ m ∈ (coreOf s d c).summs, m.recAddr = v.dst) → Completes (.vecQuant d c) s fun t =>
      let x := sourceVec (v.sfmt == 1) v.n (mread s (spadAddr d c pa) (v.n * elemBytes v.sfmt)) ++ List.replicate (512 - v.n) 0
      queueAt t d c 19 = l ∧ t.regs = s.regs ∧ t.od = s.od ∧ mread t (spadAddr d c po) 272 = p4Record v.shift (natBit v.mode 0) x ∧
      (dual = true → mread t (spadAddr d c pd) 528 = p8Record v.shift x) ∧ MemKept (spadAddr d c po) (if dual then 1040 else 272) s t ∧
      (⟨dual, v.sfmt == 1, natBit v.mode 0, classMask v.shift .clamped x, classMask v.shift .nonFinite x, flushCount v.shift x, v.dst,
        v.a, v.shift, v.n, [], mread s (spadAddr d c pa) (v.n * elemBytes v.sfmt)⟩ : Summ) ∈ (coreOf t d c).summs ∧ ∀ m ∈ (coreOf s d c).summs, m.recAddr ≠ v.dst → m ∈ (coreOf t d c).summs) ∧
  (∀ d c q l pa po s, AtFront s d c 19 9 q l →
    let v := vecOf q.body
    Reads s d c q.slot v.a (4 * v.n) pa → Writes s d c q.slot v.dst 4 po → Completes (.vecCnt d c) s fun t =>
      let n := ((leChunks 4 v.n (mread s (spadAddr d c pa) (4 * v.n))).filter (cntHit v)).length
      queueAt t d c 19 = l ∧ mread t (spadAddr d c po) 4 = leBytes 4 n ∧ MemKept (spadAddr d c po) 4 s t ∧
      (if natBit v.mode 4 = true ∧ n ≠ 0 then q.slot ∈ (coreOf t d c).failed ∧
        fget t (coreB d c) F.VEC_CNT_CHECK_COUNT = (fget s (coreB d c) F.VEC_CNT_CHECK_COUNT + 1) % 2 ^ F.VEC_CNT_CHECK_COUNT.width
       else t.regs = s.regs ∧ (coreOf t d c).failed = (coreOf s d c).failed))

/-- LOCAL writes the candidate record of its logits times PARAM: NONFIN where one is not finite, the largest, the sum of exponentials below it, and the 64 first candidates. MERGE merges two records. DRAW and ACCEPT write the draw record: greedily the first candidate with probability one; else, for DRAW, the token that u picks from the TOPK and TOPP run, and for ACCEPT the draft with its share in that run where u is below the ratio of the shares, else a token drawn from the residual. A record that is NONFIN fails the stitch check. No other byte changes. -/
def Obligations.SampleRecords : Prop :=
  ∀ d c q l pa pb pz po s, AtFront s d c 19 8 q l →
    let v := vecOf q.body
    let writes := fun (out : List Byte) (t : State) => queueAt t d c 19 = l ∧ t.regs = s.regs ∧ t.od = s.od ∧
      mread t (spadAddr d c po) out.length = out ∧ MemKept (spadAddr d c po) out.length s t
    let x := (leChunks 4 v.n (mread s (spadAddr d c pa) (4 * v.n))).map fun z => f32Mul z v.param
    let top := x.foldl f32Max (x.headD 0)
    let a := candsOf (mread s (spadAddr d c pa) 528)
    let b := candsOf (mread s (spadAddr d c pb) 528)
    let m := f32Max a.m b.m
    let part := fun r : Cands => f32Mul r.sum (f32Exp (f32Sub r.m m))
    (v.mode = 0 → Reads s d c q.slot v.a (4 * v.n) pa → Writes s d c q.slot v.dst 528 po → x.any f32Nan = false →
      Completes (.sampleLocal d c) s (writes (candsBytes ⟨x.any (fun z => !f32Fin z), top, laneSum (x.map fun z => f32Exp (f32Sub z top)),
        topCands (x.zipIdx.map fun p => ((v.param2 + p.2) % 2 ^ 32, p.1))⟩))) ∧
    (v.mode = 1 → Reads s d c q.slot v.a 528 pa → Reads s d c q.slot v.b 528 pb → Writes s d c q.slot v.dst 528 po → f32Nan a.m = false →
      f32Nan b.m = false → (∀ p ∈ a.list ++ b.list, f32Nan p.2 = false) →
      Completes (.sampleMerge d c) s (writes (candsBytes ⟨a.nonfin || b.nonfin, m, f32Add (part a) (part b), topCands (a.list ++ b.list)⟩))) ∧
    (v.mode = 2 → Reads s d c q.slot v.a 528 pa → Reads s d c q.slot v.aux 64 pz → Writes s d c q.slot v.dst 16 po →
      let r := sampleRowOf (mread s (spadAddr d c pz) 64)
      ∀ tok p, (if r.greedy then a.list.head?.map (fun p => (p.1, 0x3F800000)) else drawFrom (drawU r 0) (sampleRun r a)) = some (tok, p) →
      Completes (.sampleDraw d c) s fun t =>
        writes (drawBytes false r.greedy a.nonfin tok p (tailOf r.greedy a)) t ∧ (a.nonfin = true → q.slot ∈ (coreOf t d c).failed)) ∧
    (v.mode = 3 → Reads s d c q.slot v.a 528 pa → Reads s d c q.slot v.b 528 pb → Reads s d c q.slot v.aux 80 pz →
      Writes s d c q.slot v.dst 16 po →
      let row := mread s (spadAddr d c pz) 80
      let r := sampleRowOf row
      let run := sampleRun r a
      let pd := shareOf run (leAt row 68 4)
      let ok := if r.greedy then (match a.list.head? with | some p => p.1 == leAt row 68 4 | none => false)
        else f32Lt (drawU r 1) (f32Div pd (leAt row 72 4))
      ∀ tok p, (if r.greedy then a.list.head?.map (fun p => (p.1, 0x3F800000)) else if ok then some (leAt row 68 4, pd)
        else drawFrom (drawU r 2) (residual run (sampleRun r b))) = some (tok, p) →
      Completes (.sampleAccept d c) s fun t =>
        writes (drawBytes ok r.greedy (a.nonfin || b.nonfin) tok p (tailOf r.greedy a)) t ∧
        ((a.nonfin || b.nonfin) = true → q.slot ∈ (coreOf t d c).failed))

/-- With the attention engine free, the rows of its step in the row buffer, every operand readable and no folio of the die in error, SCAN leaves for each (position, head) pair the state that attending to the row's committed and fresh positions gives, starting empty with FIRST and from the states at STATE otherwise; MERGE leaves the merged states; FINAL writes the FP32 outputs and fails the stitch check where a state is empty or NONFIN. Each leaves the queue and the engine free, and changes no other byte. -/
def Obligations.AttentionStates : Prop :=
  ∀ d c q l op pq pst pout ph ff pf pqs rb pages r' s' s, AtFront s d c 20 op q l → runOf s d c 4 = none → tget (fun _ => []) (coreOf s d c).rowBuf q.slot = rb → rb ≠ [] →
    let a := attnOf q.body
    let rows := tableRows rb
    Reads s d c q.slot a.q 16 pq →
    let h := mread s (spadAddr d c pq) 16
    queryOk a.q h = true →
    let lo := leAt h 2 2
    let n := min (leAt h 4 2) (tableTotal rows - lo)
    let m := n * a.heads
    let states := fun p => statesAt m (mread s (spadAddr d c p) (528 * m))
    let ok := fun p => statesOk m (mread s (spadAddr d c p) (528 * m))
    let writes := fun (p : Nat) (out : List Byte) (t : State) => queueAt t d c 20 = l ∧ runOf t d c 4 = none ∧
      mread t (spadAddr d c p) out.length = out ∧ MemKept (spadAddr d c p) out.length s t
    let stRead := Reads s d c q.slot a.st (528 * m) pst ∧ ok pst = true
    let stWrite := Writes s d c q.slot a.st (528 * m) pst
    (op = 1 →
      let g := kvGeom s d c q.slot
      let sv := servedRows rows lo n
      let fa := addr21 h 8
      Reads s d c q.slot fa 16 ph → freshOk fa (mread s (spadAddr d c ph) 16) = true → ff = 16 + 256 * leAt (mread s (spadAddr d c ph) 16) 4 2 →
      Reads s d c q.slot fa ff pf → Reads s d c q.slot (a.q + 16) (128 * a.heads * n) pqs → (a.first = false → stRead) → stWrite →
      readRanges d c 4 (pageRanges g a sv) ⟨q, 0, .go, [], [], [], []⟩ (popQueue d c 20 s) = .here pages r' s' → FoliosClean s d →
      let kv := rowKv g a (mread s (spadAddr d c pf) ff) sv pages
      let old := if a.first then List.replicate m SmState.none else states pst
      Completes (.attnScan d c) s (writes pst ((old.zipIdx.map fun x =>
        let k := lo + x.2 / a.heads
        match kv.find? fun y => decide (y.1.k0 ≤ k) && decide (k < y.1.k0 + y.1.t) with
        | some y => (scanQuery a (y.1.f + k - y.1.k0) (sliceBytes (mread s (spadAddr d c pqs) (128 * a.heads * n)) (128 * x.2) 128) y.2 x.1).1
        | none => x.1).flatMap SmState.bytes))) ∧
    (op = 2 → stRead → stWrite → Reads s d c q.slot a.out (528 * m) pout → ok pout = true →
      Completes (.attnMerge d c) s (writes pst ((((states pst).zip (states pout)).map fun x => (mergeStates x.1 x.2).1).flatMap SmState.bytes))) ∧
    (op = 3 → stRead → Writes s d c q.slot a.out (512 * m) pout → Completes (.attnFinal d c) s fun t =>
      writes pout ((states pst).flatMap fun x => (finalOut x).flatMap (leBytes 4)) t ∧
      ((states pst).any (fun x => x.empty || x.nonfin) = true → q.slot ∈ (coreOf t d c).failed))

/-- That a destination is open until its bytes land, so that it may not be what the descriptor reads, is the model's reading of R297 (log entry 12). -/
def Obligations.PorterMoves : Prop :=
  ∀ d c ch q l op ps pd pl s (G H : Nat → Nat), AtFront s d c (21 + ch) op q l → ch < 4 → runOf s d c ch = none →
    let p := portOf q.body
    let r : Run := ⟨q, 0, .go, [], [], [], []⟩
    let left := fun t : State => queueAt t d c (21 + ch) = l ∧ runOf t d c ch = none
    let tenant := fget s (coreB d c) F.CORE_TCTL_TENANT q.slot
    let tag := fget s (coreB d c) F.CORE_TTAG_TASKTAG q.slot
    let k := taskOf s d c q.slot
    let src := Reads s d c q.slot (p.src % 2 ^ 21) p.total ps
    let dst := Writes s d c q.slot (p.dst % 2 ^ 21) p.total pd
    let list := if op = 1 then [] else leChunks 8 p.count (mread s (spadAddr d c pl) (8 * p.count))
    let from_ := fun i => match srcVa p list i with | none => spadAddr d c (ps + i) | some _ => dramAddr d (G i % 2 ^ 48)
    let to_ := fun i => match dstVa p list i with | none => spadAddr d c (pd + i) | some _ => dramAddr d (H i % 2 ^ 48)
    let inDram := fun g => FoliosClean s d ∧ g / 2 ^ 50 = dieNum s d ∧ g / 2 ^ 48 % 4 = 0
    let mapped := (op = 1 ∨ Reads s d c q.slot p.list (8 * p.count) pl) ∧ ∀ i, i < p.total →
      (match srcVa p list i with | none => src | some a => xlate s d c r a false false = .ok (G i) ∧ inDram (G i)) ∧
      (match dstVa p list i with | none => dst | some a => xlate s d c r a true (op == 4) = .ok (H i) ∧ inDram (H i))
    let apart := ∀ i j, j < p.total → (i < p.total → from_ i / 4 ≠ to_ j / 4) ∧
      (op ≠ 1 → i < 8 * p.count → spadAddr d c (pl + i) / 4 ≠ to_ j / 4)
    let moved := fun t : State => left t ∧
      ∀ a, mget t a = mget ((List.range p.total).foldl (fun u i => mwrite u (to_ i) [mget s (from_ i)]) s) a
    let plain := p.decrypt = false ∧ mapped ∧ apart
    let refused := fun t : State => left t ∧ t.mem = s.mem ∧ t.wire = s.wire ∧ (coreOf t d c).appends = (coreOf s d c).appends ∧
      q.slot ∈ (coreOf t d c).failed
    let usable := ∃ c', neighbour c p.dir = some c' ∧ coreFenced s d c' = false
    (op = 1 → plain → Completes (.porterCopy d c ch) s moved) ∧
    (op = 1 → p.decrypt = true → p.srcLocal = true → p.dstLocal = true → src → dst → apart → ∀ key, taskKey s d c q.slot p.keyslot = some key →
      p.len % 4096 = 0 → Completes (.porterCopy d c ch) s fun t => left t ∧ MemKept (spadAddr d c pd) p.len s t ∧
        mread t (spadAddr d c pd) p.len = xtsBytes key p.tweak (p.len / 16 + 1) 0 (mread s (spadAddr d c ps) p.len)) ∧
    (op = 1 → p.decrypt = true → taskKey s d c q.slot p.keyslot = none → Completes (.porterCopy d c ch) s refused) ∧
    (op = 2 → plain → Completes (.porterGather d c ch) s moved) ∧
    (op = 3 → plain → Completes (.porterScatter d c ch) s moved) ∧
    (op = 4 → isKv p = false → p.decrypt = false → mapped → appendRoom s d c p.total = true → Completes (.porterAppend d c ch) s fun t =>
      left t ∧ t.mem = s.mem ∧ ∃ w, (coreOf t d c).appends = (coreOf s d c).appends ++ [⟨k.binding, k.step, q.no, d, tenant, tag, w, []⟩] ∧
        (w.flatMap fun x => x.2.zipIdx.map fun y => (x.1 + y.2, y.1)) = (List.range p.total).map fun i => (H i, mget s (from_ i))) ∧
    (op = 4 → isKv p = false → appendRoom s d c p.total = false → Completes (.porterAppend d c ch) s refused) ∧
    (∀ c', op = 5 → p.decrypt = false → p.srcLocal = true → 0 < p.len → src → neighbour c p.dir = some c' → coreFenced s d c' = false →
      Completes (.porterPush d c ch) s fun t => left t ∧ t.mem = s.mem ∧ t.wire = s.wire ++
        [⟨2 ^ 20 + coreKey d c * 4 + p.dir, d, c', tenant, tag, p.dst % 2 ^ 21, mread s (spadAddr d c ps) p.len, unitOf d c ch, []⟩]) ∧
    (op = 5 → ¬ usable → Completes (.porterPush d c ch) s refused) ∧
    (∀ rb pf fb, op = 4 → isKv p = true → tget (fun _ => []) (coreOf s d c).rowBuf q.slot = rb → rb ≠ [] → p.srcLocal = true →
      Reads s d c q.slot (p.src % 2 ^ 21) 16 pf → freshOk (p.src % 2 ^ 21) (mread s (spadAddr d c pf) 16) = true →
      Reads s d c q.slot (p.src % 2 ^ 21) (16 + 256 * leAt (mread s (spadAddr d c pf) 16) 4 2) pf →
      fb = mread s (spadAddr d c pf) (16 + 256 * leAt (mread s (spadAddr d c pf) 16) 4 2) →
      let g := kvGeom s d c q.slot
      let es := kvElems g (tableRows rb) fb
      let kva := fun e : Nat × Nat × KvRow => kvVa g e.2.2.kva (p.dst % 2 ^ 48) e.2.1
      appendRoom s d c (256 * es.length) = true →
      (∀ e ∈ es, xlate s d c r (kva e) true true = .ok (G (kva e)) ∧
        xlate s d c r ((kva e + 0x2000) % 2 ^ 48) true true = .ok (G ((kva e + 0x2000) % 2 ^ 48))) →
      Completes (.kvAppend d c ch) s fun t =>
        left t ∧ t.mem = s.mem ∧ (coreOf t d c).appends = (coreOf s d c).appends ++ [⟨k.binding, k.step, q.no, d, tenant, tag,
          es.flatMap fun e =>
            let o := 16 + 256 * (e.1 - leAt fb 2 2)
            [(G (kva e), sliceBytes fb o 128), (G ((kva e + 0x2000) % 2 ^ 48), sliceBytes fb (o + 128) 128)],
          es.flatMap fun e => [(e.2.2.idx, e.2.1), (e.2.2.idx, e.2.1)]⟩] ∧
        fget t (coreB d c) F.ATTN_CNT_APPEND_COUNT = (fget s (coreB d c) F.ATTN_CNT_APPEND_COUNT + es.length) % 2 ^ F.ATTN_CNT_APPEND_COUNT.width)

/-- A page walk, no folio of the die being in error, that meets a fault of a kind other than 0x05 suspends its unit: the run waits at that fault, its task slot is SUSPENDED, its channel shows FAULT, and the walk is counted. One that meets a leaf, with no fault open, puts the translation first in the core's cache. A suspended COPY to a local range, its remaining bytes in one translated page of the die's own DRAM, delivers them after RESUME, and its FAULT clears. FAIL and expiry of the wait free the unit with nothing written, clear FAULT and fail the stitch check; with no other unit of the slot suspended, SUSPENDED clears. -/
def Obligations.TranslationWaitsEnd : Prop :=
  (∀ d c u r va wr s, d < 8 → c < 72 → u < 5 → r.q.slot < 4 → runOf s d c u = some r → r.wait = .walk va wr → FoliosClean s d →
    let tctx := fget s (coreB d c) F.CORE_TTAG_TCTX r.q.slot
    let w := pageWalk s d tctx (fget s (coreB d c) F.CORE_TCTL_TENANT r.q.slot) va
    (∀ kind level, w = .bad kind level → kind ≠ 5 → Completes (.translationWalkDone d c u) s fun t =>
      runOf t d c u = some { r with wait := .fault kind level va wr } ∧ fget t (coreB d c) F.CORE_TCTL_SUSPENDED r.q.slot = 1 ∧
      (u < 4 → fget t (coreB d c) F.PORT_CH_FAULT u = 1) ∧ t.mem = s.mem ∧
      fget t (dieB d) F.MEMC_CNT_WALK_COUNT = (fget s (dieB d) F.MEMC_CNT_WALK_COUNT + 1) % 2 ^ F.MEMC_CNT_WALK_COUNT.width) ∧
    (∀ big pte, w = .leaf big pte → s.faults.openFaults = [] → (coreOf s d c).upsets = [] → Completes (.translationWalkDone d c u) s fun t =>
      (coreOf t d c).tlb.head? = some ⟨tctx, va / 2 ^ 16 % 2 ^ 32, big, pte⟩)) ∧
  (∀ d c u r kind level va wr s, d < 8 → c < 72 → u < 5 → r.q.slot < 4 → runOf s d c u = some r → r.wait = .fault kind level va wr →
    let p := portOf r.q.body
    let alone := ∀ v r', v ≠ u → runOf s d c v = some r' → r'.q.slot = r.q.slot → ∀ k l a b, r'.wait ≠ .fault k l a b
    let free := fun t : State => runOf t d c u = none ∧ (u < 4 → fget t (coreB d c) F.PORT_CH_FAULT u = 0) ∧
      (alone → fget t (coreB d c) F.CORE_TCTL_SUSPENDED r.q.slot = 0)
    let ended := fun t : State => free t ∧ t.mem = s.mem ∧ r.q.slot ∈ (coreOf t d c).failed
    (∀ g pd, u < 4 → p.op = 1 → p.decrypt = false → p.srcLocal = false → p.dstLocal = true → r.prog < p.len →
      (p.src + r.prog) % 2 ^ 48 % 2 ^ 16 + (p.len - r.prog) ≤ 2 ^ 16 → xlate s d c r ((p.src + r.prog) % 2 ^ 48) false false = .ok g →
      g / 2 ^ 50 = dieNum s d → FoliosClean s d → Writes s d c r.q.slot (p.dst % 2 ^ 21) p.len pd →
      Completes (.xrespResume d c u) s fun t => free t ∧
        mread t (spadAddr d c (pd + r.prog)) (p.len - r.prog) = mread s (dramAddr d (g % 2 ^ 48)) (p.len - r.prog) ∧
        MemKept (spadAddr d c (pd + r.prog)) (p.len - r.prog) s t) ∧
    Completes (.xrespFail d c u) s ended ∧
    Completes (.xltwaitExpiry d c u) s fun t => ended t ∧ odNum t 0x8000 5 = satAdd (odBits 0x8000 5) 1 (odNum s 0x8000 5))

/-- A clean flit where none was resent changes nothing; a failed one is resent up to two times, and a third failure, with no fault open, puts the router Out, which receives nothing more. Recomputed routes that reach every core clear BUSY, raise EPOCH and show whether any route is a detour. A lost seam heartbeat, with no fault open and the default reaction, fences its die. With no global operation open, an arrival at the die barrier leaves it open until every enabled core has arrived, and then closes it. A finished clock change makes CLK_ACT the code asked for, and a half whose cores all run at or below its code takes that code. -/
def Obligations.DieNetworkEvents : Prop :=
  let quiet := fun s : State => (∀ e, (dieOf s e).barDone = false) ∧ ∀ g, (gopOf s g).isOpen = false
  (∀ d r p ok s, r ∈ (dieOf s d).outRouters → exec (.meshFlitReceive d r p ok) s = .next s) ∧
  (∀ d r p s, r ∉ (dieOf s d).outRouters →
    let n := resentAt s d r p
    (n = 0 → exec (.meshFlitReceive d r p true) s = .next s) ∧
    (n < 2 → Completes (.meshFlitReceive d r p false) s fun t => resentAt t d r p = n + 1 ∧ ({ t with dies := s.dies } : State) = s) ∧
    (2 ≤ n → s.faults.openFaults = [] → Completes (.meshFlitReceive d r p false) s fun t => r ∈ (dieOf t d).outRouters) ∧
    (0 < n → s.faults.openFaults = [] → Completes (.meshFlitReceive d r p true) s fun t => resentAt t d r p = 0 ∧ t.mem = s.mem ∧
      fget t (dieB d) F.MESH_CNT_REPLAY_COUNT = (fget s (dieB d) F.MESH_CNT_REPLAY_COUNT + 1) % 2 ^ F.MESH_CNT_REPLAY_COUNT.width)) ∧
  (∀ d s, d < 8 → fget s (dieB d) F.MESH_ROUTE_BUSY = 1 → worstCore s d = none → quiet s → Completes (.routeRecomputeDone d) s fun t =>
    fget t (dieB d) F.MESH_ROUTE_BUSY = 0 ∧ t.mem = s.mem ∧ t.od = s.od ∧
    fget t (dieB d) F.MESH_ROUTE_EPOCH = (fget s (dieB d) F.MESH_ROUTE_EPOCH + 1) % 2 ^ F.MESH_ROUTE_EPOCH.width ∧
    fget t (dieB d) F.MESH_STAT_DETOUR = if anyDetour s d = true then 1 else 0) ∧
  (∀ d s, d < 8 → (dieOf s d).fwUp = true → dieState s d ≤ 3 → s.faults.openFaults = [] → fget s hubB F.FLT_MSTAT_DIEREACT ≠ 2 →
    Completes (.seamHeartbeatTimeout d) s fun t => dieState t d = 4) ∧
  (∀ d c s, d < 8 → c < 72 → coreEnabled s d c = true → coreFenced s d c = false → c ∉ (dieOf s d).barrier → quiet s → Completes (.dieBarrierArrive d c) s fun t =>
    ({ t with regs := s.regs, dies := s.dies } : State) = s ∧
    if fget s (dieB d) F.MESH_STAT_SEAM_LOST = 0 ∧ ∀ e ∈ coreList, coreEnabled s d e = true → e = c ∨ e ∈ barArrived s d then
      (dieOf t d).barrier = [] ∧ fget t (dieB d) F.MESH_BAR_OPEN = 0 ∧ fget t (dieB d) F.MESH_BAR_ARRIVED = 0
    else (dieOf t d).barrier = (dieOf s d).barrier ++ [c] ∧
      fget t (dieB d) F.MESH_BAR_OPEN = 1 ∧ fget t (dieB d) F.MESH_BAR_ARRIVED = (barArrived t d).length) ∧
  (∀ d c s, d < 8 → c < 72 → fget s (coreB d c) F.CORE_CLK_CHANGING = 1 → Completes (.coreClockChangeDone d c) s fun t =>
    let h := halfOf c
    let code := fget s (dieB d) F.MESH_HCLK_CODE h
    OnlyRegs s t ∧ fget t (coreB d c) F.CORE_CLK_CHANGING = 0 ∧ fget t (coreB d c) F.CORE_CLK_CLK_ACT = fget s (coreB d c) F.CORE_CLK_CLK_REQ ∧
    (fget s (dieB d) F.MESH_HCLK_CHANGING h = 1 → (∀ e, e < 72 → halfOf e = h → fget t (coreB d e) F.CORE_CLK_CLK_ACT ≤ code) →
      fget t (dieB d) F.MESH_HCLK_ACT h = code ∧ fget t (dieB d) F.MESH_HCLK_CHANGING h = 0))

/-- Which errors a folio holds is the state's, how often a read meets them and what becomes of a codeword with more errors than the code corrects the model's (log entry 59). -/
def Obligations.DramAccessesAndFolios : Prop :=
  (
  (∀ d off n s, let st := stackOf (folioOf off)
    let phi := folioOf off / 2
    let len := min n (2048 - off % 2048)
    let r := folioRead s d st phi
    let kept := fun t : State => ({ t with memc := s.memc } : State) = s
    let others := fun t : State => ∀ d' st', d' * 2 + st' ≠ d * 2 + st → memcOf t d' st' = memcOf s d' st'
    (dramServes s d off = true → folioHeld s d off = false →
      (isUncorr r.1 = false → Completes (.dramRead d off n) s fun t =>
        (memcOf t d st).resp = sliceBytes r.2 (off % 2048) len ∧ (memcOf t d st).respPoison = false ∧ others t ∧ t.mem = s.mem ∧
        (errorsIn s d st phi = [] → kept t ∧ (memcOf t d st).resp = mread s (dramAddr d off) len)) ∧
      (isUncorr r.1 = true → 0 < n → Completes (.dramRead d off n) s fun t =>
        (memcOf t d st).reread = (memcOf s d st).reread ++ [(phi, 0, .read off n)] ∧ t.mem = s.mem ∧
        fget t (dieB d) F.MEMC_ERRFOLIO_UNCORR st = 1 ∧ fget t (dieB d) F.MEMC_ERRFOLIO_FOLIO st = phi % 2 ^ F.MEMC_ERRFOLIO_FOLIO.width)) ∧
    (dramServes s d off = true → folioHeld s d off = true → Completes (.dramRead d off n) s fun t =>
      memcOf t d st = { memcOf s d st with waiting := (memcOf s d st).waiting ++ [.rd off n] } ∧ kept t) ∧
    (dramServes s d off = false → Completes (.dramRead d off n) s fun t =>
      memcOf t d st = { memcOf s d st with resp := [], respPoison := true } ∧ kept t)) ∧
  (∀ d off data s, let st := stackOf (folioOf off)
    (dramServes s d off = true → folioHeld s d off = false → FoliosClean s d → Completes (.dramWrite d off data) s fun t =>
      mread t (dramAddr d off) data.length = data ∧ MemKept (dramAddr d off) data.length s t) ∧
    (dramServes s d off = true → folioHeld s d off = true → Completes (.dramWrite d off data) s fun t =>
      memcOf t d st = { memcOf s d st with waiting := (memcOf s d st).waiting ++ [.wr off data] } ∧ t.mem = s.mem) ∧
    (dramServes s d off = false → exec (.dramWrite d off data) s = .next s)) ∧
  (∀ d st phi e s, st < 2 → ((memcOf s d st).buf.find? fun x => x.1 == phi) = some e →
    let covers := coversFolio (e.2.map fun w => (w.1, w.2.length))
    Completes (.writeMergeExpiry d st phi) s fun t =>
      (memcOf t d st).buf = (memcOf s d st).buf.filter (fun x => x.1 != phi) ∧
      (covers = true → ({ t with memc := s.memc } : State) = s) ∧
      (covers = false → (errorsIn s d st phi = [] → t.mem = s.mem) ∧
        fget t (dieB d) F.MEMC_CNT_RMW_COUNT st = (fget s (dieB d) F.MEMC_CNT_RMW_COUNT st + 1) % 2 ^ F.MEMC_CNT_RMW_COUNT.width))) ∧
  (
  (∀ d st phi src who rest alloc s, d < 8 → st < 2 → (memcOf s d st).reread = (phi, src, who) :: rest → s.faults.openFaults = [] →
    let r := folioRead s d st phi
    let base := dramAddr d (2048 * folioAt st phi)
    let counted := fun t : State => (memcOf t d st).reread = rest ∧
      fget t (dieB d) F.MEMC_CNT_REREAD_COUNT st = (fget s (dieB d) F.MEMC_CNT_REREAD_COUNT st + 1) % 2 ^ F.MEMC_CNT_REREAD_COUNT.width
    (isUncorr r.1 = false → who = .none → Completes (.folioReread d st alloc) s fun t => counted t ∧ t.mem = s.mem) ∧
    (∀ new, isUncorr r.1 = false → who = .merge new → Completes (.folioReread d st alloc) s fun t => counted t ∧
      t.mem = (putBytes d st phi ((0, r.2) :: new) s).mem) ∧
    (∀ e, isUncorr r.1 = true → src = 2 → alloc = false → who = .none → freeRemap s d st = some e → Completes (.folioReread d st alloc) s fun t =>
      remapsOf t d st = (remapsOf s d st).set e (some phi) ∧ mread t base 2048 = List.replicate 2048 0#8 ∧ MemKept base 2048 s t) ∧
    (isUncorr r.1 = true → who = .none → fget s hubB F.FLT_MSTAT_DIEREACT ≠ 2 →
      (∀ e, src ≠ 2 ∨ alloc = true → freeRemap s d st = some e → Completes (.folioReread d st alloc) s fun t =>
        dieState t d = 3 ∧ remapsOf t d st = (remapsOf s d st).set e (some phi)) ∧
      (freeRemap s d st = none → Completes (.folioReread d st alloc) s fun t => dieState t d = 4))) ∧
  (∀ d st s, d < 8 → st < 2 → fget s (dieB d) F.MEMC_CTRL_SCRUB_EN st ≠ 0 → fget s (dieB d) F.MEMC_STAT_FILLED st ≠ 0 →
    let phi := fget s (dieB d) F.MEMC_SCRUBPOS_FOLIO st
    let r := folioRead s d st phi
    let base := dramAddr d (2048 * folioAt st phi)
    let moved := fun t : State => (memcOf t d st).owed = 0 ∧
      fget t (dieB d) F.MEMC_SCRUBPOS_FOLIO st = (if phi + 1 ≥ stackFolios then 0 else phi + 1) ∧
      fget t (dieB d) F.MEMC_CNT_SCRUB_COUNT st = (fget s (dieB d) F.MEMC_CNT_SCRUB_COUNT st + 1) % 2 ^ F.MEMC_CNT_SCRUB_COUNT.width
    let makes := scrubBlocked s d st = false ∧ (memcOf s d st).owed = 0
    (makes → errorsIn s d st phi = [] → Completes (.scrubTick d st) s fun t => moved t ∧ OnlyRegsOd s { t with memc := s.memc } ∧
      (memcOf t d st).copying = none ∧ (memcOf t d st).resp = (memcOf s d st).resp) ∧
    (makes → isUncorr r.1 = false → isCorr r.1 = true → s.faults.openFaults = [] → Completes (.scrubTick d st) s fun t =>
      moved t ∧ mread t base 2048 = r.2 ∧ MemKept base 2048 s t ∧ errorsIn t d st phi = [] ∧
      ∀ e, phi ∈ (memcOf s d st).prevPass → some phi ∉ remapsOf s d st → freeRemap s d st = some e → (memcOf t d st).copying = some (phi, e)) ∧
    (makes → isUncorr r.1 = true → Completes (.scrubTick d st) s fun t => moved t ∧ t.mem = s.mem ∧ (memcOf t d st).reread = [(phi, 2, .none)]) ∧
    (scrubBlocked s d st = true → Completes (.scrubTick d st) s fun t => OnlyRegs s { t with memc := s.memc } ∧
      memcOf t d st = { memcOf s d st with owed := (memcOf s d st).owed + 1 } ∧
      fget t (dieB d) F.MEMC_SCRUBPOS_FOLIO st = phi)) ∧
  (∀ d st phi e s, st < 2 → (memcOf s d st).copying = some (phi, e) → (memcOf s d st).waiting = [] → Completes (.remapCopyDone d st) s fun t =>
    (memcOf t d st).copying = none ∧ remapsOf t d st = (remapsOf s d st).set e (some phi) ∧ t.mem = s.mem ∧
    fget t (dieB d) F.MEMC_CNT_PROREMAP_COUNT st = (fget s (dieB d) F.MEMC_CNT_PROREMAP_COUNT st + 1) % 2 ^ F.MEMC_CNT_PROREMAP_COUNT.width) ∧
  (∀ w v s, odCheck w 0xF110 0 v (dieState s (v.nat % 8) != 3) s = 0 → v.nat < 16 → Completes (.remapResetStack w v) s fun t =>
    remapsOf t (v.nat % 8) (v.nat / 8) = noRemaps ∧ t.mgmt.resp.status = 0 ∧ t.mem = s.mem ∧
    ∀ d st, d < 8 → st < 2 → (d, st) ≠ (v.nat % 8, v.nat / 8) → remapsOf t d st = remapsOf s d st))

/-- With no invalidation running, INVALIDATION_START of a whole context or of at least one page sets BUSY, keeps the command and clears the entries of what has been freed there and no step can use; of no page it is noticed and nothing starts. INVALIDATION_DONE clears BUSY, raises SEQ, leaves in no core's cache of the die and not in its page-walk cache an entry that the command names, and keeps every other; other dies' caches and memory are as before. -/
def Obligations.InvalidationDropsTranslations : Prop :=
  (∀ d tctx whole page pages s, d < 8 → fget s (dieB d) F.MEMC_INVSTAT_BUSY = 0 →
    (whole = true ∨ 0 < pages → Completes (.invalidationStart d tctx whole page pages) s fun t =>
      fget t (dieB d) F.MEMC_INVSTAT_BUSY = 1 ∧ (dieOf t d).inval = some ⟨tctx, whole, page, pages⟩ ∧
      fget t (dieB d) F.MEMC_INVVA_PAGE = page % 2 ^ F.MEMC_INVVA_PAGE.width ∧ fget t (dieB d) F.MEMC_INVLEN_PAGES = pages % 2 ^ F.MEMC_INVLEN_PAGES.width ∧
      t.serve.unmaps = s.serve.unmaps.filter (fun u => !(u.die == d && u.tctx == tctx && !olderInFlight s u.binding u.waitStep &&
        (whole || (decide (page ≤ u.page) && decide (u.page + u.offs.length ≤ page + pages))))) ∧
      ((∀ u ∈ s.serve.unmaps, u.die ≠ d) → ({ t with regs := s.regs, dies := s.dies } : State) = s)) ∧
    (Completes (.invalidationStart d tctx false page 0) s fun t => (dieOf t d).inval = (dieOf s d).inval ∧ fget t (dieB d) F.MEMC_INVSTAT_BUSY = 0 ∧
      t.mem = s.mem ∧ odNum t 0x8000 5 = satAdd (odBits 0x8000 5) 1 (odNum s 0x8000 5))) ∧
  (∀ d i s, d < 8 → (dieOf s d).inval = some i → Completes (.invalidationDone d) s fun t =>
    fget t (dieB d) F.MEMC_INVSTAT_BUSY = 0 ∧ (dieOf t d).inval = none ∧ t.mem = s.mem ∧
    fget t (dieB d) F.MEMC_INVSTAT_SEQ = (fget s (dieB d) F.MEMC_INVSTAT_SEQ + 1) % 2 ^ F.MEMC_INVSTAT_SEQ.width ∧
    (∀ e, e ∈ (dieOf t d).pwc ↔ e ∈ (dieOf s d).pwc ∧ pwcHits i e = false) ∧
    (∀ d' c e, d' < 8 → c < 72 → (e ∈ (coreOf t d' c).tlb ↔ e ∈ (coreOf s d' c).tlb ∧
      (d' = d → invalHits i e.tctx (if e.big then e.page / 32 * 32 else e.page) (if e.big then 32 else 1) = false))))

/-- For a submitter that may submit it, and answered by one completion: KEYIMPORT of a key that unwraps to its form fills its slot, one that does not answers 0x1D and fills none; KEYERASE empties a filled slot, or answers 0x16; OPEN of a head that passes its checks creates an object of a handle no object has, and answers the handle, one that fails answers its status and creates none; a PUT chunk that continues its section lands, one that completes it with the wrong digest drops what has landed and answers 0x17, with the right one no generation of a base image waits for the section any more, and one of a private object that its dies have room for is done; CLOSE drops a private object at once where no step binds it, else when the last one ends. -/
def Obligations.KeysAndObjects : Prop :=
  ∀ aq e data s,
    let takes := fun op => AdminTaken s aq op e
    let slot := cmdSlot e
    let h := cmdHandle e
    let kind := leAt e 34 1
    (∀ l k, takes 8 → kind = 1 ∨ kind = 2 → s.flash.kik ≠ [] → Config.keyUnwrap s.flash.kik (cmdData e data) = some l → keyForm kind (cmdTenant e) l = some k →
      Completes (.keyimport aq e data) s fun t => Answers aq e 0 0 s t ∧ keyAt t slot = some k ∧ (∀ j, j ≠ slot → keyAt t j = keyAt s j) ∧ t.mem = s.mem) ∧
    (takes 8 → kind = 1 ∨ kind = 2 → s.flash.kik = [] ∨ (Config.keyUnwrap s.flash.kik (cmdData e data)).bind (keyForm kind (cmdTenant e)) = none →
      Completes (.keyimport aq e data) s fun t => Answers aq e 0x1D 0 s t ∧ t.models = s.models ∧ t.mem = s.mem) ∧
    (∀ k, takes 9 → keyAt s slot = some k → Completes (.keyerase aq e) s fun t =>
      Answers aq e 0 0 s t ∧ keyAt t slot = none ∧ (∀ j, j ≠ slot → keyAt t j = keyAt s j) ∧ t.mem = s.mem) ∧
    (takes 9 → keyAt s slot = none → Completes (.keyerase aq e) s fun t => Answers aq e 0x16 0 s t ∧ t.models = s.models ∧ t.mem = s.mem) ∧
    (∀ layers groups k l s', takes 1 → uploadKey s slot (cmdTenant e) = some k → wholeChunks slot 0 k (data.length / 64 + 1) [] (cmdData e data) s = (0, l, s') →
      let head := l.take (l.length - 96)
      let st := headStatus s' l
      (st ≠ 0 → Completes (.modelOpen aq e data layers groups) s fun t => Answers aq e st 0 s t ∧ t.models.objs = s.models.objs ∧ t.mem = s.mem) ∧
      (st = 0 → (leAt head 1 1 = 1 → k.tenant = 0) →
        (leAt head 1 1 ≠ 1 → cmdBinding e ≤ 3 ∧ privOk s' (cmdTenant e) ((List.range (headSections head)).map fun i => (sectionAt head i).len).sum = true) →
        Completes (.modelOpen aq e data layers groups) s fun t => ∃ x, Answers aq e 0 x s t ∧ 1 ≤ x ∧ objAt s x = none ∧
          objAt t x = some ⟨leAt head 1 1, if leAt head 1 1 = 1 then 0 else cmdTenant e, cmdBinding e, layers, groups, false, head, natBit (leAt e 9 1) 0, [], []⟩ ∧
          (∀ y, y ≠ x → objAt t y = objAt s y) ∧ t.mem = s.mem)) ∧
    (∀ o k (c : Chunk) i s', takes 2 → (∀ p ∈ s.models.parts, p.mapped = true) → objAt s h = some o → uploadKey s slot o.tenant = some k → o.closing = false → (o.kind = 1 → ∃ g ∈ s.models.gens, g.obj = h) →
      cmdData e data ≠ [] → takeChunk slot h k (cmdData e data) s = (0, some c, s') → c.rest = [] → sectionOf o c.off = some i → sectionKnown s h o i = false →
      let x := sectionAt o.head i
      let got := if c.off = x.off then [] else tget (fun _ => []) o.landing i
      let l := got ++ c.payload
      c.off = x.off + got.length → l.length < x.len + 16 →
      (l.length < x.len → Completes (.modelPut aq e data) s fun t => Answers aq e 0 0 s t ∧ t.mem = s.mem ∧
        objAt t h = some { o with landing := tset (fun _ => []) o.landing i l }) ∧
      (x.len ≤ l.length → (Config.sha384 (l.take x.len)).toNat ≠ x.digest → Completes (.modelPut aq e data) s fun t => Answers aq e 0x17 0 s t ∧
        t.mem = s.mem ∧ objAt t h = some { o with landing := tset (fun _ => []) o.landing i [] } ∧ t.models.gens = s.models.gens) ∧
      (x.len ≤ l.length → (Config.sha384 (l.take x.len)).toNat = x.digest → o.kind = 1 → Completes (.modelPut aq e data) s fun t =>
        Answers aq e 0 1 s t ∧ ∀ g ∈ t.models.gens, g.obj = h → i ∉ g.missing) ∧
      (∀ u, x.len ≤ l.length → (Config.sha384 (l.take x.len)).toNat = x.digest → o.kind ≠ 1 →
        let o' := { o with landing := tset (fun _ => []) o.landing i [] }
        landPrivate h o' i x (l.take x.len) (setObj h (some o') s') = some u → Completes (.modelPut aq e data) s fun t =>
          Answers aq e 0 1 s t ∧ objAt t h = some { o' with done := o.done ++ [i] })) ∧
    (∀ o, takes 10 → objAt s h = some o → o.kind ≠ 1 → o.closing = false → Completes (.modelClose aq e) s fun t => Answers aq e 0 0 s t ∧ t.mem = s.mem ∧
      objAt t h = if objInFlight s h = true then some { o with closing := true } else none) ∧
    (takes 10 → (∀ o, objAt s h = some o → o.kind = 1 ∨ o.closing = true) → Completes (.modelClose aq e) s fun t =>
      Answers aq e 0x1C 0 s t ∧ t.models = s.models ∧ t.mem = s.mem)

/-- For a submitter that may submit it, and answered by one completion: PLACE of a table that meets every condition enters one generation in Loading whose tiles lie in the arrays the table names, and answers binding and number; REUSE does so in the arrays of a record of the same image, and answers 0x1E where there is none; an accepted PATTERN image is the one loaded for its generation, object and MAXPOS, a rejected one answers and shows its check; a Loading generation whose tiles and pattern are in place becomes Ready; SWITCH of a Ready generation waits for the boundary where a step is in flight, else makes it the one Current generation of its binding; RETIRE frees a Loading or Ready generation with its parts. -/
def Obligations.GenerationsPlacedAndSwitched : Prop :=
  ∀ aq e data s,
    let takes := fun op => AdminTaken s aq op e
    let b := cmdBinding e
    let n := cmdGen e
    let h := cmdHandle e
    (∀ o l s' b' nl groups vocab u, objAt s h = some o → o.kind = 1 → b ≤ 3 ∨ b = 0xFFFF → (∀ g ∈ s.models.gens, g.gen ≠ n) →
      readWhole e data h 0 s = (0, l, s') → tableStatus o l (cmdModule e) = 0 → pickBinding s' e = some b' → s.models.gens.length < 8 →
      let mine := (tableEntries l).filter fun p => p.module == cmdModule e
      let ps := mine.filter PEntry.isTile
      let entered := fun (arrays : List Nat) (t : State) => Answers aq e 0 (placeResult b' (pickGen s' e)) s t ∧ t.mem = s.mem ∧
        ∃ g, t.models.gens = s.models.gens ++ [g] ∧ g.binding = b' ∧ g.gen = pickGen s' e ∧ g.st = 1 ∧ g.obj = h ∧ g.mode = headMode o.head ∧
          g.digest = headDigest o.head ∧ g.nl = nl ∧ g.groups = groups ∧ g.vocab = vocab ∧ g.switched = false ∧ g.tiles.map (fun t => t.arr) = arrays
      (takes 3 → addParts (pickGen s' e) h (tableParts o.head mine) s' = some u →
        ((currentGen s' b').isSome = true → (ps.filter fun p => !sharesArray s' b' o.head p).length ≤
          freeArrays s' + (ps.filter fun p => heldForRecord s' p.key).length) → arraysOk s' b' o ps = true →
        Completes (.modelPlace aq e data nl groups vocab) s (entered (ps.map PEntry.key))) ∧
      (∀ r, takes 7 → addParts (pickGen s' e) h (tableParts o.head mine) s' = some u → findRecord s' e (headDigest o.head) = some r →
        ps.all (recordHolds s' r) = true → ps.length = r.tiles.length →
        Completes (.modelReuse aq e data nl groups vocab) s (entered (ps.map (recordArray r)))) ∧
      (takes 7 → findRecord s' e (headDigest o.head) = none → Completes (.modelReuse aq e data nl groups vocab) s fun t =>
        Answers aq e 0x1E 0 s t ∧ t.models.gens = s.models.gens ∧ t.mem = s.mem)) ∧
    (∀ g o img s', takes 4 → genOf s b n = some g → objAt s h = some o →
      let digital := o.kind = 3 ∧ o.binding = b
      digital ∨ g.obj = h → readWhole e data h o.tenant s = (0, img, s') →
      ∀ dg st obj, (digital → dg = headDigest o.head ∧ obj = h) → (¬ digital → dg = g.digest ∧ obj = 0) → st = patternStatus s' g dg img →
      Completes (.modelPattern aq e data) s fun t => Answers aq e st 0 s t ∧ odNum t 0x3062 = st ∧ t.mem = s.mem ∧
        (st ≠ 0 → t.models.pats = s.models.pats) ∧
        (st = 0 → (⟨b, n, obj, patMaxpos img, img, false, []⟩ : PatImage) ∈ t.models.pats ∧
          ∀ p ∈ t.models.pats, p.binding = b → p.gen = n → p.obj = obj → p.maxpos = patMaxpos img → p.old = false → p.bytes = img)) ∧
    (∀ g, genOf s b n = some g → genReady s g = true → Completes (.generationReady b n) s fun t =>
      genOf t b n = some { g with st := 2 } ∧ (∀ b' n', (b', n') ≠ (b, n) → genOf t b' n' = genOf s b' n') ∧
      ({ t with models := { t.models with gens := s.models.gens } } : State) = s) ∧
    (∀ g, takes 5 → genOf s b n = some g → g.st = 2 → Completes (.modelSwitch aq e) s fun t => Answers aq e 0 0 s t ∧ t.mem = s.mem ∧
      (bindInFlight s b = true → genOf t b n = some { g with switched := true } ∧ ∀ x ∈ t.models.gens, x.binding = b → x.gen ≠ n → x.switched = false) ∧
      (bindInFlight s b = false → (∃ g', genOf t b n = some g' ∧ g'.st = 3) ∧ ∀ x ∈ t.models.gens, x.binding = b → x.st = 3 → x.gen = n)) ∧
    (∀ g, takes 6 → genOf s b n = some g → g.st = 1 ∨ g.st = 2 → Completes (.modelRetire aq e) s fun t => Answers aq e 0 0 s t ∧ t.mem = s.mem ∧
      genOf t b n = none ∧ (∀ p ∈ t.models.parts, p.gen ≠ n) ∧ ∀ b' n', (b', n') ≠ (b, n) → genOf t b' n' = genOf s b' n')

/-- A fetched command, its form and queue good, is answered from its reserved slot. CREATE with an image in range, of a queue below CTXMAX, makes a Free context Idle with the image's fields, its tenant, queue and range, and answers its number; with nothing Free, or no range, it answers 0x21. FORK does so with the source's first COUNT positions, each of whose page groups counts one reference more and is mapped in the new range, and leaves the source as it is; the page tables are all that changes in memory. SETPARAM takes the image's fields, or keeps the image for the next step where the context is Stepping. DESTROY frees a context that is not Stepping and latches for one that is. -/
def Obligations.ContextsComeAndGo : Prop :=
  ∀ q e s, let x := leAt e 12 4
    let c := ctxOf s x
    (∀ img, let maxlen := leAt img 12 4 % 2 ^ 21
      fetched s q 1 e = true → serveFormOk e = true → leAt img 0 1 / 16 = 1 → queueOpen s q = true → imgInRange s img = true → 1 ≤ maxlen →
      maxlen ≤ 2 ^ 20 → imgHandles s q img = true →
      let b := (queueOf s q).binding
      (∀ y base, freeContext s = some y → newRange s b (rangeBytes s b maxlen) = some base → ctxsOfQueue s q < (queueOf s q).ctxmax →
        Completes (.serveCreate q e img) s fun t => Served q e 0 y s t ∧ (ctxOf s y).st = 0 ∧ OtherCtxs y s t ∧ t.mem = s.mem ∧
          ctxOf t y = { takeImage img { Ctx.free with maxlen := maxlen } with
            st := 1, tenant := (queueOf s q).tenant, queue := q, kvva := base, touched := hubTime s }) ∧
      (freeContext s = none ∨ newRange s b (rangeBytes s b maxlen) = none ∨ (queueOf s q).ctxmax ≤ ctxsOfQueue s q →
        Completes (.serveCreate q e img) s fun t => Served q e 0x21 0 s t ∧ t.serve = s.serve ∧ t.mem = s.mem)) ∧
    (∀ y base, let src := leAt e 28 4
      let n := leAt e 24 4
      let f := ctxOf s src
      let b := (queueOf s q).binding
      let pages := f.pages.filter fun p => decide (p.1 < (n + 63) / 64)
      fetched s q 8 e = true → serveFormOk e = true → queueOpen s q = true → 1 ≤ f.st → f.st ≤ 3 → f.queue = q → 1 ≤ n → n ≤ f.length →
      (∀ p ∈ pages, (groupOf s (p.2 - 1)).refs < 65535) → freeContext s = some y → newRange s b (rangeBytes s b f.maxlen) = some base →
      ctxsOfQueue s q < (queueOf s q).ctxmax → Completes (.serveFork q e) s fun t => Served q e 0 y s t ∧ OtherCtxs y s t ∧
        t.mem = (pages.foldl (fun u p => mapGroup b base p.1 (p.2 - 1) u) s).mem ∧
        (let z := ctxOf t y
         z.st = 1 ∧ z.length = n ∧ z.pages = pages ∧ z.pending = 0 ∧ z.toks = [] ∧ z.generate = false ∧ z.kvva = base ∧ z.queue = q ∧
         z.seed = (takeParams f).seed ∧ z.temp = (takeParams f).temp ∧ z.maxlen = f.maxlen ∧ z.adapt = (takeParams f).adapt ∧
          z.appr = (takeParams f).appr) ∧
        ∀ g, (groupOf t g).refs = (groupOf s g).refs + (pages.filter fun p => p.2 - 1 == g).length) ∧
    (∀ img, ServeTaken s q 7 e → leAt img 0 1 / 16 = 1 → c.st ≠ 7 → c.st ≠ 8 → imgInRange s img = true → imgHandles s q img = true →
      Completes (.serveSetparam q e img) s fun t => Served q e 0 0 s t ∧ OtherCtxs x s t ∧ t.mem = s.mem ∧
        ctxOf t x = (let c := { c with touched := hubTime s }
          if c.st = 3 then { c with params := some img } else takeImage img c)) ∧
    (ServeTaken s q 6 e → c.st ≠ 3 → c.pauseCid = [] → c.resumeCid = [] → Completes (.serveDestroy q e) s fun t =>
      Served q e 0 0 s t ∧ ctxOf t x = Ctx.free ∧ OtherCtxs x s t ∧ t.mem = s.mem) ∧
    (ServeTaken s q 6 e → c.st = 3 → Completes (.serveDestroy q e) s fun t =>
      Waits s t ∧ ctxOf t x = { c with touched := hubTime s, destroyCid := c.destroyCid ++ [leAt e 2 2] } ∧ OtherCtxs x s t)

/-- A fetched command that names a context of its queue: SUBMIT of tokens that fit adds them to the pending ones and makes an Idle context Runnable, a Paused one Resuming, a Pausing one resume afterwards; CANCEL of an Idle or Runnable context drops its pending work and leaves it Idle, of a Stepping one waits for its gate, of another leaves its state; PAUSE of an Idle or Runnable context begins Pausing where the pool has the blocks, else answers 0x26 and changes nothing but TOUCHED, waits with a Stepping or Pausing one, and answers at once for a Paused one; RESUME makes a Paused context Resuming and waits, or with NOWAIT answers at once. Of a Lost or Failed context each answers 0x23. No other context changes and no byte of memory. -/
def Obligations.ContextsWorkAndWait : Prop :=
  ∀ q e s, let x := leAt e 12 4
    let c := ctxOf s x
    let c' := { c with touched := hubTime s }
    let cid := leAt e 2 2
    let nw := natBit (leAt e 9 1) 1
    let kept := fun t : State => OtherCtxs x s t ∧ t.mem = s.mem
    (∀ toks, let n := leAt e 24 4
      ServeTaken s q 2 e → c.st ≠ 7 → c.st ≠ 8 → 1 ≤ n → n ≤ 2 ^ 20 → c.length + c.pending + n ≤ c.maxlen →
      c.length + c.pending + n ≤ topMaxpos s (queueOf s q).binding → (∀ t ∈ toks.take n, t < (bindOf s (queueOf s q).binding).vocab) →
      s.serve.tokUsed + n ≤ tokenBuffer → Completes (.serveSubmit q e toks) s fun t => Served q e 0 (c.pending + n) s t ∧ kept t ∧
        (ctxOf t x).pending = c.pending + n ∧ (ctxOf t x).toks = c.toks ++ (List.range n).map (fun i => toks.getD i 0) ∧
        (ctxOf t x).generate = natBit (leAt e 9 1) 0 ∧ t.serve.tokUsed = s.serve.tokUsed + n ∧
        (ctxOf t x).st = (if c.st = 1 then 2 else if c.st = 5 then 6 else c.st) ∧ (c.st = 4 → (ctxOf t x).resumeAfter = true)) ∧
    (ServeTaken s q 3 e → c.st = 1 ∨ c.st = 2 → Completes (.serveCancel q e) s fun t => Served q e 0 c.length s t ∧ kept t ∧
      ctxOf t x = { c' with st := 1, pending := 0, toks := [], maxnew := 0, generate := false } ∧
      t.serve.tokUsed = s.serve.tokUsed - c.toks.length) ∧
    (ServeTaken s q 3 e → c.st = 3 → Completes (.serveCancel q e) s fun t => Waits s t ∧ kept t ∧
      ctxOf t x = { c' with cancelCid := c.cancelCid ++ [cid] }) ∧
    (ServeTaken s q 4 e → c.st = 1 ∨ c.st = 2 → (startPause x s).1 = true → Completes (.servePause q e) s fun t => kept t ∧
      (ctxOf t x).st = 4 ∧ (ctxOf t x).pauseCid = c.pauseCid ++ [(cid, nw)] ∧ (ctxOf t x).blocks.map (fun k => (k.page, k.frame)) = cellarNeed s x ∧
      (∀ k ∈ (ctxOf t x).blocks, k.addr ∈ cellarBlocks s ∧ k.addr ∉ s.serve.blocksUsed ∧ k.addr ∈ t.serve.blocksUsed) ∧
      (nw = true → Served q e 0 4 s t) ∧ (nw = false → Waits s t)) ∧
    (ServeTaken s q 4 e → c.st = 1 ∨ c.st = 2 → (startPause x s).1 = false → Completes (.servePause q e) s fun t =>
      Served q e 0x26 0 s t ∧ kept t ∧ ctxOf t x = c' ∧ t.serve.blocksUsed = s.serve.blocksUsed) ∧
    (ServeTaken s q 3 e → c.st = 4 ∨ c.st = 5 ∨ c.st = 6 → Completes (.serveCancel q e) s fun t => Served q e 0 c.length s t ∧ kept t ∧
      ctxOf t x = { c' with pending := 0, toks := [], maxnew := 0, generate := false }) ∧
    (ServeTaken s q 4 e → c.st = 3 ∨ c.st = 4 → Completes (.servePause q e) s fun t => kept t ∧
      ctxOf t x = { c' with pauseCid := c.pauseCid ++ [(cid, nw)] } ∧ (nw = true → Served q e 0 c.st s t) ∧ (nw = false → Waits s t)) ∧
    (ServeTaken s q 4 e → c.st = 5 → Completes (.servePause q e) s fun t => Served q e 0 5 s t ∧ kept t ∧ ctxOf t x = c') ∧
    (ServeTaken s q 5 e → c.st = 1 ∨ c.st = 2 ∨ c.st = 3 → Completes (.serveResume q e) s fun t => Served q e 0 c.st s t ∧ kept t ∧ ctxOf t x = c') ∧
    (ServeTaken s q 5 e → c.st = 4 ∨ c.st = 5 ∨ c.st = 6 → Completes (.serveResume q e) s fun t => kept t ∧
      ctxOf t x = { c' with
        st := if c.st = 4 then 4 else 6, resumeAfter := c.resumeAfter || decide (c.st = 4), resumeCid := c.resumeCid ++ [(cid, nw)] } ∧
      (nw = true → Served q e 0 (if c.st = 4 then 4 else 6) s t) ∧ (nw = false → Waits s t)) ∧
    (c.st = 7 ∨ c.st = 8 → let refused := fun t : State => Served q e 0x23 0 s t ∧ kept t ∧ ctxOf t x = c'
      (∀ toks, ServeTaken s q 2 e → Completes (.serveSubmit q e toks) s refused) ∧
      (ServeTaken s q 3 e → Completes (.serveCancel q e) s refused) ∧ (ServeTaken s q 4 e → Completes (.servePause q e) s refused) ∧
      (ServeTaken s q 5 e → Completes (.serveResume q e) s refused))

/-- A finished copy makes its Pausing context Paused with no page and sealed blocks, or Resuming where a RESUME came meanwhile; a finished restore makes a Resuming context Runnable or Idle with frames for its committed pages, what the host gave back in them, and no cellar block, and with a bad tag Lost. A Paused context whose TTL has passed is Free; an Idle one past IDLEPAUSE begins Pausing where the pool has the blocks. A finished copy-on-write copies the used slots, points the context's page at its new frames and maps them. Reclamation takes back exactly the frames and ranges being freed whose invalidation is done and whose steps have retired. An accepted queue record sets the selected queue and no other. -/
def Obligations.CellarFramesAndQueues : Prop :=
  (∀ x bl s, (ctxOf s x).st = 4 → hubRereadDue s = false → (sealBlocks x (ctxOf s x) (ctxOf s x).blocks s).1 = some bl → Completes (.cellarCopyDone x) s fun t =>
    (ctxOf t x).st = (if (ctxOf s x).resumeAfter = true then 6 else 5) ∧ (ctxOf t x).pages = [] ∧ (ctxOf t x).pauseCid = [] ∧
    (ctxOf t x).blocks = bl ∧ OtherCtxs x s t ∧ t.mem = s.mem) ∧
  (∀ x data s, let c := ctxOf s x
    let b := ctxBinding s c
    c.st = 6 → rangePending s b c.kvva (rangeBytes s b c.maxlen) = false →
    (∀ l, openBlocks s x c data = some l → framesOk s b { c with length := 0, pages := [] } c.length = true → Completes (.cellarRestoreDone x data) s fun t =>
      (ctxOf t x).st = (if c.workLeft = true then 2 else 1) ∧ (ctxOf t x).blocks = [] ∧ (ctxOf t x).resumeCid = [] ∧ OtherCtxs x s t ∧
      t.mem = (l.foldl (fun u k => putBack x k u) (restorePages x s)).mem) ∧
    (openBlocks s x c data = none → c.destroyCid = [] → Completes (.cellarRestoreDone x data) s fun t =>
      (ctxOf t x).st = 7 ∧ (ctxOf t x).pages = [] ∧ (ctxOf t x).blocks = [] ∧ OtherCtxs x s t ∧ t.mem = s.mem)) ∧
  (∀ x s, (ctxOf s x).st = 5 → (ctxOf s x).ttl ≠ 0 → Completes (.cellarTtlExpiry x) s fun t =>
    ctxOf t x = Ctx.free ∧ OtherCtxs x s t ∧ t.mem = s.mem ∧ odNum t 0x7056 = satAdd (odBits 0x7056 0) 1 (odNum s 0x7056)) ∧
  (∀ x s, (ctxOf s x).st = 1 → 0 < odNum s 0x7028 → Completes (.idlepauseExpiry x) s fun t => OtherCtxs x s t ∧ t.mem = s.mem ∧ t.hif = s.hif ∧
    ((startPause x s).1 = true → (ctxOf t x).st = 4 ∧ (ctxOf t x).blocks.map (fun k => (k.page, k.frame)) = cellarNeed s x) ∧
    ((startPause x s).1 = false → t = s)) ∧
  (∀ x p w s' s, (s.serve.cows.find? fun w => w.ctx == x && w.page == p && !w.done) = some w → hubRereadDue s = false →
    let c := ctxOf s x
    let g := groupOf s w.dst
    let old := groupOf s (tget (fun _ => 0) c.pages p - 1)
    let others := fun u : State => u.serve.cows.filter fun v => !(v.ctx == x && v.page == p)
    copyFrames c g.die ((old.home.zip g.home).zipIdx.map fun q => (q.2, q.1.1, q.1.2)) s = (true, s') → Completes (.cowCopyDone x p) s fun t =>
      tget (fun _ => 0) (ctxOf t x).pages p = w.dst + 1 ∧ (∀ i, i ≠ p → tget (fun _ => 0) (ctxOf t x).pages i = tget (fun _ => 0) c.pages i) ∧
      others t = others s ∧ (∀ v ∈ t.serve.cows, v.ctx = x → v.page = p → v.done = true) ∧ OtherCtxs x s t ∧
      t.mem = (mapGroup w.binding c.kvva p w.dst s').mem) ∧
  (∀ s, Completes .frameReclaim s fun t => ({ t with serve := { t.serve with groups := s.serve.groups, ranges := s.serve.ranges } } : State) = s ∧
    (∀ p, p ∈ t.serve.groups ↔ p ∈ s.serve.groups ∧ ¬ (p.2.freeing = true ∧ p.2.invalDone = true ∧ olderInFlight s p.2.binding p.2.waitStep = false)) ∧
    ∀ r, r ∈ t.serve.ranges ↔ r ∈ s.serve.ranges ∧ ¬ (r.freeing = true ∧ r.invalDone = true ∧ olderInFlight s r.binding r.waitStep = false)) ∧
  (∀ w v s, let q := odNum s 0x7030 1
    let e := v.bytesOf
    odCheck w 0x7030 2 v true s = 0 → queueStatus s q e = 0 → Completes (.queueRecordWrite w v) s fun t => t.mgmt.resp.status = 0 ∧ t.mem = s.mem ∧
      (let x := queueOf t q
       x.enable = natBit (leAt e 1 1) 0 ∧ x.bulk = natBit (leAt e 1 1) 1 ∧ x.tenant = leAt e 2 2 ∧ x.binding = leAt e 4 1 ∧
       x.weight = leAt e 5 1 ∧ x.chunk = leAt e 6 2 ∧ x.ctxmax = leAt e 8 4) ∧ (∀ q', q' ≠ q → queueOf t q' = queueOf s q') ∧ t.serve.ctxs = s.serve.ctxs)

/-- What an audit run reads and where is the model's choice (log entry 68), as are the frames of a follower (38). -/
def Obligations.StepsFormedAndStarted : Prop :=
  let keys := fun s : State => s.serve.steps.map fun p => (p.binding, p.num)
  let onlySteps := fun s t : State => ({ t with wire := s.wire, serve := { t.serve with steps := s.serve.steps, outbox := s.serve.outbox } } : State) = s
  (∀ b accepted s, Completes (.stepFormation b accepted) s fun t => keys t = keys s ∨
    (∃ r ∈ (bindOf s b).auditDue, keys t = keys s ++ [(r.binding, r.num)]) ∨
    ∃ p ∈ t.serve.steps, keys t = keys s ++ [(p.binding, p.num)] ∧ p.binding = b ∧ p.num = (bindOf s b).stepNum + 1 ∧ p.lead = true ∧ p.phase = 0 ∧
      p.rows ≠ [] ∧ (bindOf t b).stepNum = p.num) ∧
  (∀ b accepted g q z x c s, let u := mapParts (stepBoundary b s)
    let num := (bindOf u b).stepNum + 1
    (bindOf u b).auditDue = [] → formGen u b accepted = some g → mayForm u b g = true → (bindOf u b).confirmRows = [] → u.serve.queues = [(q, z)] →
    z.enable = true → z.bulk = false → z.binding = b → 1 ≤ z.weight → queueEligible u q = true → u.serve.ctxs = [(x, c)] → c.st = 2 → c.queue = q →
    c.pending = 0 → c.appr = 0 → c.adapt = [] → c.retry < odNum u 0x7025 → framesOk u b c 1 = true →
    (bucketFor u b g.gen (c.length + 1)).isSome = true → 1 ≤ odNum u 0x7020 → 1 ≤ odNum u 0x7021 → (∀ r, ringsOf u q = some r → 1 ≤ freeOq r) →
    Completes (.stepFormation b accepted) s fun t =>
      t.mem = (takeFrames b num x c.length 1 u).mem ∧ ∃ p ∈ t.serve.steps, ∃ r, keys t = keys s ++ [(b, num)] ∧ p.binding = b ∧ p.num = num ∧
        p.rows = [r] ∧ p.gen = g.gen ∧ some p.bucket = bucketFor u b g.gen (c.length + 1) ∧
        r.ctx = x ∧ r.queue = q ∧ r.role = 0 ∧ r.first = c.length ∧ r.count = 1 ∧ r.inputs = [c.nextTok] ∧ (ctxOf t x).st = 3) ∧
  (∀ b num gen bucket audrole levels rows s, stepOf s b num = none → (bindOf s b).lead = false →
    Completes (.hubmsgPrepare b num gen bucket audrole levels rows) s fun t =>
      ({ t with serve := { t.serve with steps := s.serve.steps } } : State) =
        (if num < runBit then rows.foldl (fun u r => followFrames b r u) (mapParts s) else s) ∧
      ∃ p, t.serve.steps = s.serve.steps ++ [p] ∧ p.num = num ∧ p.binding = b ∧ p.gen = gen ∧ p.bucket = bucketOf s b gen bucket ∧ p.rows = rows ∧
        p.levels = levels ∧ p.confirm = decide (audrole = 3) ∧ p.phase = 0 ∧ p.lead = false) ∧
  (∀ b num gen bucket audrole levels rows s, stepOf s b num = none → (bindOf s b).lead = true →
    Completes (.hubmsgPrepare b num gen bucket audrole levels rows) s fun t =>
      ({ t with serve := { t.serve with binds := s.serve.binds } } : State) = s ∧
      (audrole < 2 ∨ currentGen s b = none → t = s) ∧
      (2 ≤ audrole → (currentGen s b).isSome = true → ∃ r, (bindOf t b).auditDue = (bindOf s b).auditDue ++ [r] ∧ r.num = num + runBit ∧
        r.binding = b ∧ r.auditOf = some (4, num) ∧ r.levels = levels)) ∧
  (∀ b num m p s, stepOf s b num = some p → p.lead = true → p.phase = 0 → m < stepModules s p → copiesDone s p = true → (m = 0 → slotsValid s p = true) →
    Completes (.hubmsgReady b num m) s fun t => onlySteps s t ∧
      let r := if m ∈ p.ready then p.ready else p.ready ++ [m]
      if stepModules s p ≤ r.length then stepOf t b num = some { p with ready := r, phase := 1 } ∧ t.wire = (writeParams p s).wire
      else stepOf t b num = some { p with ready := r } ∧ t.wire = s.wire) ∧
  (∀ b num p s, stepOf s b num = some p → p.lead = false → p.phase = 0 → slotsValid s p = true → Completes (.hubmsgGo b num) s fun t =>
    onlySteps s t ∧ stepOf t b num = some { p with phase := 1 } ∧ t.wire = (writeParams p s).wire) ∧
  (∀ b num p s, stepOf s b num = some p → p.lead = true → p.phase = 0 → Completes (.preptoExpiry b num) s fun t =>
    stepOf t b num = none ∧ t.mem = s.mem ∧ (∀ d c, ∀ a ∈ (coreOf t d c).appends, ¬ (a.binding = b ∧ a.step = num)) ∧
    (p.auditOf = none → ∀ r ∈ p.rows, (ctxOf s r.ctx).st = 3 → (ctxOf s r.ctx).cancelCid = [] → (ctxOf s r.ctx).destroyCid = [] →
      (ctxOf s r.ctx).pauseCid = [] → (ctxOf s r.ctx).params = none → (ctxOf t r.ctx).st = 2 ∧ (ctxOf t r.ctx).retry = (ctxOf s r.ctx).retry)) ∧
  (∀ b l s, let p := tget (fun _ => Promo.none) (bindOf s b).promo l
    0 < p.level → p.left = 0 → p.trial = false → Completes (.promotionHoldExpiry b l) s fun t =>
      tget (fun _ => Promo.none) (bindOf t b).promo l = { p with trial := true, tstep := none } ∧
      (l < (bindOf s b).nl → (startLevels t b).getD l 0 = max (odNum s 0x4106) (rungDown ((bindOf s b).wcls == 0) p.level)) ∧
      (∀ l', l' ≠ l → tget (fun _ => Promo.none) (bindOf t b).promo l' = tget (fun _ => Promo.none) (bindOf s b).promo l') ∧
      ({ t with serve := { t.serve with binds := s.serve.binds } } : State) = s)

/-- How a module's report, its results and the signatures of another module's run reach the gate is the model's choice (log entry 37), as is the order of the cores. -/
def Obligations.GateCommitsOrAbandons : Prop :=
  ∀ b num p s, stepOf s b num = some p →
    let held := s.cores.flatMap fun k => (k.2.appends.filter fun a => a.binding == b && a.step == num).mergeSort fun a c => decide (a.no ≤ c.no)
    let local_ := (∀ d, d < 8 → FoliosClean s d) ∧ (∀ k ∈ s.cores, ∀ u ∈ k.2.runs, ∀ r, u.2 = some r → leAt r.q.body 1 1 ≠ 3) ∧
      ∀ a ∈ held, a.die < 8 ∧ ∀ w ∈ a.writes, w.1 / 2 ^ 50 = dieNum s a.die ∧ w.1 / 2 ^ 48 % 4 = 0
    let written := fun lens => held.foldl (fun u a => (keptWrites lens a).foldl (fun u w => mwrite u (dramAddr a.die (w.1 % 2 ^ 48)) w.2) u) s
    let dropped := fun t : State => ∀ d c, ∀ a ∈ (coreOf t d c).appends, ¬ (a.binding = b ∧ a.step = num)
    let released := fun lens (t : State) => (∀ k, mget t k = mget (written lens) k) ∧ dropped t
    let ended := fun t : State => stepOf t b num = none ∧ t.mem = s.mem ∧ dropped t
    (∀ reports results sigs q, let g := gather b num reports s
      stepOf g b num = some q → q.lead = true → q.phase = 1 ∨ q.phase = 3 → q.auditOf = none → modState s = 2 →
      let decides := Completes (.commitDecision b num reports results sigs) s
      let fails := q.failed = true ∨ ∃ r, auditRun g q = some r ∧ r.failed = true
      let over_ := q.phase = 3 ∨ tasksOver g b num = true ∧ stepModules g q ≤ reports.length + 1
      let commits := q.audited = false ∧ local_ ∧ ∀ r ∈ s.serve.steps, r.auditOf ≠ some (b, num)
      (fails → decides fun t => ended t ∧ (bindOf t b).auditRetry = true) ∧
      (¬ fails → ¬ over_ → decides fun t => t = g) ∧
      (¬ fails → over_ → commits → stepModules g q = 1 → decides fun t => stepOf t b num = none ∧ released (rowLens s q results) t ∧
        (bindOf t b).committed = num ∧ fget t hubB F.HUB_GATESTAT_COMMITS = (fget s hubB F.HUB_GATESTAT_COMMITS + 1) % 2 ^ F.HUB_GATESTAT_COMMITS.width) ∧
      (¬ fails → over_ → commits → 2 ≤ stepModules g q → decides fun t => released (rowLens s q results) t ∧
        ∃ p', stepOf t b num = some p' ∧ p'.phase = 2 ∧ p'.done = [0]) ∧
      (∀ l, ¬ fails → over_ → q.audited = true → q.confirm = false → recordPairs g q sigs = some l → s.faults.openFaults = [] →
        l.all (sigPasses (odNum s (0x8070 + b) 4)) = false → decides fun t => ended t ∧ (bindOf t b).confirmRows = q.rows)) ∧
    (∀ lens, (bindOf s b).lead = false → local_ → Completes (.hubmsgCommit b num lens) s fun t =>
      stepOf t b num = none ∧ released lens t ∧ (bindOf t b).committed = num) ∧
    (∀ cause, (bindOf s b).lead = false → Completes (.hubmsgAbandon b num cause) s ended) ∧
    (∀ r n lens cause, (bindOf s b).lead = true → (s.serve.steps.find? fun r => r.binding == b && r.lead && r.auditOf == some (4, n)) = some r →
      let gone := fun t : State => stepOf t r.binding r.num = none ∧ t.mem = s.mem
      Completes (.hubmsgCommit b n lens) s gone ∧ Completes (.hubmsgAbandon b n cause) s gone) ∧
    (∀ m, p.lead = true → p.phase = 2 → m < stepModules s p →
      let done := if m ∈ p.done then p.done else p.done ++ [m]
      Completes (.hubmsgDone b num m) s fun t => t.mem = s.mem ∧
        if stepModules s p ≤ done.length then stepOf t b num = none ∧ (bindOf t b).committed = num
        else stepOf t b num = some { p with done := done }) ∧
    (∀ m, p.lead = true → p.phase = 2 → m ∉ p.done → s.faults.openFaults = [] → fget s hubB F.FLT_MSTAT_LINKREACT ≠ 2 →
      Completes (.gatetoExpiry b num m) s fun t => stepOf t b num = none ∧ t.mem = s.mem ∧
        ∀ r ∈ p.rows, (ctxOf s r.ctx).destroyCid = [] → (ctxOf t r.ctx).st = 7) ∧
    (p.lead = true → p.audited = true → p.phase = 3 → Completes (.audtoExpiry b num) s fun t => ended t ∧ (bindOf t b).auditSkip = true ∧
      (bindOf t b).expiries = if 3 ≤ (bindOf s b).expiries + 1 then 0 else (bindOf s b).expiries + 1) ∧
    (∀ w v, odCheck w (0x8070 + b) 11 v true s = 0 → Completes (.auditRequest w b v) s fun t =>
      bindOf t b = { bindOf s b with auditNext := true } ∧ t.mgmt.resp.status = 0 ∧ t.mem = s.mem)

/-- A cable put into an external port starts its training where the port may train, else leaves it Down; one taken out leaves NoCable (of a Routed port, with no fault open and the default reaction). Four lanes, or two where the policy allows them, bring a training port Up with its class kept, its partner forgotten and an IDENT sent; none, or two under the other policy, leave it Down. A Down port trains again on the retry tick where it may; a retrain starts over. An IDENT names the partner and makes the port Routed where it is what the plan says, Extra where none is expected, else Miswired. A quarantined port sends IDENT at its tick; an expected port without IDENT is Missing when DISCTO ends. No byte of memory changes. -/
def Obligations.PortsTrainAndClassify : Prop :=
  ∀ d p s, d < 8 → p < 6 →
    let k := d * 8 + p
    let b := dieB d
    let st := fun t : State => portState t d p
    let sentIdent := fun t : State => ∃ x, t.fab.sent.getLast? = some (k, x) ∧ x.typ = 4 ∧ x.ctl = true ∧ x.addr = 1 ∧ x.data = identBytes s d p
    let cabled : State := { s with power := { s.power with cables := s.power.cables ++ [k] } }
    (internalPort d p = false → k ∉ s.power.cables → Completes (.cableInserted d p) s fun t =>
      t.power.cables = s.power.cables ++ [k] ∧ st t = (if mayTrain cabled d p = true then 2 else 1) ∧ t.mem = s.mem) ∧
    (internalPort d p = false → k ∈ s.power.cables → portClass s d p ≠ 1 ∨ (s.faults.openFaults = [] ∧ fget s hubB F.FLT_MSTAT_LINKREACT ≠ 2) → Completes (.cableRemoved d p) s fun t =>
      t.power.cables = s.power.cables.filter (fun x => x != k) ∧ st t = 0 ∧ t.mem = s.mem) ∧
    (∀ lanes, st s = 2 → Completes (.portTrainingDone d p lanes) s fun t => t.mem = s.mem ∧ portClass t d p = portClass s d p ∧
      if lanes = 4 ∨ (lanes = 2 ∧ fget s b F.LINK_CTRL_WIDTHPOL p ≠ 1) then
        st t = 3 ∧ fget t b F.LINK_STAT_X2 p = (if lanes = 2 then 1 else 0) ∧ fget t b F.LINK_PARTNER_VALID p = 0 ∧ sentIdent t
      else st t = 1) ∧
    (st s = 1 → mayTrain s d p = true → Completes (.trainingRetryTick d p) s fun t => st t = 2 ∧ portClass t d p = portClass s d p ∧ t.mem = s.mem) ∧
    (st s ≠ 1 ∨ mayTrain s d p = false → exec (.trainingRetryTick d p) s = .next s) ∧
    (mayTrain s d p = true → Completes (.linkRetrain d p) s fun t => st t = 2 ∧ portClass t d p = lostClass s d p ∧
      (portAt t d p).unacked = [] ∧ (portAt t d p).since = hubTime s ∧ t.mem = s.mem) ∧
    (∀ i, 3 ≤ st s → Completes (.identReceived d p i) s fun t => t.mem = s.mem ∧ fget t b F.LINK_PARTNER_VALID p = 1 ∧
      fget t b F.LINK_PARTNER_DIE p = i.die % 2 ^ F.LINK_PARTNER_DIE.width ∧ (portAt t d p).ident = some i ∧
      (expected s d p = false → st t = 4 ∧ portClass t d p = 3) ∧
      (expected s d p = true → misreason s d p i = 0 → st t = 3 ∧ portClass t d p = 1) ∧
      (expected s d p = true → misreason s d p i ≠ 0 → st t = 4 ∧ portClass t d p = 4 ∧ fget t b F.LINK_STAT_MISREASON p = misreason s d p i)) ∧
    (st s = 4 → Completes (.identSendTick d p) s fun t => sentIdent t ∧ t.mem = s.mem ∧ t.fab.sent.length = s.fab.sent.length + 1) ∧
    (expected s d p = true → portClass s d p = 0 → (portAt s d p).ident = none → Completes (.disctoExpiry d p) s fun t =>
      portClass t d p = 2 ∧ st t = st s ∧ t.mem = s.mem)

/-- On an Up port a flit of 256 bytes with a good CRC and the SEQ expected advances it and frees what its ACKSEQ covers; another one asks once for a replay, counted while replays are few; the codewords that the lanes corrected or could not are counted. A replay asked for sends the flits held from its SEQ on again. A fast retrain that ends well is over; one that does not, on a port that is not Routed, starts training anew where it may. A data packet for this die with its tenant present and its range owned is stored (no folio in error), or is on its way to its scratchpad; one for another die leaves on the port its table names with one hop more, on the channel of its next link; one on a port that is not Up is dropped and counted. -/
def Obligations.LinksRetryAndCarryPackets : Prop :=
  ∀ d p s, d < 8 → p < 6 →
    let b := dieB d
    let x := portAt s d p
    let few := (x.replays.filter fun t => decide (hubTime s < t + 1000)).length < 16
    let replayed := fget s b F.LINK_CNT_REPLAY_COUNT p + 1
    let rmod := 2 ^ F.LINK_CNT_REPLAY_COUNT.width
    (∀ corr unc flit, 3 ≤ portState s d p →
      let seq := leAt flit 2 2 % 4096
      let ack := leAt flit 4 2 % 4096
      let good := flitOk flit = true ∧ seq = x.expSeq
      let fec := fun t : State => fget t b F.LINK_CNT_FECCORR_COUNT p = (fget s b F.LINK_CNT_FECCORR_COUNT p + corr) % 2 ^ F.LINK_CNT_FECCORR_COUNT.width ∧
        fget t b F.LINK_CNT_FECUNC_COUNT p = (fget s b F.LINK_CNT_FECUNC_COUNT p + unc) % 2 ^ F.LINK_CNT_FECUNC_COUNT.width
      (good → Completes (.linkFlitReceive d p corr unc flit) s fun t => t.mem = s.mem ∧ fec t ∧
        (portAt t d p).expSeq = (x.expSeq + 1) % 4096 ∧ (portAt t d p).asked = false ∧
        (portAt t d p).unacked = (match x.unacked.findIdx? fun k => k == ack with | some i => x.unacked.drop (i + 1) | none => x.unacked)) ∧
      (¬ good → x.asked = false → few → Completes (.linkFlitReceive d p corr unc flit) s fun t => t.mem = s.mem ∧ fec t ∧
        (portAt t d p).expSeq = x.expSeq ∧ (portAt t d p).asked = true ∧ fget t b F.LINK_CNT_REPLAY_COUNT p = replayed % rmod) ∧
      (¬ good → x.asked = true → Completes (.linkFlitReceive d p corr unc flit) s fun t =>
        OnlyRegsOd s t ∧ fec t ∧ fget t b F.LINK_CNT_RXFLIT_COUNT p = (fget s b F.LINK_CNT_RXFLIT_COUNT p + 1) % 2 ^ F.LINK_CNT_RXFLIT_COUNT.width)) ∧
    (∀ seq i, (x.unacked.findIdx? fun k => k == seq) = some i → i < 64 → few → Completes (.linkReplay d p seq) s fun t => t.mem = s.mem ∧
      fget t b F.LINK_CNT_TXFLIT_COUNT p = (fget s b F.LINK_CNT_TXFLIT_COUNT p + (min 64 x.unacked.length - i)) % 2 ^ F.LINK_CNT_TXFLIT_COUNT.width ∧
      fget t b F.LINK_CNT_REPLAY_COUNT p = replayed % rmod ∧ (portAt t d p).unacked = x.unacked) ∧
    (x.retraining = true →
      (Completes (.fastRetrainDone d p true) s fun t => portAt t d p = { x with retraining := false } ∧ t.regs = s.regs ∧ t.mem = s.mem) ∧
      (portClass s d p ≠ 1 → Completes (.fastRetrainDone d p false) s fun t => (portAt t d p).retraining = false ∧ t.mem = s.mem ∧
        (mayTrain s d p = true → portState t d p = 2))) ∧
    (∀ y, internalPort d p = false →
      let off := y.addr % 2 ^ 48
      let dram := y.addr / 2 ^ 48 % 4 = 0
      let up := portState s d p = 3 ∧ y.ver / 16 = 1 ∧ 1 ≤ y.typ ∧ y.typ ≤ 4
      (portState s d p ≠ 3 → Completes (.packetArrival d p y) s fun t =>
        OnlyField b F.LINK_CNT_DROP_COUNT p ((fget s b F.LINK_CNT_DROP_COUNT p + 1) % 2 ^ F.LINK_CNT_DROP_COUNT.width) s t) ∧
      (up → y.dst = dieNum s d → y.ctl = false → y.typ = 1 → tenantPresent s y.tenant = true →
        (dram → ownsRange s d y.tenant off y.len = true → dramServes s d off = true → FoliosClean s d → Completes (.packetArrival d p y) s fun t =>
          mread t (dramAddr d off) (y.data.take y.len).length = y.data.take y.len ∧ MemKept (dramAddr d off) (y.data.take y.len).length s t) ∧
        (¬ dram → Completes (.packetArrival d p y) s fun t => t.mem = s.mem ∧ t.regs = s.regs ∧
          ∃ r, t.wire = s.wire ++ [r] ∧ r.die = d ∧ r.core = off / 2 ^ 21 % 128 ∧ r.tenant = y.tenant ∧ r.tag = y.tag ∧ r.rel = off % 2 ^ 21 ∧
            r.bytes = y.data.take y.len ∧ r.route = [])) ∧
      (up → y.dst ≠ dieNum s d → y.hops + 1 < 255 →
        let r := routeOf s d y.epoch y.dst
        let q := if y.esc then r.esc else r.dor
        q ≤ 5 → portClass s d q = 1 → internalPort d q = false → Completes (.packetArrival d p y) s fun t =>
          t.fab.sent = s.fab.sent ++ [(d * 8 + q, { y with hops := y.hops + 1, vc := nextVc s d q (some p) y })] ∧ t.mem = s.mem))

/-- A newer record of another module's port is kept, an older one changes nothing; the tick sends one new record for every own port. Records at rest for 100 us give every die the table of the spanning routes in the epoch not in force. An accepted plan is in force with its position and die numbers, another is rejected. An arrival for a closed operation is kept for it; RELEASE closes the operation at its die; RETRY has its die record its snapshot anew; a broadcast reaches its die. A reset abandons every undecided step and returns to epoch 0. A global barrier or snapshot, or the sync period, opens the next operation of its group. -/
def Obligations.RecordsRoutesAndGlobalOperations : Prop :=
  (∀ d p r s, portClass s d p = 1 → localDie s r.die = none → r.port < 8 →
    let old := lsaOf s r.die r.port
    (old.seq < r.seq → Completes (.lsaReceived d p r) s fun t => lsaOf t r.die r.port = r ∧ t.mem = s.mem ∧
      ∀ n q, q < 8 → (n, q) ≠ (r.die, r.port) → lsaOf t n q = lsaOf s n q) ∧
    (r.seq ≤ old.seq → 0 < old.seq → exec (.lsaReceived d p r) s = .next s)) ∧
  (∀ s, Completes .lsaPeriodicTick s fun t => t.fab.lsaSeq = (s.fab.lsaSeq + 48) % 2 ^ 32 ∧ t.mem = s.mem) ∧
  (∀ d m s, d < 8 → m ∈ plannedDies s → (∀ n ∈ plannedDies s, n < 2 ^ 14) → s.fab.lsaAt + 100 ≤ hubTime s → Completes .routeTableCompute s fun t =>
    let e := 1 - fget s (dieB 0) F.LINK_FAB_EPOCH
    routeOf t d e m = routeFor s (treeDepths s (dieNum s d)) (dieNum s d) m ∧ routeOf t d (1 - e) m = routeOf s d (1 - e) m) ∧
  (∀ w v s, odCheck w 0x6000 0 v true s = 0 →
    (∀ m, planForm v.bytesOf = true → planCheck s v.bytesOf = some m → flashFails s 0x6000 0 = false → Completes (.fabricPlanWrite w v) s fun t => t.mgmt.resp.status = 0 ∧ odGet t 0x6000 0 = v ∧ odNum t 0x6002 = m ∧
      t.mem = s.mem ∧ ∀ d, d < 8 → fget t (dieB d) F.LINK_FAB_PLANNED = 1 ∧ fget t (dieB d) F.LINK_FAB_DIE = (gridIn v.bytesOf).dieAt m d % 2 ^ F.LINK_FAB_DIE.width) ∧
    (planForm v.bytesOf = false ∨ planCheck s v.bytesOf = none → Completes (.fabricPlanWrite w v) s fun t =>
      t.mgmt.resp.status = (if planForm v.bytesOf then 0x06 else 0x02) ∧ odGet t 0x6000 0 = odGet s 0x6000 0 ∧ t.fab = s.fab)) ∧
  (∀ d frm g dig i j s, g < 16 → isMember s g d = true → frm ∈ childrenOf s g (dieNum s d) → (gopOf s g).isOpen = false → (∀ e, (dieOf s e).barDone = false) →
    Completes (.barrierArrive d frm g dig i j) s fun t => ({ t with fab := s.fab } : State) = s ∧ (gopOf t g).isOpen = false ∧
      (dieOpOf (gopOf t g) d).kids = (dieOpOf (gopOf s g) d).kids.filter (fun y => y.1 != frm) ++ [(frm, i, j)]) ∧
  (∀ d g seq time s, d < 8 → g < 16 → (gopOf s g).isOpen = true → (gopOf s g).seq = seq → (dieOpOf (gopOf s g) d).sent = true →
    Completes (.barrierRelease d g seq time) s fun t => fget t (dieB d) F.LINK_BAR_OPEN = 0 ∧ dieOpOf (gopOf t g) d = DieOp.none) ∧
  (∀ d g seq s, g < 16 → (gopOf s g).isOpen = true → (gopOf s g).kind = 2 → (gopOf s g).seq = seq → (dieOpOf (gopOf s g) d).sent = true →
    Completes (.snapshotRetry d g seq) s fun t => odGet t 0x6062 0 = .bytes (snapRecord s g seq)) ∧
  (∀ d g seq down data s, d < 8 → g < 16 → data.length ≤ 192 → isMember s g d = true → down = true ∨ dieNum s d = rootOf s g →
    Completes (.broadcast d g seq down data) s fun t => (gopOf t g).payload = data ∧ t.mem = s.mem ∧
      fget t (dieB d) F.LINK_BAR_SEQ = seq % 2 ^ 16 ∧ fget t (dieB d) F.LINK_BAR_KIND = 1) ∧
  (∀ w v msg d p die seq s, (gopOf s 0).isOpen = false ∨ (gopOf s 0).kind ≠ 3 →
    (if msg = true then portClass s d p = 1 else odCheck w 0x6022 0 v true s = 0) → Completes (.fabricReset w v msg d p die seq) s fun t =>
      (∀ x ∈ t.serve.steps, undecided x = false) ∧ ∀ e, e < 8 → fget t (dieB e) F.LINK_FAB_EPOCH = 0) ∧
  (∀ w v s, let g := v.nat % 16
    let opened := fun t : State => t.mgmt.resp.status = 0 ∧ (gopOf t g).seq = ((gopOf s g).seq + 1) % 65536 ∧ (gopOf t g).kind = if natBit v.nat 4 then 2 else 0
    odCheck w 0x6061 0 v true s = 0 → v.nat < 32 → (gopOf s g).isOpen = false → (∃ d, d < 8 ∧ isMember s g d = true) →
    Completes (.globalBarrierStart w v) s opened ∧ Completes (.globalSnapshotStart w v) s opened) ∧
  (∀ s, (gopOf s 0).isOpen = false → (∀ e, (dieOf s e).barDone = false) → (∃ d, d < 8 ∧ isMember s 0 d = true) → Completes .syncPeriodTick s fun t =>
    (gopOf t 0).seq = ((gopOf s 0).seq + 1) % 65536 ∧ (gopOf t 0).kind = 0)

/-- An accepted tenant record sets STATE, quotas and the budgets of the next period of the selected tenant alone; one made Active from Free starts with those budgets and its balances at them; a record that its own checks reject changes no tenant. At a period boundary every tenant and queue takes its new budgets, and every limited balance B becomes min(BUDGET, B + BUDGET); the storm grant of the period is computed from the operations of the last; and each core's hold bits name exactly its VALID slots of a tenant other than 0 with an exhausted balance. A flush moves the audit buffer behind the log under one seal, and a log that fills its sixteen segments loses its oldest one, with one KIND 0x08 record. -/
def Obligations.TenantsMeteredAndAudited : Prop :=
  (∀ w v s, let i := odNum s 0x7080 1
    let e := v.bytesOf
    let x := (tenantOf s i).getD Tenant.free
    odCheck w 0x7080 2 v true s = 0 →
      (tenantStatus s i e = 0 → Completes (.tenantRecordWrite w v) s fun t => t.mgmt.resp.status = 0 ∧ t.mem = s.mem ∧
        (∃ y, tenantOf t i = some y ∧ y.st = leAt e 1 1 ∧ y.next = budgetsAt e ∧ y.qKv = limitAt e 28 4 ∧ y.qPriv = limitAt e 32 8 ∧
          y.qCellar = limitAt e 40 4 ∧ (x.st = 0 ∧ y.st = 1 → y.budget = budgetsAt e ∧ y.bal = startBalance (budgetsAt e)) ∧
          (¬ (x.st = 0 ∧ y.st = 1) → y.budget = x.budget ∧ y.bal = x.bal)) ∧ ∀ j, j ≠ i → tenantOf t j = tenantOf s j) ∧
      (tenantStatus s i e ≠ 0 → Completes (.tenantRecordWrite w v) s fun t => t.mgmt.resp.status = tenantStatus s i e ∧ t.tenants = s.tenants ∧
        t.mem = s.mem)) ∧
  (∀ s, twf (fun _ => none) s.tenants = true → twf (fun _ => Queue.off) s.serve.queues = true → Completes .meteringPeriodBoundary s fun t =>
    let paid := fun (o n : Nat) (b : Int) => if n = unlimited then (0 : Int) else if o = unlimited then (n : Int) else min (n : Int) (b + n)
    (∀ i x, tenantOf s i = some x → ∃ y, tenantOf t i = some y ∧ y.budget = x.next ∧
      ∀ (k : Nat) (o n : Nat) (b : Int), x.budget[k]? = some o → x.next[k]? = some n → x.bal[k]? = some b → y.bal[k]? = some (paid o n b)) ∧
    (∀ q, let x := queueOf s q
      (s.serve.queues.any fun p => p.1 == q) = true → (queueOf t q).budget = x.next ∧
      ∀ (k : Nat) (o n : Nat) (b : Int), x.budget[k]? = some o → x.next[k]? = some n → x.bal[k]? = some b → (queueOf t q).bal[k]? = some (paid o n b)) ∧
    t.serve.stormCur = max (odNum s 0x4107) ((odNum s 0x4100 * (odNum s 0x4110 - s.serve.opsMark) + 511999) / 512000) ∧
    t.serve.opsMark = odNum s 0x4110 ∧ t.mem = s.mem ∧
    ∀ d c i, d < 8 → c < 72 → i < 4 → (natBit (fget t (coreB d c) F.CORE_MHOLD_HOLD) i = true ↔
      fget s (coreB d c) F.CORE_TCTL_VALID i = 1 ∧ fget s (coreB d c) F.CORE_TCTL_TENANT i ≠ 0 ∧
      ∃ y, tenantOf t (fget s (coreB d c) F.CORE_TCTL_TENANT i) = some y ∧ balancesOk y.budget y.bal = false)) ∧
  (∀ s, let log := s.flash.auditLog ++ s.mgmt.auditBuf
    (log.length < 1048576 → Completes .auditFlush s fun t => t.flash.auditLog = log ∧ t.mgmt.auditBuf = [] ∧
      t.flash.seals.length = s.flash.seals.length + 1 ∧ t.mgmt.auditSeq = s.mgmt.auditSeq ∧ t.od = s.od ∧ t.mem = s.mem) ∧
    (1048576 ≤ log.length → Completes .auditFlush s fun t => t.flash.auditLog = log.drop 65536 ∧
      t.flash.auditErased = s.flash.auditErased + 65536 ∧ (∃ r, t.mgmt.auditBuf = [r] ∧ r.kind = 8 ∧ r.seq = s.mgmt.auditSeq) ∧
      odNum t 0xA204 = t.flash.auditErased ∧ OdKept [(0xA204, 0)] s t ∧ t.mem = s.mem))

/-- A well-formed CHALREQ, its transport's challenges not held, gives its sender one nonce for the role and entry in place of an earlier one, and answers it; held, it answers 0x0B and gives none. An OPEN that proves its role spends the nonce and opens one session with a new identifier, bound to its sender; one that does not answers 0x07, spends the nonce and opens none. CLOSE, in its session, ends that session alone; so does its idle expiry, and each ends the session's upload. A nonce expiry takes away the requester's nonce alone, the expiry of a hold lets the transport's challenges through. -/
def Obligations.SessionsOpenAndEnd : Prop :=
  (∀ g s, let r := reqOf g
    let others := s.mgmt.nonces.filter fun n => !(n.tr == 1 && n.addr == g.addr && n.port == g.port)
    (CmpTaken s 3 g → r.session = 0 → r.len = 3 → 1 ≤ leAt r.payload 0 1 → leAt r.payload 0 1 ≤ 3 →
      (s.mgmt.holdCmp = false → Completes (.cmpChalreq g) s fun t => ∃ v, v < 2 ^ 256 ∧ CmpAnswered g 0 0 (leBytes 32 v) s t ∧
        t.mgmt.nonces = others ++ [⟨1, g.addr, g.port, leAt r.payload 0 1, leAt r.payload 1 2, v⟩] ∧ t.mgmt.sessions = s.mgmt.sessions ∧ t.mem = s.mem) ∧
      (s.mgmt.holdCmp = true → Completes (.cmpChalreq g) s fun t => CmpAnswered g 0x0B 0 [] s t ∧ t.mgmt.nonces = s.mgmt.nonces ∧
        t.mgmt.sessions = s.mgmt.sessions ∧ t.mem = s.mem)) ∧
    (CmpTaken s 4 g → r.session = 0 → r.len = 68 → 1 ≤ leAt r.payload 0 1 → leAt r.payload 0 1 ≤ 3 → leAt r.payload 3 1 = 0 →
      (openProves r s = true → s.mgmt.sessions.length < 16 → Completes (.cmpOpen g) s fun t => t.mgmt.nonces = others ∧ t.mem = s.mem ∧
        odNum t 0xA021 = s.mgmt.sessions.length + 1 ∧ t.mgmt.failsCmp = 0 ∧
        ∃ x, t.mgmt.sessions = s.mgmt.sessions ++ [x] ∧ x.role = leAt r.payload 0 1 ∧ x.tr = 1 ∧ x.addr = g.addr ∧ x.port = g.port ∧ x.lastSeq = none ∧
          x.id ≠ 0 ∧ x.id < 2 ^ 32 ∧ (∀ y ∈ s.mgmt.sessions, y.id ≠ x.id) ∧ CmpAnswered g 0 x.id (leBytes 4 (odNum s 0xA020)) s t) ∧
      (openProves r s = false → Completes (.cmpOpen g) s fun t => t.mgmt.nonces = others ∧ t.mgmt.sessions = s.mgmt.sessions ∧ t.mem = s.mem ∧
        CmpAnswered g 7 0 [] s t ∧ odNum t 0xA022 = satAdd (odBits 0xA022 0) 1 (odNum s 0xA022) ∧
        (s.mgmt.failsCmp < 4 → t.mgmt.failsCmp = s.mgmt.failsCmp + 1 ∧ t.mgmt.holdCmp = s.mgmt.holdCmp) ∧
        (4 ≤ s.mgmt.failsCmp → t.mgmt.holdCmp = true)))) ∧
  (∀ g x s, CmpNext s 5 g x → (reqOf g).len = 0 → Completes (.cmpClose g) s fun t =>
    t.mgmt.sessions = s.mgmt.sessions.filter (fun y => y.id != x.id) ∧ odNum t 0xA021 = t.mgmt.sessions.length ∧ t.mem = s.mem ∧
    CmpAnswered g 0 (reqOf g).session [] s t) ∧
  (∀ id s, sessionOf s id ≠ none → Completes (.sessionIdleExpiry id) s fun t =>
    t.mgmt.sessions = s.mgmt.sessions.filter (fun y => y.id != id) ∧ odNum t 0xA021 = t.mgmt.sessions.length ∧ t.mem = s.mem ∧
    (∀ k len next, s.sys.upload = some (k, len, next, id) → t.sys.upload = none ∧ (slotOf t k).st = 0)) ∧
  (∀ tr addr port s, Completes (.nonceExpiry tr addr port) s fun t =>
    t = { s with mgmt := { s.mgmt with nonces := s.mgmt.nonces.filter fun n => !(n.tr == tr && n.addr == addr && n.port == port) } }) ∧
  (∀ s, Completes (.challengeHoldExpiry 1) s (fun t => t = { s with mgmt := { s.mgmt with holdCmp := false } }) ∧
    Completes (.challengeHoldExpiry 2) s (fun t => t = { s with mgmt := { s.mgmt with holdMb := false } }))

/-- An accepted write of all ones to OD 0x8002 acknowledges every record whose class the writer may, of a SEQ that one record, and closes their open faults; of a SEQ that names none it answers 0x06. Test mode is entered in Stopped only and left at once, when no sticky bit stays. In test mode, the die not in a reset of its own, a forced F0 or F1 of any source that the writer may force, at a place that it can have, leaves its sticky bit; an unknown code, a maker's code to others, and a place that the source cannot have answer 0x06 (the model's reading, notes/assumptions/26.md); a forced F3 enters safe state. A fenced core that passes its tests leaves the fence record as a spare, and one that fails stays fenced. A core that has not stopped in safe state is reset. -/
def Obligations.FaultsAcknowledgedForcedAndUnfenced : Prop :=
  (∀ w v s, let q := v.nat
    odCheck w 0x8002 0 v true s = 0 →
      (q = 0xFFFFFFFF → (s.faults.modLedger.map fun r => r.seq).Nodup → Completes (.faultAcknowledge w v) s fun t => t.mgmt.resp.status = 0 ∧
        t.faults.modLedger = s.faults.modLedger.map (fun r => if mayAck w.role r.cls then { r with ack := true } else r) ∧
        (∀ o, o ∈ t.faults.openFaults ↔ o ∈ s.faults.openFaults ∧
          ¬ (o.seq ≠ 0 ∧ ∃ r ∈ s.faults.modLedger, r.seq = o.seq ∧ r.ack = false ∧ mayAck w.role r.cls = true)) ∧ t.mem = s.mem) ∧
      (q ≠ 0xFFFFFFFF → (∃ r ∈ s.faults.modLedger, r.seq = q ∧ r.ack = false ∧ mayAck w.role r.cls = true) →
        Completes (.faultAcknowledge w v) s fun t => t.mgmt.resp.status = 0 ∧ t.mem = s.mem ∧
          t.faults.modLedger = s.faults.modLedger.map (fun r => if r.seq = q then { r with ack := true } else r) ∧
          (∀ o, o ∈ t.faults.openFaults ↔ o ∈ s.faults.openFaults ∧ ¬ (o.seq ≠ 0 ∧ o.seq = q))) ∧
      (q ≠ 0xFFFFFFFF → (∀ r ∈ s.faults.modLedger, r.seq = q → r.ack = true ∨ mayAck w.role r.cls = false) →
        Completes (.faultAcknowledge w v) s fun t => t.mgmt.resp.status = 6 ∧ t.faults.openFaults = s.faults.openFaults ∧ t.mem = s.mem)) ∧
  (∀ w s, odGate w 0x8020 0 s = 0 →
    (modState s = 4 → Completes (.testModeEnter w (.num 0xA5C3)) s fun t => t.mgmt.resp.status = 0 ∧ odNum t 0x8021 = 1 ∧ t.faults = s.faults ∧
      t.mem = s.mem) ∧
    (modState s ≠ 4 → Completes (.testModeEnter w (.num 0xA5C3)) s fun t => t.mgmt.resp.status = 0x0C ∧ odNum t 0x8021 = odNum s 0x8021 ∧
      t.mem = s.mem) ∧
    (odNum s 0x8021 = 1 → Completes (.testModeLeave w (.num 0x5A3C)) s fun t => t.mgmt.resp.status = 0 ∧ odNum t 0x8021 = 0 ∧
      t.faults.sticky = [] ∧ t.mem = s.mem) ∧
    (odNum s 0x8021 = 0 → Completes (.testModeLeave w (.num 0x5A3C)) s fun t => t.mgmt.resp.status = 0 ∧ t.faults = s.faults ∧ t.mem = s.mem)) ∧
  (∀ w code inst die s, let v := OdVal.num (code + 2 ^ 16 * inst + 2 ^ 32 * die)
    odGate w 0x8030 0 s = 0 → odNum s 0x8021 = 1 → code < 2 ^ 16 → inst < 2 ^ 16 → (die < 8 ∧ dieState s die ≠ 3) ∨ die = 15 →
      (∀ x, sourceOf code = some x → x.makerOnly = false ∨ w.role = 3 → placeOk code die inst = true → s.faults.openFaults = [] →
        (x.cls ≤ 1 → Completes (.faultForce w v) s fun t => t.mgmt.resp.status = 0 ∧ stickySet t die code = true ∧
          odNum t 0x8000 (5 + x.cls) = satAdd (odBits 0x8000 (5 + x.cls)) 1 (odNum s 0x8000 (5 + x.cls)) ∧ t.mem = s.mem) ∧
        (x.cls = 3 → code ≠ 0x0B02 → modState s = 4 → Completes (.faultForce w v) s fun t => t.mgmt.resp.status = 0 ∧ modState t = 5 ∧
          faultN t = s.power.standby ∧ safeN t = true)) ∧
      (sourceOf code = none → Completes (.faultForce w v) s fun t => t.mgmt.resp.status = 6 ∧ t.mem = s.mem ∧ t.faults.openFaults = s.faults.openFaults) ∧
      (∀ x, sourceOf code = some x → (x.makerOnly = true ∧ w.role ≠ 3) ∨ placeOk code die inst = false → Completes (.faultForce w v) s fun t => t.mgmt.resp.status = 6 ∧
        t.mem = s.mem ∧ t.faults.openFaults = s.faults.openFaults)) ∧
  (∀ w d c test assay s, let v := OdVal.num (d + 2 ^ 3 * c)
    d < 8 → c < 72 → odGate w 0x8040 0 s = 0 → coreFenced s d c = true → coreUnacked s d c = false → dieState s d = 2 → s.faults.openFaults = [] →
      (test = true → assay = true → Completes (.coreUnfence w v test assay) s fun t => t.mgmt.resp.status = 0 ∧ coreFenced t d c = false ∧
        coreEnabled t d c = false ∧ coreKey d c ∉ t.flash.fences ∧ (∀ k, k ≠ coreKey d c → (k ∈ t.flash.fences ↔ k ∈ s.flash.fences)) ∧
        OtherCores d c s t ∧ MemKept (spadAddr d c 0) (2 ^ 21) s t) ∧
      (test = false ∨ assay = false → Completes (.coreUnfence w v test assay) s fun t => coreFenced t d c = true ∧ t.flash.fences = s.flash.fences)) ∧
  (∀ d c s, halted s = true → (coreOf s d c).stopped = false → Completes (.safeStateCoreStopTimeout d c) s fun t =>
    (coreOf t d c).stopped = true ∧ (coreOf t d c).queues = [] ∧ (coreOf t d c).ops = [] ∧ OtherCores d c s t ∧
    MemKept (spadAddr d c 0) (2 ^ 21) s t)

/-- A model update whose sensors agree with the model and whose half offsets are zero makes each core's junction its model temperature, and THRM_STAT names the hottest, lowest-numbered core where no prediction reaches STOPT; where one newly does, the module halts; at 115 °C the rails turn off with cause 0x4, as for the comparator of a sensor that is not dropped. The rise code of a half falls by one above the limit, rises by one below half of it, never past the base code; an asked window's code steps with the hottest enabled core of its half. A window not opened in time is withdrawn with a notice and waits again 60 s later. A plate update stores the coolant temperatures, and the first without a valid inlet is a notice; the cap code follows the measured powers; a coolant alarm is one notice. -/
def Obligations.ThermalUpdatesAndPowerCap : Prop :=
  (∀ d temps powers sens model s, d < 8 → dieRuns s d = true → sens = model → (thermOf s d).eps = [0, 0] →
    s.faults.openFaults = [] →
    let ahead := fun c => degrees (predicted (putJunctions d temps powers sens [0, 0] s) d c)
    ((∀ c, c < 72 → temps.getD c 0 < 7360) → modState s ≠ 7 → (∃ c, c < 72 ∧ c ∉ (thermOf s d).stops ∧ odRat s 0x9023 ≤ ahead c) →
      Completes (.thermalModelUpdate d temps powers sens model) s fun t => halted t = true) ∧
    (∀ k, k < 72 → temps.getD k 0 < 7360 → (∀ c, c < 72 → temps.getD c 0 ≤ temps.getD k 0) →
      (∀ c, c < k → temps.getD c 0 < temps.getD k 0) → (∀ c, c < 72 → ahead c < odRat s 0x9023) → Completes (.thermalModelUpdate d temps powers sens model) s fun t =>
        (∀ c, c < 72 → junction t d c = temps.getD c 0) ∧ fget t (dieB d) F.THRM_STAT_HOTCORE = k ∧
        fget t (dieB d) F.THRM_STAT_TMAX = toTwos 16 (temps.getD k 0) ∧ (∀ e, e ≠ d → thermOf t e = thermOf s e) ∧ t.power = s.power) ∧
    (∀ k, k < 72 → 7360 ≤ temps.getD k 0 → Completes (.thermalModelUpdate d temps powers sens model) s fun t =>
      t.power.rails = false ∧ t.power.cause = 4 ∧ t.power.needToggle = true ∧ t.power.tripRecs = s.power.tripRecs ++ [0x0A04])) ∧
  (∀ d h s, d < 8 → h < 2 → dieRuns s d = true → (thermOf s d).rise.length = 2 →
    let r := degrees (largestRise s d h)
    let k := riseCode s d h
    Completes (.riseCodeUpdate d) s fun t => t.mem = s.mem ∧ t.od = s.od ∧ t.flash = s.flash ∧ riseCode t d h =
      if odRat s 0x9022 < r then min (k - 1) (odNum s 0x9026) else if r < odRat s 0x9022 / 2 then min (k + 1) (odNum s 0x9026) else min k (odNum s 0x9026)) ∧
  (∀ d h s, d < 8 → h < 2 → dieRuns s d = true → Completes (.windowCodeUpdate d) s fun t => OnlyRegs s t ∧
    let k := fget s (dieB d) F.THRM_HALF_WINCODE h
    (fget s (dieB d) F.THRM_HALF_WINREQ h = 0 → fget t (dieB d) F.THRM_HALF_WINCODE h = k) ∧
    (∀ p, fget s (dieB d) F.THRM_HALF_WINREQ h = 1 → hottest s d (enabledIn s d h) = some p → riseCode s d h ≤ 24 →
      fget t (dieB d) F.THRM_HALF_WINCODE h =
        if odRat s 0x9025 < degrees p.2 then k - 1 else if degrees p.2 < 66 ∧ k < riseCode s d h then k + 1 else k)) ∧
  (∀ h s, h < 16 → (winOf s h).st = 2 → h ∉ s.care.winQ → odNum s 0x9026 ≤ 24 → Completes (.winopenExpiry h) s fun t =>
    winOf t h = { winOf s h with st := 0, again := true } ∧ fget t (dieB (h / 2)) F.THRM_HALF_WINREQ (h % 2) = 0 ∧
    fget t (dieB (h / 2)) F.THRM_HALF_WINCODE (h % 2) = odNum s 0x9026 ∧ t.mem = s.mem ∧
    odNum t 0x8000 5 = satAdd (odBits 0x8000 5) 1 (odNum s 0x8000 5)) ∧
  (∀ h s, h < 16 → (winOf s h).again = true → (winOf s h).st = 0 → Completes (.windowRequeueExpiry h) s fun t =>
    (winOf t h).again = false ∧ ((winOf t h).st = 1 ∧ h ∈ t.care.winQ ∨ (winOf t h).st = 2) ∧ t.mem = s.mem ∧ t.od = s.od ∧ t.loom = s.loom) ∧
  (∀ plate inlet outlet s, s.power.rails = true →
    Completes (.plateNodeUpdate true plate inlet outlet) s (fun t => t.cap = { s.cap with plate := plate, inletBad := false } ∧ odNum t 0x9010 = inlet ∧
      odNum t 0x9011 = outlet ∧ OdKept [(0x9010, 0), (0x9011, 0)] s t ∧ t.regs = s.regs ∧ t.mem = s.mem) ∧
    Completes (.plateNodeUpdate false plate inlet outlet) s (fun t => t.cap = { s.cap with plate := plate, inletBad := true } ∧
      (s.cap.inletBad = false → odNum t 0x8000 5 = satAdd (odBits 0x8000 5) 1 (odNum s 0x8000 5)) ∧ (s.cap.inletBad = true → t.od = s.od) ∧
      odNum t 0x9010 = odNum s 0x9010 ∧ t.mem = s.mem)) ∧
  (∀ d k s, s.power.rails = true →
    (k ∉ (thermOf s d).dropped → Completes (.hardTrip d k) s fun t => t.power.rails = false ∧ t.power.cause = 4 ∧ t.power.needToggle = true ∧
      t.power.tripRecs = s.power.tripRecs ++ [0x0A04]) ∧
    (k ∈ (thermOf s d).dropped → Completes (.hardTrip d k) s fun t => t = s)) ∧
  (∀ (a01 a10 vin iin : Nat) (dies : List Nat) s, s.power.rails = true → odNum s 0x9026 ≤ 24 → fget s hubB F.HUB_PWRSTAT_CAPCODE ≤ 24 →
    let k := fget s hubB F.HUB_PWRSTAT_CAPCODE
    let base := odNum s 0x9026
    let x : Rat := (a01 : Rat) / 1000
    let y : Rat := (a10 : Rat) / 1000
    let v := if f32Rat (pPeak s) < x then min (k - 2) base else if f32Rat (pCap s) < y then min (k - 1) base
      else if y < f32Rat (pCap s) * 97 / 100 ∧ x < f32Rat (pPeak s) * 95 / 100 ∧ s.cap.raised + 1000 ≤ hubTime s then min (k + 1) base else min k base
    Completes (.powerCapUpdate a01 a10 vin iin dies) s fun t => fget t hubB F.HUB_PWRSTAT_CAPCODE = v ∧ odNum t 0x2052 = v ∧
      fget t hubB F.HUB_PWRSTAT_CAPACT = b2n (decide (v < base)) ∧ fget t hubB F.HUB_PWRSTAT_PIN = min (a01 / 250) 4095 ∧
      fget t hubB F.HUB_INSTAGE_VIN = min vin 4095 ∧ t.cap.energy = s.cap.energy + a01 ∧
      (∀ d, d < 8 → fget t hubB F.HUB_DIEPWR_POWER d = min (dies.getD d 0) 65535) ∧ t.mem = s.mem ∧ t.serve = s.serve) ∧
  (∀ s, s.power.rails = true → Completes .coolantAlarmExpiry s fun t => t.mem = s.mem ∧ t.power = s.power ∧
    odNum t 0x8000 5 = satAdd (odBits 0x8000 5) 1 (odNum s 0x8000 5))

/-- A well-formed SOLICIT puts its sender, port and SEQ among the waiting solicitors and sends nothing; the end of its jitter takes it out and sends it one ANNOUNCE with that SEQ and ANNCNT one higher. The announcement period sends an ANNOUNCE to all nodes where one may be sent, and else does nothing. An ANNOUNCE received of another serial enters its partner, keeping the time first heard; one of the module's own serial is a notice. A partner expires alone. A Duplicate Address Detection that runs ends; its failure is counted, and nothing is announced until it is repeated. A solicitation of the module's own address and an echo request are answered; the loss of beacons leaves PLCA and their return restores it. -/
def Obligations.SegmentAndDiscovery : Prop :=
  (∀ g s, CmpTaken s 1 g → (reqOf g).session = 0 → (reqOf g).len = 0 → Completes (.cmpSolicit g) s fun t =>
    t.mgmt = { s.mgmt with solicitors := s.mgmt.solicitors ++ [(g.addr, g.port, (reqOf g).seq)] } ∧ OdKept [(0x1040, 1)] s t ∧
    odNum t 0x1040 1 = satAdd (odBits 0x1040 1) 1 (odNum s 0x1040 1) ∧ t.mem = s.mem) ∧
  (∀ addr port x s, cmpUp s = true → s.mgmt.dadFailed = false → (s.mgmt.solicitors.find? fun x => x.1 == addr && x.2.1 == port) = some x →
    Completes (.announceJitterExpiry addr port) s fun t => t.mgmt.solicitors = s.mgmt.solicitors.erase x ∧
      t.mgmt.annCount = (s.mgmt.annCount + 1) % 2 ^ 32 ∧ t.mgmt.partners = s.mgmt.partners ∧ t.mem = s.mem ∧
      ∃ p, p.length = 64 ∧ p.take 16 = serial16 s ∧ t.mgmt.tx = some ⟨0, addr, port, cmpMessage 2 0 0 x.2.2 p⟩) ∧
  (∀ s, (mayAnnounce s = true → Completes .announcePeriodTick s fun t => t.mgmt.annAt = some (hubTime s) ∧
      t.mgmt.annCount = (s.mgmt.annCount + 1) % 2 ^ 32 ∧ t.mem = s.mem ∧
      ∃ p, p.length = 64 ∧ p.take 16 = serial16 s ∧ t.mgmt.tx = some ⟨0, allNodes, cmpPort, cmpMessage 2 0 0 0 p⟩) ∧
    (mayAnnounce s = false → Completes .announcePeriodTick s fun t => t = s)) ∧
  (∀ g s, let p := sliceBytes g.bytes 16 64
    cmpUp s = true → dropsDatagram s g = false → leAt g.bytes 0 1 / 16 = 1 → leAt g.bytes 1 1 = 2 → leAt g.bytes 12 2 = 64 → g.bytes.length = 80 →
      (p.take 16 ≠ serial16 s → Completes (.announceReceived g) s fun t => t.mem = s.mem ∧ t.faults = s.faults ∧
        (∃ q ∈ t.mgmt.partners, q.serial = p.take 16 ∧ q.payload = p ∧ q.addr = g.addr ∧ q.last = hubTime s ∧ q.period = leAt p 44 4) ∧
        (s.mgmt.partners.length ≤ 32 → t.mgmt.partners.length ≤ 32) ∧
        (∀ q ∈ s.mgmt.partners, q.serial = p.take 16 → ∃ q' ∈ t.mgmt.partners, q'.serial = q.serial ∧ q'.first = q.first ∧ q'.last = hubTime s)) ∧
      (p.take 16 = serial16 s → Completes (.announceReceived g) s fun t => t.mgmt = s.mgmt ∧ t.mem = s.mem ∧
        odNum t 0x8000 5 = satAdd (odBits 0x8000 5) 1 (odNum s 0x8000 5))) ∧
  (∀ serial s, Completes (.partnerExpiry serial) s fun t =>
    t = { s with mgmt := { s.mgmt with partners := s.mgmt.partners.filter fun p => p.serial != serial } }) ∧
  (∀ s, s.mgmt.dadRun = true →
    Completes (.dadDone true) s (fun t => t = { s with mgmt := { s.mgmt with dadRun := false, dadFailed := false } }) ∧
    Completes (.dadDone false) s (fun t => t.mgmt = { s.mgmt with dadRun := false, dadFailed := true } ∧ mayAnnounce t = false ∧ t.mem = s.mem ∧
      odNum t 0x1040 5 = satAdd (odBits 0x1040 5) 1 (odNum s 0x1040 5) ∧ odNum t 0x8000 5 = satAdd (odBits 0x8000 5) 1 (odNum s 0x8000 5))) ∧
  (∀ s, s.mgmt.dadFailed = true → Completes .dadRetryExpiry s fun t => t = { s with mgmt := { s.mgmt with dadRun := true } }) ∧
  (∀ addr target data s, cmpUp s = true →
    (target = ownAddr s → Completes (.neighborSolicitation addr target) s fun t =>
      t = { s with mgmt := { s.mgmt with tx := some ⟨1, addr, 0, addrBytes target⟩ } }) ∧
    (target ≠ ownAddr s → Completes (.neighborSolicitation addr target) s fun t => t = s) ∧
    Completes (.echoRequest addr data) s fun t => t = { s with mgmt := { s.mgmt with tx := some ⟨2, addr, 0, data⟩ } }) ∧
  (∀ s, Completes .plcaBeaconLoss s (fun t => t.mgmt = { s.mgmt with beacon := false } ∧ t.mem = s.mem ∧
      (plcaStatus s = true → odNum s 0x1023 ≠ 0 → plcaStatus t = false ∧ odNum t 0x8000 5 = satAdd (odBits 0x8000 5) 1 (odNum s 0x8000 5)) ∧
      (plcaStatus s = false ∨ odNum s 0x1023 = 0 → t.faults = s.faults ∧ t.od = s.od)) ∧
    Completes .plcaBeaconRegained s (fun t => t = { s with mgmt := { s.mgmt with beacon := true } }))

/-- In its session, the next READ answers the first 1,024 bytes of the entry's snapshot and keeps it, and at a higher offset the bytes from there; a first WRITE segment is staged, and a write of one segment is applied whole. FWBEGIN of a slot that does not run erases it and begins the upload; FWDATA in order appends its bytes (management flash not failing) and out of order answers 0x0E and changes no slot; FWEND makes an accepted image valid and leaves any other invalid, with its check's detail or 0x05 after a failed flash write, and the upload ends. FWCOMMIT raises the anti-rollback count to the running image's security version, never lower, and with its conditions unmet answers 0x0C. GO with a message serves it, puts the response before the host and sets DONE; while DONE reads 1 it serves nothing. -/
def Obligations.RequestsServed : Prop :=
  (∀ g x s, let r := reqOf g
    let u := cmpServing s g x
    CmpNext s 6 g x → r.len = 8 → leAt r.payload 3 1 = 0 → readGate u x.role 1 r.index r.sub = 0 →
      let off := leAt r.payload 4 4
      (off = 0 → let b := odEncode r.index r.sub (odRead u r.index r.sub)
        let m := readPayload (odTypeCode r.index r.sub) b 0
        Completes (.cmpRead g) s fun t => CmpAnswered g 0 r.session m s t ∧ OdKept [(0x1040, 1), (0x1040, 2)] s t ∧ t.mem = s.mem ∧ t.regs = s.regs ∧
          ∃ y, sessionOf t x.id = some y ∧ y.snap = some (r.index, r.sub, odTypeCode r.index r.sub, b) ∧ y.staged = none ∧ y.lastSeq = some r.seq) ∧
      (∀ code b, x.snap = some (r.index, r.sub, code, b) → 0 < off → off < b.length → Completes (.cmpRead g) s fun t =>
        CmpAnswered g 0 r.session (readPayload code b off) s t ∧ OdKept [(0x1040, 1), (0x1040, 2)] s t ∧ t.mem = s.mem ∧ t.regs = s.regs)) ∧
  (∀ g x test assay s, let r := reqOf g
    let u := cmpServing s g x
    let w : Writer := ⟨x.role, 1, x.entry, x.id⟩
    let seg := r.payload.drop 12
    let total := leAt r.payload 8 4
    CmpNext s 7 g x → odGate w r.index r.sub u = 0 → 12 ≤ r.len → seg.length ≤ 1024 → leAt r.payload 4 4 = 0 → totalOk r.index r.sub total = true →
      (leAt r.payload 3 1 = 1 → seg.length ≤ total → Completes (.cmpWrite g test assay) s fun t => CmpAnswered g 0 r.session [] s t ∧
        OdKept [(0x1040, 1), (0x1040, 2)] s t ∧ t.mem = s.mem ∧
        ∃ y, sessionOf t x.id = some y ∧ y.staged = some (r.index, r.sub, total, seg)) ∧
      (leAt r.payload 3 1 = 3 → seg.length = total → r.index ≠ 0x2040 →
        let z := odApply w r.index r.sub (odDecode r.index r.sub seg) test assay (setTransfer x.id none none u)
        Completes (.cmpWrite g test assay) s fun t =>
          t.mgmt.tx = some ⟨0, g.addr, g.port, cmpMessage 0x87 z.mgmt.resp.status r.session r.seq []⟩ ∧ t.mem = z.mem ∧ t.serve = z.serve ∧
          ∀ idx sub, idx ≠ 0x1040 → idx ≠ 0x8000 → odGet t idx sub = odGet z idx sub)) ∧
  (∀ g x s, let r := reqOf g
    let u := cmpServing s g x
    let k := leAt r.payload 0 1
    CmpNext s 8 g x → x.role ≠ 1 → r.len = 8 → k ≤ 1 → leAt r.payload 1 3 = 0 →
      (¬ (servingOrStopped s = true ∧ k = runningSlot s) → s.sys.upload = none → leAt r.payload 4 4 ≤ imageMax → Completes (.fwbegin g) s fun t =>
        slotOf t k = ⟨2, 0, 0, 0, false, []⟩ ∧ slotOf t (1 - k) = slotOf s (1 - k) ∧ t.sys.upload = some (k, leAt r.payload 4 4, 0, x.id) ∧
        CmpAnswered g 0 r.session [] s t ∧ t.flash.antiRollback = s.flash.antiRollback ∧ t.mem = s.mem) ∧
      (servingOrStopped s = true → k = runningSlot s → Completes (.fwbegin g) s fun t => CmpAnswered g 0x0C r.session [] s t ∧
        t.flash.slotA = s.flash.slotA ∧ t.flash.slotB = s.flash.slotB ∧ t.sys = u.sys ∧ t.mem = s.mem)) ∧
  (∀ g x k len next s, let r := reqOf g
    let b := r.payload.drop 4
    CmpNext s 9 g x → x.role ≠ 1 → 4 ≤ r.len → b.length ≤ 1024 → s.sys.upload = some (k, len, next, x.id) → k ≤ 1 →
      (leAt r.payload 0 4 = next → next + b.length ≤ len → s.sys.flashBad = 0 → Completes (.fwdata g) s fun t =>
        slotOf t k = { slotOf s k with bytes := (slotOf s k).bytes ++ b } ∧ slotOf t (1 - k) = slotOf s (1 - k) ∧
        t.sys.upload = some (k, len, next + b.length, x.id) ∧ CmpAnswered g 0 r.session [] s t ∧ t.mem = s.mem) ∧
      (leAt r.payload 0 4 ≠ next → Completes (.fwdata g) s fun t => CmpAnswered g 0x0E r.session [] s t ∧ t.flash = s.flash ∧ t.sys = s.sys ∧
        t.mem = s.mem)) ∧
  (∀ g x k len next s, let r := reqOf g
    let b := (slotOf s k).bytes
    let det := if s.sys.uploadBad = true ∨ s.sys.flashBad ≠ 0 then 5 else imageDetail s b len
    CmpNext s 10 g x → x.role ≠ 1 → r.len = 0 → s.sys.upload = some (k, len, next, x.id) → k ≤ 1 → Completes (.fwend g) s fun t =>
      t.sys.upload = none ∧ slotOf t (1 - k) = slotOf s (1 - k) ∧ t.flash.antiRollback = s.flash.antiRollback ∧ t.mem = s.mem ∧
      CmpAnswered g (if det = 0 then 0 else 0x0D) r.session (leBytes 1 det) s t ∧
      (det = 0 → slotOf t k = ⟨1, Config.imageRelease b % 2 ^ 32, 1, Config.imageSecver b, true, b⟩) ∧ (det ≠ 0 → (slotOf t k).st = 0)) ∧
  (∀ g x s, let r := reqOf g
    let ok := servingOrStopped s = true ∧ fget s hubB F.HUB_BOOTSTAT_SLOTFALLBACK = 0 ∧ odNum s 0x2042 = runningSlot s
    let n := max s.flash.antiRollback (slotOf s (runningSlot s)).secver
    CmpNext s 11 g x → x.role ≠ 1 → r.len = 0 →
      (ok → Completes (.fwcommit g) s fun t => t.flash.antiRollback = n ∧ CmpAnswered g 0 r.session (leBytes 1 n) s t ∧
        t.flash.slotA = s.flash.slotA ∧ t.flash.slotB = s.flash.slotB ∧ t.mem = s.mem) ∧
      (¬ ok → Completes (.fwcommit g) s fun t => t.flash.antiRollback = s.flash.antiRollback ∧ CmpAnswered g 0x0C r.session [] s t ∧ t.mem = s.mem)) ∧
  (∀ v test assay s, let len := v % 4096
    let u := fset (fset s hubB F.HUB_MBCTRL_LEN len) hubB F.HUB_MBCTRL_IRQEN (v / 2 ^ 17 % 2)
    let a := serveMessage ⟨2, 0, 0, sliceBytes s.hif.mbReq 0 len⟩ test assay u
    s.hif.d3hot = false → fget s hubB F.HUB_SIGSTAT_PERST_IN = 0 → v / 2 ^ 16 % 2 = 1 → len ≤ 2048 → mailboxUp s = true →
    fget s hubB F.HUB_MBSTAT_BUSY = 0 →
      (fget s hubB F.HUB_MBSTAT_DONE = 0 → 16 ≤ len → a.2.2 = false → Completes (.mailboxGo v test assay) s fun t =>
        t.hif.mbResp.take a.1.length = a.1 ∧ fget t hubB F.HUB_MBSTAT_RLEN = a.1.length % 2 ^ F.HUB_MBSTAT_RLEN.width ∧
        fget t hubB F.HUB_MBSTAT_DONE = 1 ∧ t.mem = a.2.1.mem ∧ t.od = a.2.1.od ∧ t.serve = a.2.1.serve) ∧
      (fget s hubB F.HUB_MBSTAT_DONE = 0 → len < 16 → Completes (.mailboxGo v test assay) s fun t =>
        fget t hubB F.HUB_MBSTAT_RLEN = 0 ∧ fget t hubB F.HUB_MBSTAT_DONE = 1 ∧ t.od = s.od ∧ t.mem = s.mem ∧ t.mgmt = s.mgmt) ∧
      (fget s hubB F.HUB_MBSTAT_DONE = 1 → Completes (.mailboxGo v test assay) s fun t => t = u))

/-- While the module serves doorbells (out of PERST_N), the notice can be recorded and a doorbell names a queue of the module: a write is discarded, with HUB_HIFQERR set, an F0 notice of 0x0B00 in the ledger and no ring changed, where the queue has no rings (or they are being removed) or its admin record is not enabled (or is being disabled, for a tail), where the index is not below the ring's size, and where a head names an index beyond the entries written and not yet released. Every other tail write stores the tail; every other head write stores the head and releases every entry before it, held events following behind the entries that stay; OQHEAD of an admin queue changes nothing. No other queue's rings change. -/
def Obligations.DoorbellsDiscardedOrTaken : Prop :=
  ∀ q v s, let i := v % 65536
    ringsLive s = true → s.power.rails = true → fget s hubB F.HUB_SIGSTAT_PERST_IN = 0 → capturing s hubDie = false → s.faults.modLedger.length < 256 →
    (q < 2 ^ 18 →
      let other := fun t : State => (∀ k, k ≠ q → ringsOf t k = ringsOf s k) ∧ t.hif.admin = s.hif.admin ∧ t.serve = s.serve ∧ t.mem = s.mem
      let gone := ringsOf s q = none ∨ ∃ r, ringsOf s q = some r ∧ r.clearing.isSome = true
      (gone → Completes (.doorbellSqtail false q v) s (Discarded false q 2 s) ∧ Completes (.doorbellCqhead false q v) s (Discarded false q 2 s) ∧
        Completes (.doorbellOqhead false q v) s (Discarded false q 2 s)) ∧
      ∀ r, ringsOf s q = some r → r.clearing = none →
        (r.sq.size ≤ i → Completes (.doorbellSqtail false q v) s (Discarded false q 1 s)) ∧
        (i < r.sq.size → Completes (.doorbellSqtail false q v) s fun t => ringsOf t q = some { r with sq := { r.sq with tail := i } } ∧ other t) ∧
        (r.cq.size ≤ i → Completes (.doorbellCqhead false q v) s (Discarded false q 1 s)) ∧
        (let n := (i + r.cq.size - r.cq.head) % r.cq.size
         (i < r.cq.size → r.cqEntries.length < n → Completes (.doorbellCqhead false q v) s (Discarded false q 3 s)) ∧
         (i < r.cq.size → n ≤ r.cqEntries.length → Completes (.doorbellCqhead false q v) s fun t => other t ∧
           ∃ r' l, ringsOf t q = some r' ∧ r'.cq.head = i ∧ r'.cqEntries = r.cqEntries.drop n ++ l ∧ (∀ e ∈ l, e.kind = 3) ∧
             (r.held = [] → r.dropped = 0 → l = []))) ∧
        (r.oq.size ≤ i → Completes (.doorbellOqhead false q v) s (Discarded false q 1 s)) ∧
        (let n := (i + r.oq.size - r.oq.head) % r.oq.size
         (i < r.oq.size → r.oqEntries.length < n → Completes (.doorbellOqhead false q v) s (Discarded false q 3 s)) ∧
         (i < r.oq.size → n ≤ r.oqEntries.length → Completes (.doorbellOqhead false q v) s fun t => other t ∧
           ringsOf t q = some { r with oq := { r.oq with head := i }, oqEntries := r.oqEntries.drop n }))) ∧
    (q < 16 →
      let x := adminOf s q
      let other := fun t : State => (∀ k, k ≠ q → adminOf t k = adminOf s k) ∧ t.hif.rings = s.hif.rings ∧ t.serve = s.serve ∧ t.mem = s.mem
      (x.enable = false ∨ x.disabling = true → Completes (.doorbellSqtail true q v) s (Discarded true q 2 s)) ∧
      (x.enable = true → x.disabling = false → x.sq.size ≤ i → Completes (.doorbellSqtail true q v) s (Discarded true q 1 s)) ∧
      (x.enable = true → x.disabling = false → i < x.sq.size → Completes (.doorbellSqtail true q v) s fun t =>
        adminOf t q = { x with sq := { x.sq with tail := i } } ∧ other t) ∧
      (x.enable = false → Completes (.doorbellCqhead true q v) s (Discarded true q 2 s)) ∧
      (x.enable = true → x.cq.size ≤ i → Completes (.doorbellCqhead true q v) s (Discarded true q 1 s)) ∧
      (let n := (i + x.cq.size - x.cq.head) % x.cq.size
       (x.enable = true → i < x.cq.size → x.cqEntries.length < n → Completes (.doorbellCqhead true q v) s (Discarded true q 3 s)) ∧
       (x.enable = true → i < x.cq.size → n ≤ x.cqEntries.length → Completes (.doorbellCqhead true q v) s fun t =>
         adminOf t q = { x with cq := { x.cq with head := i }, cqEntries := x.cqEntries.drop n } ∧ other t)) ∧
      Completes (.doorbellOqhead true q v) s fun t => t = s)

/-- RINGSET, fetched and good, leaves the completion and the output ring at tail 0 with PHASE 1. Every entry that the module writes, on a completion ring, an output ring or an admin queue's ring, carries the ring's PHASE and advances the tail by one, wrapping at the size; PHASE is inverted exactly at the wrap. After a whole pass the tail stands at the same slot and PHASE differs from the value left there, which is how the host tells a new entry. -/
def Obligations.RingPhases : Prop :=
  (∀ aq e s, adminTook s aq 3 1 e = true → ringsetStatus s e = 0 → Completes (.ringset aq e) s fun t =>
    ∃ r, ringsOf t (leAt e 12 4) = some r ∧ r.cq.tail = 0 ∧ r.cq.phase = true ∧ r.cqEntries = [] ∧ r.oq.tail = 0 ∧ r.oq.phase = true ∧ r.oqEntries = []) ∧
  (∀ q kind status cid result detail res now r s, ringsOf s q = some r → ringsLive s = true →
    ∃ r' e, ringsOf (cqWrite q kind status cid result detail res now s) q = some r' ∧ r'.cqEntries = r.cqEntries ++ [e] ∧ e.phase = r.cq.phase ∧
      r'.cq.tail = (r.cq.tail + 1) % r.cq.size ∧ r'.cq.phase = if (r.cq.tail + 1) % r.cq.size = 0 then !r.cq.phase else r.cq.phase) ∧
  (∀ q t r s, ringsOf s q = some r → ringsLive s = true →
    ∃ r' e, ringsOf (oqWrite q t s) q = some r' ∧ r'.oqEntries = r.oqEntries ++ [e] ∧ e.phase = r.oq.phase ∧
      r'.oq.tail = (r.oq.tail + 1) % r.oq.size ∧ r'.oq.phase = if (r.oq.tail + 1) % r.oq.size = 0 then !r.oq.phase else r.oq.phase) ∧
  (∀ a kind status cid result s, let x := adminOf s a
    x.disabling = false → ringsLive s = true → let y := adminOf (completeAdmin a kind status cid result s) a
    (∃ e, y.cqEntries = x.cqEntries ++ [e] ∧ e.phase = x.cq.phase) ∧ y.cq.tail = (x.cq.tail + 1) % x.cq.size ∧
      y.cq.phase = if (x.cq.tail + 1) % x.cq.size = 0 then !x.cq.phase else x.cq.phase) ∧
  (∀ r : Ring, r.tail < r.size → let p := Nat.repeat Ring.advance r.size r
    p.tail = r.tail ∧ p.phase = !r.phase)

/-- A waiting entry whose completion slot is free, its queue's turn come, is fetched: the head advances and a slot is reserved; a header that fails is completed with KIND 0x02 and its reason from that slot, and an admin queue's reserved OP with KIND 0x01 and status 0x10 (class 0x01) or 0x01 (class 0x03), a serving queue's with 0x20. RINGSET, once fetched, with a good body sets the queue's rings and completes with 0; any other completes with its status and sets none. RINGCLR marks the queue's rings and completes only when no step of the queue is in flight, when they are gone. An accepted admin record enables the selected queue with the writer's role, or disables one with no command under way. The interrupt timer signals the vector of a ring with an unsignalled entry; unmasking sends a pending message. EN 1 takes the kept doorbells where the module serves rings. -/
def Obligations.QueuesFetchedSetAndSignalled : Prop :=
  (∀ q e s, let x := adminOf s q
    ringsLive s = true → x.enable = true → x.disabling = false → x.sq.head ≠ x.sq.tail → x.cqReserved = 0 → x.cqEntries.length < x.cq.size →
      let h := (x.sq.head + 1) % x.sq.size
      (headerReason true x.role e = 0 → adminOpOk e = true → Completes (.submissionFetch true q e) s fun t =>
        adminOf t q = { x with sq := { x.sq with head := h }, cqReserved := 1 } ∧ t.mem = s.mem ∧ t.serve = s.serve) ∧
      (headerReason true x.role e = 0 → adminOpOk e = false → Completes (.submissionFetch true q e) s fun t => (adminOf t q).cqReserved = 0 ∧
        (adminOf t q).cqEntries = x.cqEntries ++ [⟨1, if leAt e 1 1 = 1 then 0x10 else 1, x.cq.phase, leAt e 2 2, h, 0, 0⟩] ∧ t.mem = s.mem) ∧
      (headerReason true x.role e ≠ 0 → Completes (.submissionFetch true q e) s fun t => (adminOf t q).cqReserved = 0 ∧ (adminOf t q).sq.head = h ∧
        (adminOf t q).cqEntries = x.cqEntries ++ [⟨2, headerReason true x.role e, x.cq.phase, leAt e 2 2, h, 0, 0⟩] ∧ t.mem = s.mem)) ∧
  (∀ q e r s, ringsLive s = true → ringsOf s q = some r → r.clearing = none → r.sq.head ≠ r.sq.tail → r.cqEntries.length + r.cqReserved < r.cq.size → fetchTurn s = some q →
      let h := (r.sq.head + 1) % r.sq.size
      (headerReason false 0 e = 0 → 1 ≤ leAt e 8 1 → leAt e 8 1 ≤ 8 → Completes (.submissionFetch false q e) s fun t =>
        ringsOf t q = some { r with sq := { r.sq with head := h }, cqReserved := r.cqReserved + 1 } ∧ t.mem = s.mem ∧ t.serve = s.serve) ∧
      (headerReason false 0 e = 0 → leAt e 8 1 = 0 ∨ 8 < leAt e 8 1 → Completes (.submissionFetch false q e) s fun t => ∃ r', ringsOf t q = some r' ∧
        r'.sq.head = h ∧ r'.cqReserved = r.cqReserved ∧ r'.cqEntries = r.cqEntries ++ [⟨1, 0x20, r.cq.phase, leAt e 2 2, h, 0, 0⟩] ∧ t.mem = s.mem) ∧
      (headerReason false 0 e ≠ 0 → Completes (.submissionFetch false q e) s fun t => ∃ r', ringsOf t q = some r' ∧ r'.sq.head = h ∧
        r'.cqReserved = r.cqReserved ∧ r'.cqEntries = r.cqEntries ++ [⟨2, headerReason false 0 e, r.cq.phase, leAt e 2 2, h, 0, 0⟩] ∧ t.mem = s.mem)) ∧
  (∀ aq e s, let q := leAt e 12 4
    (adminOf s aq).disabling = false →
      (adminTook s aq 3 1 e = true → ringsetStatus s e = 0 → Completes (.ringset aq e) s fun t => Answers aq e 0 0 s t ∧ (∀ k, k ≠ q → ringsOf t k = ringsOf s k) ∧ t.mem = s.mem ∧
        ∃ r, ringsOf t q = some r ∧ r.sq.base = leAt e 16 8 ∧ r.cq.base = leAt e 24 8 ∧ r.oq.base = leAt e 32 8 ∧ r.sq.log2 = leAt e 40 1 ∧
          r.cq.log2 = leAt e 41 1 ∧ r.oq.log2 = leAt e 42 1 ∧ r.cq.vec = leAt e 44 2 ∧ r.oq.vec = leAt e 46 2 ∧ r.clearing = none) ∧
      (adminTook s aq 3 1 e = true → ringsetStatus s e ≠ 0 → Completes (.ringset aq e) s fun t => Answers aq e (ringsetStatus s e) 0 s t ∧ t.hif.rings = s.hif.rings ∧ t.mem = s.mem) ∧
      (∀ r, adminTook s aq 3 2 e = true → ringclrOk e = true → ringsOf s q = some r → r.clearing = none →
        Completes (.ringclr aq e) s fun t => ringsOf t q = some { r with clearing := some (aq, leAt e 2 2) } ∧
          (∀ k, k ≠ q → ringsOf t k = ringsOf s k) ∧ t.hif.admin = s.hif.admin ∧ t.serve = s.serve ∧ t.mem = s.mem) ∧
      (adminTook s aq 3 2 e = true → ringclrOk e = true → ringsOf s q = none → Completes (.ringclr aq e) s fun t =>
        Answers aq e 3 0 s t ∧ t.hif.rings = s.hif.rings ∧ t.mem = s.mem) ∧
      (adminTook s aq 3 2 e = true → ringclrOk e = false → Completes (.ringclr aq e) s fun t =>
        Answers aq e 1 0 s t ∧ t.hif.rings = s.hif.rings ∧ t.mem = s.mem)) ∧
  (∀ q a cid r s, ringsOf s q = some r → r.clearing = some (a, cid) →
    (queueStepping s q = true → Completes (.ringclrComplete q) s fun t => t = s) ∧
    (queueStepping s q = false → ringsLive s = true → (adminOf s a).disabling = false → Completes (.ringclrComplete q) s fun t => ringsOf t q = none ∧
      (∀ k, k ≠ q → ringsOf t k = ringsOf s k) ∧ t.serve = s.serve ∧ t.mem = s.mem ∧
      (adminOf t a).cqEntries = (adminOf s a).cqEntries ++ [⟨1, 0, (adminOf s a).cq.phase, cid, (adminOf s a).sq.head, 0, 0⟩])) ∧
  (∀ w v s, let a := odNum s 0x1060 1
    let e := v.bytesOf
    odCheck w 0x1060 2 v true s = 0 → adminStatus (adminOf s a) e = 0 →
      (leAt e 1 1 = 1 → Completes (.adminQueueRecordWrite w v) s fun t => t.mgmt.resp.status = 0 ∧ t.hif.rings = s.hif.rings ∧ t.mem = s.mem ∧
        (∀ k, k ≠ a → adminOf t k = adminOf s k) ∧ adminOf t a = ⟨true, w.role, w.entry, Ring.fresh (leAt e 8 8) (leAt e 2 1) 0 0 0,
          Ring.fresh (leAt e 16 8) (leAt e 3 1) (leAt e 4 2) (leAt e 6 1) (leAt e 24 2), [], 0, false, keepRecord e w.role w.entry⟩) ∧
      (leAt e 1 1 = 0 → Completes (.adminQueueRecordWrite w v) s fun t => t.mgmt.resp.status = 0 ∧ t.hif.rings = s.hif.rings ∧ t.mem = s.mem ∧
        (∀ k, k ≠ a → adminOf t k = adminOf s k) ∧
        adminOf t a = if (adminOf s a).cqReserved = 0 then { AdminQ.off with record := keepRecord e 0 0 }
          else { adminOf s a with disabling := true, record := keepRecord e 0 0 })) ∧
  (∀ q s, halted s = false → s.hif.d3hot = false →
    let sends := fun (vec : Nat) (t : State) => let e := tget (fun _ => MsixEnt.off) s.hif.msix vec
      tget (fun _ => MsixEnt.off) t.hif.msix vec = if e.masked = true then { e with pend := true } else { e with sent := e.sent + 1 }
    (∀ r, ringsOf s q = some r → 0 < r.cq.unsig → r.cq.itime ≠ 0 → Completes (.interruptTimerExpiry 0 q) s fun t => sends r.cq.vec t ∧
      ringsOf t q = some { r with cq := { r.cq with unsig := 0 } } ∧ t.mem = s.mem ∧ t.regs = s.regs) ∧
    (∀ r, ringsOf s q = some r → 0 < r.oq.unsig → r.oq.itime ≠ 0 → Completes (.interruptTimerExpiry 1 q) s fun t => sends r.oq.vec t ∧
      ringsOf t q = some { r with oq := { r.oq with unsig := 0 } } ∧ t.mem = s.mem ∧ t.regs = s.regs) ∧
    ((adminOf s q).enable = true → 0 < (adminOf s q).cq.unsig → (adminOf s q).cq.itime ≠ 0 → Completes (.interruptTimerExpiry 2 q) s fun t =>
      sends (adminOf s q).cq.vec t ∧ adminOf t q = { adminOf s q with cq := { (adminOf s q).cq with unsig := 0 } } ∧ t.mem = s.mem ∧ t.regs = s.regs) ∧
    Completes (.msixUnmask q) s fun t => let e := tget (fun _ => MsixEnt.off) s.hif.msix q
      tget (fun _ => MsixEnt.off) t.hif.msix q = { e with masked := false, pend := false, sent := e.sent + b2n e.pend } ∧ t.regs = s.regs ∧ t.mem = s.mem) ∧
  (∀ s, s.sys.epStop = false → s.hif.bells = [] → (∀ q r, ringsOf s q = some r → r.held = [] ∧ r.dropped = 0) →
    Completes (.hifEnable true) s (OnlyField hubB F.HUB_HIFCTRL_EN 0 1 s) ∧
    Completes (.hifEnable false) s (OnlyField hubB F.HUB_HIFCTRL_EN 0 0 s)) ∧
  (∀ q v r s, s.sys.epStop = false → halted s = false → hifReady s = true → s.hif.d3hot = false → fget s hubB F.HUB_HIFCTRL_EN = 0 → q < 2 ^ 18 → s.hif.bells = [(bellKey false q 0, v)] →
    ringsOf s q = some r → r.held = [] → r.dropped = 0 → r.clearing = none → v < r.sq.size → Completes (.hifEnable true) s fun t =>
      fget t hubB F.HUB_HIFCTRL_EN = 1 ∧
      ringsOf t q = some { r with sq := { r.sq with tail := v } } ∧ t.hif.bells = [] ∧ t.mem = s.mem)

/-- A write with the rails off, or to an unassigned offset, changes nothing. A write from a source that the register does not name, or that places a reserved encoding, is one notice and no more. A write to a hub register that only stores, by a source it names, gives each RW field its bits, clears each W1C field where the word has 1, and leaves RO, WO and RC fields. Through BAR0, an access other than an aligned 32-bit one is one notice, and a word of the request buffer is stored there while BUSY reads 0. The hourly tick adds the whole hours of Service to OD 0x1006, keeps the remainder, and writes the counters since manufacture to flash. -/
def Obligations.ControlWrites : Prop :=
  (∀ src die off size v test assay s, s.power.rails = false → Completes (.registerWrite src die off size v test assay) s fun t => t = s) ∧
  (∀ src die off size v test assay s, src ≠ 2 → die < 8 ∨ die = 15 → s.power.rails = true →
    let l := fieldsAt (spaceOf die off) (spaceOff die off)
    (l = [] → Completes (.registerWrite src die off size v test assay) s fun t => t = s) ∧
    (∀ w, writerOf l = some w → mayWrite src w = false ∨ reservedIn l (v % 2 ^ 32) = true →
      Completes (.registerWrite src die off size v test assay) s fun t => t.mem = s.mem ∧ t.serve = s.serve ∧ t.cores = s.cores ∧ t.loom = s.loom ∧
        t.hif.rings = s.hif.rings ∧ odNum t 0x8000 5 = satAdd (odBits 0x8000 5) 1 (odNum s 0x8000 5))) ∧
  (∀ src off size v test assay w s, src ≠ 2 → s.power.rails = true → writerOf (fieldsAt .hub off) = some w → mayWrite src w = true →
    reservedIn (fieldsAt .hub off) (v % 2 ^ 32) = false → off ≠ 0x0800 → off ≠ 0x2000 →
    Completes (.registerWrite src 15 off size v test assay) s fun t => OnlyRegs s t ∧ ∀ p ∈ fieldsAt .hub off,
      let x := natBits v p.1.lo p.1.width
      let cur := fget s hubB p.1 p.2
      fget t hubB p.1 p.2 = if p.1.acc = .rw then x else if p.1.acc = .w1c then cur - (cur &&& x) else cur) ∧
  (∀ off size v test assay s, s.power.rails = true → s.hif.d3hot = false → fget s hubB F.HUB_SIGSTAT_PERST_IN = 0 →
    (size ≠ 4 ∨ off % 4 ≠ 0 → Completes (.registerWrite 2 15 off size v test assay) s fun t => t.mem = s.mem ∧ t.hif.mbReq = s.hif.mbReq ∧
      t.hif.rings = s.hif.rings ∧ odNum t 0x8000 5 = satAdd (odBits 0x8000 5) 1 (odNum s 0x8000 5)) ∧
    (size = 4 → off % 4 = 0 → 0x1000 ≤ off → off < 0x1800 →
      (fget s hubB F.HUB_MBSTAT_BUSY = 0 → Completes (.registerWrite 2 15 off size v test assay) s fun t => t.regs = s.regs ∧ t.mem = s.mem ∧
        leAt t.hif.mbReq (off - 0x1000) 4 = v % 2 ^ 32 ∧
        ∀ i, i + 0x1000 < off ∨ off + 4 ≤ i + 0x1000 → t.hif.mbReq.getD i 0 = s.hif.mbReq.getD i 0) ∧
      (fget s hubB F.HUB_MBSTAT_BUSY = 1 → Completes (.registerWrite 2 15 off size v test assay) s fun t => t = s))) ∧
  (∀ us s, s.power.rails = true → let n := s.sys.hoursBase + us
    Completes (.manufactureCounterHourTick us) s fun t => t.sys = { s.sys with hoursBase := n % 3600000000 } ∧
      odNum t 0x1006 = satAdd (odBits 0x1006 0) (n / 3600000000) (odNum s 0x1006) ∧ OdKept [(0x1006, 0)] s t ∧ t.mem = s.mem ∧ t.regs = s.regs ∧
      t.flash.auditLog = s.flash.auditLog ∧ ∀ p ∈ t.flash.mfg, p ∈ t.od)

/-- State.reset has an empty queue; its memory lists nothing, so every byte reads as zero and the canonical form holds; its registers and dictionary entries read their reset values; no tenant, context, step, ring, session, record or open fault is there; a start-up stands at t0 in phase 0x01 with MOD_STATE 0x01, SAFE_N asserted, FAULT_N released and hub time 0. (The reset values of what the spec gives none are the model's choice, notes/assumptions/4.md.) -/
def Obligations.ResetState : Prop :=
  let s := State.reset
  s.pending = [] ∧ s.mem = [] ∧ (∀ a, mget s a = 0#8) ∧ Memory.wf s.mem = true ∧ s.tenants = [] ∧ s.serve.ctxs = [] ∧ s.serve.steps = [] ∧
  s.hif.rings = [] ∧ s.hif.admin = [] ∧ s.mgmt.sessions = [] ∧ s.faults.modLedger = [] ∧ s.faults.openFaults = [] ∧ hubTime s = 0 ∧
  bootPhase s = 1 ∧ modState s = 1 ∧ safeN s = true ∧ faultN s = false ∧ (∀ k, rget s k = regReset k) ∧ ∀ idx sub, odGet s idx sub = odReset (odKey idx sub)

/-- From every state whose memory is in canonical form (addresses strictly rising, no byte listed that reads as an unlisted one), whatever command stands in front and whatever its operands, a step that answers a next state leaves memory in canonical form. -/
def Obligations.MemoryStaysCanonical : Prop :=
  ∀ s t, Memory.wf s.mem = true → step s = .next t → Memory.wf t.mem = true

/-- Whatever the command and its operands, exec leaves the queue of waiting commands, the serial number, the MAC address, the variant and the fuse map of bad cores and routers as they are, and the anti-rollback count is never lower after it than before (R547: FWCOMMIT raises it, the only way it rises): it is the same after every command but those that carry a request of the management network or the mailbox. -/
def Obligations.WhatNoCommandChanges : Prop :=
  ∀ c s t, exec c s = .next t → t.pending = s.pending ∧ t.flash.serial = s.flash.serial ∧ t.flash.mac = s.flash.mac ∧ t.flash.af = s.flash.af ∧
    t.flash.fuseBad = s.flash.fuseBad ∧ t.flash.routerBad = s.flash.routerBad ∧ s.flash.antiRollback ≤ t.flash.antiRollback ∧
    (t.flash.antiRollback ≠ s.flash.antiRollback → (∃ g, c = .fwcommit g) ∨ (∃ v x y, c = .mailboxGo v x y) ∨
      ∃ a b o n v x y, c = .registerWrite a b o n v x y)
end

