-- ==== Sys2Proof/Laws/Table.lean ====
section
/-! SUPPORT. Sparse tables: what a key reads as after another key is written, and the canonical form that every update keeps. -/

namespace Sys2Proof.Machine

variable {α : Type} [DecidableEq α]

omit [DecidableEq α] in
theorem tget_tdel_same (d : Nat → α) (t : Tab α) (k : Nat) : tget d (tdel t k) k = d k := by
  induction t with
  | nil => rfl
  | cons p t ih =>
    obtain ⟨n, v⟩ := p
    simp only [tdel]
    split
    · exact ih
    · simp only [tget, if_neg ‹_›]; exact ih

omit [DecidableEq α] in
theorem tget_tdel_other (d : Nat → α) (t : Tab α) (k j : Nat) (h : j ≠ k) : tget d (tdel t k) j = tget d t j := by
  induction t with
  | nil => rfl
  | cons p t ih =>
    obtain ⟨n, v⟩ := p
    simp only [tdel, tget]
    by_cases hk : n = k
    · rw [if_pos hk, if_neg (fun e => h (by omega)), ih]
    · simp only [if_neg hk, tget, ih]

omit [DecidableEq α] in
theorem tget_tins_same (d : Nat → α) (t : Tab α) (k : Nat) (v : α) (h : ∀ p ∈ t, p.1 ≠ k) : tget d (tins k v t) k = v := by
  induction t with
  | nil => simp [tins, tget]
  | cons p t ih =>
    obtain ⟨n, w⟩ := p
    have hn : n ≠ k := h (n, w) (by simp)
    simp only [tins]
    split
    · simp [tget]
    · simp only [tget, if_neg hn]
      exact ih fun q hq => h q (by simp [hq])

omit [DecidableEq α] in
theorem tget_tins_other (d : Nat → α) (t : Tab α) (k j : Nat) (v : α) (h : j ≠ k) : tget d (tins k v t) j = tget d t j := by
  induction t with
  | nil => simp [tins, tget, Ne.symm h]
  | cons p t ih =>
    obtain ⟨n, w⟩ := p
    simp only [tins]
    split
    · simp only [tget, if_neg (Ne.symm h)]
    · simp only [tget, ih]

omit [DecidableEq α] in
theorem tdel_no_key (t : Tab α) (k : Nat) : ∀ p ∈ tdel t k, p.1 ≠ k := by
  induction t with
  | nil => simp [tdel]
  | cons p t ih =>
    obtain ⟨n, v⟩ := p
    intro q hq
    simp only [tdel] at hq
    split at hq
    · exact ih q hq
    · rcases List.mem_cons.mp hq with rfl | hq
      · assumption
      · exact ih q hq

/-- A key reads as what was written to it. -/
@[simp] theorem tget_tset_same (d : Nat → α) (t : Tab α) (k : Nat) (v : α) : tget d (tset d t k v) k = v := by
  unfold tset
  split
  · rw [tget_tdel_same]; exact Eq.symm ‹_›
  · exact tget_tins_same d _ k v (tdel_no_key t k)

/-- Every other key reads as before. -/
theorem tget_tset_other (d : Nat → α) (t : Tab α) (k j : Nat) (v : α) (h : j ≠ k) : tget d (tset d t k v) j = tget d t j := by
  unfold tset
  split
  · exact tget_tdel_other d t k j h
  · rw [tget_tins_other d _ k j v h, tget_tdel_other d t k j h]

/-- A key reads as its changed value. -/
@[simp] theorem tget_tmod_same (d : Nat → α) (t : Tab α) (k : Nat) (f : α → α) : tget d (tmod d t k f) k = f (tget d t k) :=
  tget_tset_same d t k _

/-- Every other key reads as before. -/
theorem tget_tmod_other (d : Nat → α) (t : Tab α) (k j : Nat) (f : α → α) (h : j ≠ k) : tget d (tmod d t k f) j = tget d t j :=
  tget_tset_other d t k j _ h

/-! ### The canonical form -/

theorem twfFrom_mono (d : Nat → α) (t : Tab α) (a b : Nat) (h : a ≤ b) (w : twfFrom d b t = true) : twfFrom d a t = true := by
  cases t with
  | nil => rfl
  | cons p t =>
    obtain ⟨n, v⟩ := p
    simp only [twfFrom, Bool.and_eq_true, decide_eq_true_eq] at w ⊢
    exact ⟨⟨Nat.le_trans h w.1.1, w.1.2⟩, w.2⟩

theorem twfFrom_tdel (d : Nat → α) (t : Tab α) (lo k : Nat) (w : twfFrom d lo t = true) : twfFrom d lo (tdel t k) = true := by
  induction t generalizing lo with
  | nil => rfl
  | cons p t ih =>
    obtain ⟨n, v⟩ := p
    simp only [twfFrom, Bool.and_eq_true, decide_eq_true_eq] at w
    simp only [tdel]
    split
    · exact ih lo (twfFrom_mono d t lo (n + 1) (by omega) w.2)
    · simp only [twfFrom, Bool.and_eq_true, decide_eq_true_eq]
      exact ⟨w.1, ih (n + 1) w.2⟩

theorem twfFrom_tins (d : Nat → α) (t : Tab α) (lo k : Nat) (v : α) (hv : v ≠ d k) (hk : lo ≤ k) (h : ∀ p ∈ t, p.1 ≠ k)
    (w : twfFrom d lo t = true) : twfFrom d lo (tins k v t) = true := by
  induction t generalizing lo with
  | nil => simp [tins, twfFrom, hv, hk]
  | cons p t ih =>
    obtain ⟨n, x⟩ := p
    have hn : n ≠ k := h (n, x) (by simp)
    simp only [twfFrom, Bool.and_eq_true, decide_eq_true_eq] at w
    simp only [tins]
    split
    · simp only [twfFrom, Bool.and_eq_true, decide_eq_true_eq]
      exact ⟨⟨hk, hv⟩, ⟨⟨by omega, w.1.2⟩, w.2⟩⟩
    · simp only [twfFrom, Bool.and_eq_true, decide_eq_true_eq]
      exact ⟨w.1, ih (n + 1) (by omega) (fun q hq => h q (by simp [hq])) w.2⟩

/-- A write keeps the canonical form. -/
theorem twf_tset (d : Nat → α) (t : Tab α) (k : Nat) (v : α) (w : twf d t = true) : twf d (tset d t k v) = true := by
  unfold tset
  split
  · exact twfFrom_tdel d t 0 k w
  · exact twfFrom_tins d _ 0 k v ‹_› (Nat.zero_le k) (tdel_no_key t k) (twfFrom_tdel d t 0 k w)

/-- A change of one key keeps it. -/
theorem twf_tmod (d : Nat → α) (t : Tab α) (k : Nat) (f : α → α) (w : twf d t = true) : twf d (tmod d t k f) = true :=
  twf_tset d t k _ w

/-- Taking keys out keeps it. -/
theorem twfFrom_filter (d : Nat → α) (t : Tab α) (lo : Nat) (p : Nat × α → Bool) (w : twfFrom d lo t = true) :
    twfFrom d lo (t.filter p) = true := by
  induction t generalizing lo with
  | nil => rfl
  | cons q t ih =>
    obtain ⟨n, v⟩ := q
    simp only [twfFrom, Bool.and_eq_true, decide_eq_true_eq] at w
    simp only [List.filter]
    split
    · simp only [twfFrom, Bool.and_eq_true, decide_eq_true_eq]
      exact ⟨w.1, ih (n + 1) w.2⟩
    · exact ih lo (twfFrom_mono d t lo (n + 1) (by omega) w.2)

/-- Taking keys out keeps the canonical form. -/
theorem twf_filter (d : Nat → α) (t : Tab α) (p : Nat × α → Bool) (w : twf d t = true) : twf d (t.filter p) = true :=
  twfFrom_filter d t 0 p w

end Sys2Proof.Machine
end

