-- ==== Sys2Proof/Laws/State.lean ====
section
/-! SUPPORT. What each named update of the state leaves of its fields, and what registers, dictionary entries and bytes read as after a
write. -/

namespace Sys2Proof.Machine

/-! ### The fields that each update leaves -/

@[simp] theorem rset_pending (s : State) (k : Nat) (w : Word) : (rset s k w).pending = s.pending := rfl
@[simp] theorem rset_od (s : State) (k : Nat) (w : Word) : (rset s k w).od = s.od := rfl
@[simp] theorem rset_mem (s : State) (k : Nat) (w : Word) : (rset s k w).mem = s.mem := rfl
@[simp] theorem rset_fresh (s : State) (k : Nat) (w : Word) : (rset s k w).fresh = s.fresh := rfl
@[simp] theorem rset_sys (s : State) (k : Nat) (w : Word) : (rset s k w).sys = s.sys := rfl
@[simp] theorem rset_faults (s : State) (k : Nat) (w : Word) : (rset s k w).faults = s.faults := rfl
@[simp] theorem rset_power (s : State) (k : Nat) (w : Word) : (rset s k w).power = s.power := rfl
@[simp] theorem rset_flash (s : State) (k : Nat) (w : Word) : (rset s k w).flash = s.flash := rfl
@[simp] theorem rset_mgmt (s : State) (k : Nat) (w : Word) : (rset s k w).mgmt = s.mgmt := rfl
@[simp] theorem rset_tenants (s : State) (k : Nat) (w : Word) : (rset s k w).tenants = s.tenants := rfl
@[simp] theorem rset_hif (s : State) (k : Nat) (w : Word) : (rset s k w).hif = s.hif := rfl
@[simp] theorem rset_serve (s : State) (k : Nat) (w : Word) : (rset s k w).serve = s.serve := rfl
@[simp] theorem rset_dies (s : State) (k : Nat) (w : Word) : (rset s k w).dies = s.dies := rfl
@[simp] theorem rset_cores (s : State) (k : Nat) (w : Word) : (rset s k w).cores = s.cores := rfl
@[simp] theorem rset_loom (s : State) (k : Nat) (w : Word) : (rset s k w).loom = s.loom := rfl
@[simp] theorem rset_probes (s : State) (k : Nat) (w : Word) : (rset s k w).probes = s.probes := rfl
@[simp] theorem rset_models (s : State) (k : Nat) (w : Word) : (rset s k w).models = s.models := rfl
@[simp] theorem rset_care (s : State) (k : Nat) (w : Word) : (rset s k w).care = s.care := rfl
@[simp] theorem rset_therm (s : State) (k : Nat) (w : Word) : (rset s k w).therm = s.therm := rfl
@[simp] theorem rset_cap (s : State) (k : Nat) (w : Word) : (rset s k w).cap = s.cap := rfl
@[simp] theorem rset_wire (s : State) (k : Nat) (w : Word) : (rset s k w).wire = s.wire := rfl
@[simp] theorem rset_memc (s : State) (k : Nat) (w : Word) : (rset s k w).memc = s.memc := rfl
@[simp] theorem rset_fab (s : State) (k : Nat) (w : Word) : (rset s k w).fab = s.fab := rfl
@[simp] theorem fset_pending (s : State) (b : Nat) (f : Fld) (v i : Nat) : (fset s b f v i).pending = s.pending := rfl
@[simp] theorem fset_od (s : State) (b : Nat) (f : Fld) (v i : Nat) : (fset s b f v i).od = s.od := rfl
@[simp] theorem fset_mem (s : State) (b : Nat) (f : Fld) (v i : Nat) : (fset s b f v i).mem = s.mem := rfl
@[simp] theorem fset_fresh (s : State) (b : Nat) (f : Fld) (v i : Nat) : (fset s b f v i).fresh = s.fresh := rfl
@[simp] theorem fset_sys (s : State) (b : Nat) (f : Fld) (v i : Nat) : (fset s b f v i).sys = s.sys := rfl
@[simp] theorem fset_faults (s : State) (b : Nat) (f : Fld) (v i : Nat) : (fset s b f v i).faults = s.faults := rfl
@[simp] theorem fset_power (s : State) (b : Nat) (f : Fld) (v i : Nat) : (fset s b f v i).power = s.power := rfl
@[simp] theorem fset_flash (s : State) (b : Nat) (f : Fld) (v i : Nat) : (fset s b f v i).flash = s.flash := rfl
@[simp] theorem fset_mgmt (s : State) (b : Nat) (f : Fld) (v i : Nat) : (fset s b f v i).mgmt = s.mgmt := rfl
@[simp] theorem fset_tenants (s : State) (b : Nat) (f : Fld) (v i : Nat) : (fset s b f v i).tenants = s.tenants := rfl
@[simp] theorem fset_hif (s : State) (b : Nat) (f : Fld) (v i : Nat) : (fset s b f v i).hif = s.hif := rfl
@[simp] theorem fset_serve (s : State) (b : Nat) (f : Fld) (v i : Nat) : (fset s b f v i).serve = s.serve := rfl
@[simp] theorem fset_dies (s : State) (b : Nat) (f : Fld) (v i : Nat) : (fset s b f v i).dies = s.dies := rfl
@[simp] theorem fset_cores (s : State) (b : Nat) (f : Fld) (v i : Nat) : (fset s b f v i).cores = s.cores := rfl
@[simp] theorem fset_loom (s : State) (b : Nat) (f : Fld) (v i : Nat) : (fset s b f v i).loom = s.loom := rfl
@[simp] theorem fset_probes (s : State) (b : Nat) (f : Fld) (v i : Nat) : (fset s b f v i).probes = s.probes := rfl
@[simp] theorem fset_models (s : State) (b : Nat) (f : Fld) (v i : Nat) : (fset s b f v i).models = s.models := rfl
@[simp] theorem fset_care (s : State) (b : Nat) (f : Fld) (v i : Nat) : (fset s b f v i).care = s.care := rfl
@[simp] theorem fset_therm (s : State) (b : Nat) (f : Fld) (v i : Nat) : (fset s b f v i).therm = s.therm := rfl
@[simp] theorem fset_cap (s : State) (b : Nat) (f : Fld) (v i : Nat) : (fset s b f v i).cap = s.cap := rfl
@[simp] theorem fset_wire (s : State) (b : Nat) (f : Fld) (v i : Nat) : (fset s b f v i).wire = s.wire := rfl
@[simp] theorem fset_memc (s : State) (b : Nat) (f : Fld) (v i : Nat) : (fset s b f v i).memc = s.memc := rfl
@[simp] theorem fset_fab (s : State) (b : Nat) (f : Fld) (v i : Nat) : (fset s b f v i).fab = s.fab := rfl
@[simp] theorem finc_pending (s : State) (b : Nat) (f : Fld) (n i : Nat) : (finc s b f n i).pending = s.pending := rfl
@[simp] theorem finc_od (s : State) (b : Nat) (f : Fld) (n i : Nat) : (finc s b f n i).od = s.od := rfl
@[simp] theorem finc_mem (s : State) (b : Nat) (f : Fld) (n i : Nat) : (finc s b f n i).mem = s.mem := rfl
@[simp] theorem finc_fresh (s : State) (b : Nat) (f : Fld) (n i : Nat) : (finc s b f n i).fresh = s.fresh := rfl
@[simp] theorem finc_sys (s : State) (b : Nat) (f : Fld) (n i : Nat) : (finc s b f n i).sys = s.sys := rfl
@[simp] theorem finc_faults (s : State) (b : Nat) (f : Fld) (n i : Nat) : (finc s b f n i).faults = s.faults := rfl
@[simp] theorem finc_power (s : State) (b : Nat) (f : Fld) (n i : Nat) : (finc s b f n i).power = s.power := rfl
@[simp] theorem finc_flash (s : State) (b : Nat) (f : Fld) (n i : Nat) : (finc s b f n i).flash = s.flash := rfl
@[simp] theorem finc_mgmt (s : State) (b : Nat) (f : Fld) (n i : Nat) : (finc s b f n i).mgmt = s.mgmt := rfl
@[simp] theorem finc_tenants (s : State) (b : Nat) (f : Fld) (n i : Nat) : (finc s b f n i).tenants = s.tenants := rfl
@[simp] theorem finc_hif (s : State) (b : Nat) (f : Fld) (n i : Nat) : (finc s b f n i).hif = s.hif := rfl
@[simp] theorem finc_serve (s : State) (b : Nat) (f : Fld) (n i : Nat) : (finc s b f n i).serve = s.serve := rfl
@[simp] theorem finc_dies (s : State) (b : Nat) (f : Fld) (n i : Nat) : (finc s b f n i).dies = s.dies := rfl
@[simp] theorem finc_cores (s : State) (b : Nat) (f : Fld) (n i : Nat) : (finc s b f n i).cores = s.cores := rfl
@[simp] theorem finc_loom (s : State) (b : Nat) (f : Fld) (n i : Nat) : (finc s b f n i).loom = s.loom := rfl
@[simp] theorem finc_probes (s : State) (b : Nat) (f : Fld) (n i : Nat) : (finc s b f n i).probes = s.probes := rfl
@[simp] theorem finc_models (s : State) (b : Nat) (f : Fld) (n i : Nat) : (finc s b f n i).models = s.models := rfl
@[simp] theorem finc_care (s : State) (b : Nat) (f : Fld) (n i : Nat) : (finc s b f n i).care = s.care := rfl
@[simp] theorem finc_therm (s : State) (b : Nat) (f : Fld) (n i : Nat) : (finc s b f n i).therm = s.therm := rfl
@[simp] theorem finc_cap (s : State) (b : Nat) (f : Fld) (n i : Nat) : (finc s b f n i).cap = s.cap := rfl
@[simp] theorem finc_wire (s : State) (b : Nat) (f : Fld) (n i : Nat) : (finc s b f n i).wire = s.wire := rfl
@[simp] theorem finc_memc (s : State) (b : Nat) (f : Fld) (n i : Nat) : (finc s b f n i).memc = s.memc := rfl
@[simp] theorem finc_fab (s : State) (b : Nat) (f : Fld) (n i : Nat) : (finc s b f n i).fab = s.fab := rfl
@[simp] theorem fincSat_pending (s : State) (b : Nat) (f : Fld) (n i : Nat) : (fincSat s b f n i).pending = s.pending := rfl
@[simp] theorem fincSat_od (s : State) (b : Nat) (f : Fld) (n i : Nat) : (fincSat s b f n i).od = s.od := rfl
@[simp] theorem fincSat_mem (s : State) (b : Nat) (f : Fld) (n i : Nat) : (fincSat s b f n i).mem = s.mem := rfl
@[simp] theorem fincSat_fresh (s : State) (b : Nat) (f : Fld) (n i : Nat) : (fincSat s b f n i).fresh = s.fresh := rfl
@[simp] theorem fincSat_sys (s : State) (b : Nat) (f : Fld) (n i : Nat) : (fincSat s b f n i).sys = s.sys := rfl
@[simp] theorem fincSat_faults (s : State) (b : Nat) (f : Fld) (n i : Nat) : (fincSat s b f n i).faults = s.faults := rfl
@[simp] theorem fincSat_power (s : State) (b : Nat) (f : Fld) (n i : Nat) : (fincSat s b f n i).power = s.power := rfl
@[simp] theorem fincSat_flash (s : State) (b : Nat) (f : Fld) (n i : Nat) : (fincSat s b f n i).flash = s.flash := rfl
@[simp] theorem fincSat_mgmt (s : State) (b : Nat) (f : Fld) (n i : Nat) : (fincSat s b f n i).mgmt = s.mgmt := rfl
@[simp] theorem fincSat_tenants (s : State) (b : Nat) (f : Fld) (n i : Nat) : (fincSat s b f n i).tenants = s.tenants := rfl
@[simp] theorem fincSat_hif (s : State) (b : Nat) (f : Fld) (n i : Nat) : (fincSat s b f n i).hif = s.hif := rfl
@[simp] theorem fincSat_serve (s : State) (b : Nat) (f : Fld) (n i : Nat) : (fincSat s b f n i).serve = s.serve := rfl
@[simp] theorem fincSat_dies (s : State) (b : Nat) (f : Fld) (n i : Nat) : (fincSat s b f n i).dies = s.dies := rfl
@[simp] theorem fincSat_cores (s : State) (b : Nat) (f : Fld) (n i : Nat) : (fincSat s b f n i).cores = s.cores := rfl
@[simp] theorem fincSat_loom (s : State) (b : Nat) (f : Fld) (n i : Nat) : (fincSat s b f n i).loom = s.loom := rfl
@[simp] theorem fincSat_probes (s : State) (b : Nat) (f : Fld) (n i : Nat) : (fincSat s b f n i).probes = s.probes := rfl
@[simp] theorem fincSat_models (s : State) (b : Nat) (f : Fld) (n i : Nat) : (fincSat s b f n i).models = s.models := rfl
@[simp] theorem fincSat_care (s : State) (b : Nat) (f : Fld) (n i : Nat) : (fincSat s b f n i).care = s.care := rfl
@[simp] theorem fincSat_therm (s : State) (b : Nat) (f : Fld) (n i : Nat) : (fincSat s b f n i).therm = s.therm := rfl
@[simp] theorem fincSat_cap (s : State) (b : Nat) (f : Fld) (n i : Nat) : (fincSat s b f n i).cap = s.cap := rfl
@[simp] theorem fincSat_wire (s : State) (b : Nat) (f : Fld) (n i : Nat) : (fincSat s b f n i).wire = s.wire := rfl
@[simp] theorem fincSat_memc (s : State) (b : Nat) (f : Fld) (n i : Nat) : (fincSat s b f n i).memc = s.memc := rfl
@[simp] theorem fincSat_fab (s : State) (b : Nat) (f : Fld) (n i : Nat) : (fincSat s b f n i).fab = s.fab := rfl
@[simp] theorem odPut_pending (s : State) (idx sub : Nat) (v : OdVal) : (odPut s idx sub v).pending = s.pending := rfl
@[simp] theorem odPut_regs (s : State) (idx sub : Nat) (v : OdVal) : (odPut s idx sub v).regs = s.regs := rfl
@[simp] theorem odPut_mem (s : State) (idx sub : Nat) (v : OdVal) : (odPut s idx sub v).mem = s.mem := rfl
@[simp] theorem odPut_fresh (s : State) (idx sub : Nat) (v : OdVal) : (odPut s idx sub v).fresh = s.fresh := rfl
@[simp] theorem odPut_sys (s : State) (idx sub : Nat) (v : OdVal) : (odPut s idx sub v).sys = s.sys := rfl
@[simp] theorem odPut_faults (s : State) (idx sub : Nat) (v : OdVal) : (odPut s idx sub v).faults = s.faults := rfl
@[simp] theorem odPut_power (s : State) (idx sub : Nat) (v : OdVal) : (odPut s idx sub v).power = s.power := rfl
@[simp] theorem odPut_flash (s : State) (idx sub : Nat) (v : OdVal) : (odPut s idx sub v).flash = s.flash := rfl
@[simp] theorem odPut_mgmt (s : State) (idx sub : Nat) (v : OdVal) : (odPut s idx sub v).mgmt = s.mgmt := rfl
@[simp] theorem odPut_tenants (s : State) (idx sub : Nat) (v : OdVal) : (odPut s idx sub v).tenants = s.tenants := rfl
@[simp] theorem odPut_hif (s : State) (idx sub : Nat) (v : OdVal) : (odPut s idx sub v).hif = s.hif := rfl
@[simp] theorem odPut_serve (s : State) (idx sub : Nat) (v : OdVal) : (odPut s idx sub v).serve = s.serve := rfl
@[simp] theorem odPut_dies (s : State) (idx sub : Nat) (v : OdVal) : (odPut s idx sub v).dies = s.dies := rfl
@[simp] theorem odPut_cores (s : State) (idx sub : Nat) (v : OdVal) : (odPut s idx sub v).cores = s.cores := rfl
@[simp] theorem odPut_loom (s : State) (idx sub : Nat) (v : OdVal) : (odPut s idx sub v).loom = s.loom := rfl
@[simp] theorem odPut_probes (s : State) (idx sub : Nat) (v : OdVal) : (odPut s idx sub v).probes = s.probes := rfl
@[simp] theorem odPut_models (s : State) (idx sub : Nat) (v : OdVal) : (odPut s idx sub v).models = s.models := rfl
@[simp] theorem odPut_care (s : State) (idx sub : Nat) (v : OdVal) : (odPut s idx sub v).care = s.care := rfl
@[simp] theorem odPut_therm (s : State) (idx sub : Nat) (v : OdVal) : (odPut s idx sub v).therm = s.therm := rfl
@[simp] theorem odPut_cap (s : State) (idx sub : Nat) (v : OdVal) : (odPut s idx sub v).cap = s.cap := rfl
@[simp] theorem odPut_wire (s : State) (idx sub : Nat) (v : OdVal) : (odPut s idx sub v).wire = s.wire := rfl
@[simp] theorem odPut_memc (s : State) (idx sub : Nat) (v : OdVal) : (odPut s idx sub v).memc = s.memc := rfl
@[simp] theorem odPut_fab (s : State) (idx sub : Nat) (v : OdVal) : (odPut s idx sub v).fab = s.fab := rfl
@[simp] theorem odSet_pending (s : State) (idx sub n : Nat) : (odSet s idx sub n).pending = s.pending := rfl
@[simp] theorem odSet_regs (s : State) (idx sub n : Nat) : (odSet s idx sub n).regs = s.regs := rfl
@[simp] theorem odSet_mem (s : State) (idx sub n : Nat) : (odSet s idx sub n).mem = s.mem := rfl
@[simp] theorem odSet_fresh (s : State) (idx sub n : Nat) : (odSet s idx sub n).fresh = s.fresh := rfl
@[simp] theorem odSet_sys (s : State) (idx sub n : Nat) : (odSet s idx sub n).sys = s.sys := rfl
@[simp] theorem odSet_faults (s : State) (idx sub n : Nat) : (odSet s idx sub n).faults = s.faults := rfl
@[simp] theorem odSet_power (s : State) (idx sub n : Nat) : (odSet s idx sub n).power = s.power := rfl
@[simp] theorem odSet_flash (s : State) (idx sub n : Nat) : (odSet s idx sub n).flash = s.flash := rfl
@[simp] theorem odSet_mgmt (s : State) (idx sub n : Nat) : (odSet s idx sub n).mgmt = s.mgmt := rfl
@[simp] theorem odSet_tenants (s : State) (idx sub n : Nat) : (odSet s idx sub n).tenants = s.tenants := rfl
@[simp] theorem odSet_hif (s : State) (idx sub n : Nat) : (odSet s idx sub n).hif = s.hif := rfl
@[simp] theorem odSet_serve (s : State) (idx sub n : Nat) : (odSet s idx sub n).serve = s.serve := rfl
@[simp] theorem odSet_dies (s : State) (idx sub n : Nat) : (odSet s idx sub n).dies = s.dies := rfl
@[simp] theorem odSet_cores (s : State) (idx sub n : Nat) : (odSet s idx sub n).cores = s.cores := rfl
@[simp] theorem odSet_loom (s : State) (idx sub n : Nat) : (odSet s idx sub n).loom = s.loom := rfl
@[simp] theorem odSet_probes (s : State) (idx sub n : Nat) : (odSet s idx sub n).probes = s.probes := rfl
@[simp] theorem odSet_models (s : State) (idx sub n : Nat) : (odSet s idx sub n).models = s.models := rfl
@[simp] theorem odSet_care (s : State) (idx sub n : Nat) : (odSet s idx sub n).care = s.care := rfl
@[simp] theorem odSet_therm (s : State) (idx sub n : Nat) : (odSet s idx sub n).therm = s.therm := rfl
@[simp] theorem odSet_cap (s : State) (idx sub n : Nat) : (odSet s idx sub n).cap = s.cap := rfl
@[simp] theorem odSet_wire (s : State) (idx sub n : Nat) : (odSet s idx sub n).wire = s.wire := rfl
@[simp] theorem odSet_memc (s : State) (idx sub n : Nat) : (odSet s idx sub n).memc = s.memc := rfl
@[simp] theorem odSet_fab (s : State) (idx sub n : Nat) : (odSet s idx sub n).fab = s.fab := rfl
@[simp] theorem odInc_pending (s : State) (idx sub n : Nat) : (odInc s idx sub n).pending = s.pending := rfl
@[simp] theorem odInc_regs (s : State) (idx sub n : Nat) : (odInc s idx sub n).regs = s.regs := rfl
@[simp] theorem odInc_mem (s : State) (idx sub n : Nat) : (odInc s idx sub n).mem = s.mem := rfl
@[simp] theorem odInc_fresh (s : State) (idx sub n : Nat) : (odInc s idx sub n).fresh = s.fresh := rfl
@[simp] theorem odInc_sys (s : State) (idx sub n : Nat) : (odInc s idx sub n).sys = s.sys := rfl
@[simp] theorem odInc_faults (s : State) (idx sub n : Nat) : (odInc s idx sub n).faults = s.faults := rfl
@[simp] theorem odInc_power (s : State) (idx sub n : Nat) : (odInc s idx sub n).power = s.power := rfl
@[simp] theorem odInc_flash (s : State) (idx sub n : Nat) : (odInc s idx sub n).flash = s.flash := rfl
@[simp] theorem odInc_mgmt (s : State) (idx sub n : Nat) : (odInc s idx sub n).mgmt = s.mgmt := rfl
@[simp] theorem odInc_tenants (s : State) (idx sub n : Nat) : (odInc s idx sub n).tenants = s.tenants := rfl
@[simp] theorem odInc_hif (s : State) (idx sub n : Nat) : (odInc s idx sub n).hif = s.hif := rfl
@[simp] theorem odInc_serve (s : State) (idx sub n : Nat) : (odInc s idx sub n).serve = s.serve := rfl
@[simp] theorem odInc_dies (s : State) (idx sub n : Nat) : (odInc s idx sub n).dies = s.dies := rfl
@[simp] theorem odInc_cores (s : State) (idx sub n : Nat) : (odInc s idx sub n).cores = s.cores := rfl
@[simp] theorem odInc_loom (s : State) (idx sub n : Nat) : (odInc s idx sub n).loom = s.loom := rfl
@[simp] theorem odInc_probes (s : State) (idx sub n : Nat) : (odInc s idx sub n).probes = s.probes := rfl
@[simp] theorem odInc_models (s : State) (idx sub n : Nat) : (odInc s idx sub n).models = s.models := rfl
@[simp] theorem odInc_care (s : State) (idx sub n : Nat) : (odInc s idx sub n).care = s.care := rfl
@[simp] theorem odInc_therm (s : State) (idx sub n : Nat) : (odInc s idx sub n).therm = s.therm := rfl
@[simp] theorem odInc_cap (s : State) (idx sub n : Nat) : (odInc s idx sub n).cap = s.cap := rfl
@[simp] theorem odInc_wire (s : State) (idx sub n : Nat) : (odInc s idx sub n).wire = s.wire := rfl
@[simp] theorem odInc_memc (s : State) (idx sub n : Nat) : (odInc s idx sub n).memc = s.memc := rfl
@[simp] theorem odInc_fab (s : State) (idx sub n : Nat) : (odInc s idx sub n).fab = s.fab := rfl
@[simp] theorem mput_pending (s : State) (a : Nat) (b : Byte) : (mput s a b).pending = s.pending := rfl
@[simp] theorem mput_regs (s : State) (a : Nat) (b : Byte) : (mput s a b).regs = s.regs := rfl
@[simp] theorem mput_od (s : State) (a : Nat) (b : Byte) : (mput s a b).od = s.od := rfl
@[simp] theorem mput_fresh (s : State) (a : Nat) (b : Byte) : (mput s a b).fresh = s.fresh := rfl
@[simp] theorem mput_sys (s : State) (a : Nat) (b : Byte) : (mput s a b).sys = s.sys := rfl
@[simp] theorem mput_faults (s : State) (a : Nat) (b : Byte) : (mput s a b).faults = s.faults := rfl
@[simp] theorem mput_power (s : State) (a : Nat) (b : Byte) : (mput s a b).power = s.power := rfl
@[simp] theorem mput_flash (s : State) (a : Nat) (b : Byte) : (mput s a b).flash = s.flash := rfl
@[simp] theorem mput_mgmt (s : State) (a : Nat) (b : Byte) : (mput s a b).mgmt = s.mgmt := rfl
@[simp] theorem mput_tenants (s : State) (a : Nat) (b : Byte) : (mput s a b).tenants = s.tenants := rfl
@[simp] theorem mput_hif (s : State) (a : Nat) (b : Byte) : (mput s a b).hif = s.hif := rfl
@[simp] theorem mput_serve (s : State) (a : Nat) (b : Byte) : (mput s a b).serve = s.serve := rfl
@[simp] theorem mput_dies (s : State) (a : Nat) (b : Byte) : (mput s a b).dies = s.dies := rfl
@[simp] theorem mput_cores (s : State) (a : Nat) (b : Byte) : (mput s a b).cores = s.cores := rfl
@[simp] theorem mput_loom (s : State) (a : Nat) (b : Byte) : (mput s a b).loom = s.loom := rfl
@[simp] theorem mput_probes (s : State) (a : Nat) (b : Byte) : (mput s a b).probes = s.probes := rfl
@[simp] theorem mput_models (s : State) (a : Nat) (b : Byte) : (mput s a b).models = s.models := rfl
@[simp] theorem mput_care (s : State) (a : Nat) (b : Byte) : (mput s a b).care = s.care := rfl
@[simp] theorem mput_therm (s : State) (a : Nat) (b : Byte) : (mput s a b).therm = s.therm := rfl
@[simp] theorem mput_cap (s : State) (a : Nat) (b : Byte) : (mput s a b).cap = s.cap := rfl
@[simp] theorem mput_wire (s : State) (a : Nat) (b : Byte) : (mput s a b).wire = s.wire := rfl
@[simp] theorem mput_memc (s : State) (a : Nat) (b : Byte) : (mput s a b).memc = s.memc := rfl
@[simp] theorem mput_fab (s : State) (a : Nat) (b : Byte) : (mput s a b).fab = s.fab := rfl
@[simp] theorem mzero_pending (s : State) (lo hi : Nat) : (mzero s lo hi).pending = s.pending := rfl
@[simp] theorem mzero_regs (s : State) (lo hi : Nat) : (mzero s lo hi).regs = s.regs := rfl
@[simp] theorem mzero_od (s : State) (lo hi : Nat) : (mzero s lo hi).od = s.od := rfl
@[simp] theorem mzero_fresh (s : State) (lo hi : Nat) : (mzero s lo hi).fresh = s.fresh := rfl
@[simp] theorem mzero_sys (s : State) (lo hi : Nat) : (mzero s lo hi).sys = s.sys := rfl
@[simp] theorem mzero_faults (s : State) (lo hi : Nat) : (mzero s lo hi).faults = s.faults := rfl
@[simp] theorem mzero_power (s : State) (lo hi : Nat) : (mzero s lo hi).power = s.power := rfl
@[simp] theorem mzero_flash (s : State) (lo hi : Nat) : (mzero s lo hi).flash = s.flash := rfl
@[simp] theorem mzero_mgmt (s : State) (lo hi : Nat) : (mzero s lo hi).mgmt = s.mgmt := rfl
@[simp] theorem mzero_tenants (s : State) (lo hi : Nat) : (mzero s lo hi).tenants = s.tenants := rfl
@[simp] theorem mzero_hif (s : State) (lo hi : Nat) : (mzero s lo hi).hif = s.hif := rfl
@[simp] theorem mzero_serve (s : State) (lo hi : Nat) : (mzero s lo hi).serve = s.serve := rfl
@[simp] theorem mzero_dies (s : State) (lo hi : Nat) : (mzero s lo hi).dies = s.dies := rfl
@[simp] theorem mzero_cores (s : State) (lo hi : Nat) : (mzero s lo hi).cores = s.cores := rfl
@[simp] theorem mzero_loom (s : State) (lo hi : Nat) : (mzero s lo hi).loom = s.loom := rfl
@[simp] theorem mzero_probes (s : State) (lo hi : Nat) : (mzero s lo hi).probes = s.probes := rfl
@[simp] theorem mzero_models (s : State) (lo hi : Nat) : (mzero s lo hi).models = s.models := rfl
@[simp] theorem mzero_care (s : State) (lo hi : Nat) : (mzero s lo hi).care = s.care := rfl
@[simp] theorem mzero_therm (s : State) (lo hi : Nat) : (mzero s lo hi).therm = s.therm := rfl
@[simp] theorem mzero_cap (s : State) (lo hi : Nat) : (mzero s lo hi).cap = s.cap := rfl
@[simp] theorem mzero_wire (s : State) (lo hi : Nat) : (mzero s lo hi).wire = s.wire := rfl
@[simp] theorem mzero_memc (s : State) (lo hi : Nat) : (mzero s lo hi).memc = s.memc := rfl
@[simp] theorem mzero_fab (s : State) (lo hi : Nat) : (mzero s lo hi).fab = s.fab := rfl
@[simp] theorem modCore_pending (s : State) (d c : Nat) (f : CoreSt → CoreSt) : (modCore s d c f).pending = s.pending := rfl
@[simp] theorem modCore_regs (s : State) (d c : Nat) (f : CoreSt → CoreSt) : (modCore s d c f).regs = s.regs := rfl
@[simp] theorem modCore_od (s : State) (d c : Nat) (f : CoreSt → CoreSt) : (modCore s d c f).od = s.od := rfl
@[simp] theorem modCore_mem (s : State) (d c : Nat) (f : CoreSt → CoreSt) : (modCore s d c f).mem = s.mem := rfl
@[simp] theorem modCore_fresh (s : State) (d c : Nat) (f : CoreSt → CoreSt) : (modCore s d c f).fresh = s.fresh := rfl
@[simp] theorem modCore_sys (s : State) (d c : Nat) (f : CoreSt → CoreSt) : (modCore s d c f).sys = s.sys := rfl
@[simp] theorem modCore_faults (s : State) (d c : Nat) (f : CoreSt → CoreSt) : (modCore s d c f).faults = s.faults := rfl
@[simp] theorem modCore_power (s : State) (d c : Nat) (f : CoreSt → CoreSt) : (modCore s d c f).power = s.power := rfl
@[simp] theorem modCore_flash (s : State) (d c : Nat) (f : CoreSt → CoreSt) : (modCore s d c f).flash = s.flash := rfl
@[simp] theorem modCore_mgmt (s : State) (d c : Nat) (f : CoreSt → CoreSt) : (modCore s d c f).mgmt = s.mgmt := rfl
@[simp] theorem modCore_tenants (s : State) (d c : Nat) (f : CoreSt → CoreSt) : (modCore s d c f).tenants = s.tenants := rfl
@[simp] theorem modCore_hif (s : State) (d c : Nat) (f : CoreSt → CoreSt) : (modCore s d c f).hif = s.hif := rfl
@[simp] theorem modCore_serve (s : State) (d c : Nat) (f : CoreSt → CoreSt) : (modCore s d c f).serve = s.serve := rfl
@[simp] theorem modCore_dies (s : State) (d c : Nat) (f : CoreSt → CoreSt) : (modCore s d c f).dies = s.dies := rfl
@[simp] theorem modCore_loom (s : State) (d c : Nat) (f : CoreSt → CoreSt) : (modCore s d c f).loom = s.loom := rfl
@[simp] theorem modCore_probes (s : State) (d c : Nat) (f : CoreSt → CoreSt) : (modCore s d c f).probes = s.probes := rfl
@[simp] theorem modCore_models (s : State) (d c : Nat) (f : CoreSt → CoreSt) : (modCore s d c f).models = s.models := rfl
@[simp] theorem modCore_care (s : State) (d c : Nat) (f : CoreSt → CoreSt) : (modCore s d c f).care = s.care := rfl
@[simp] theorem modCore_therm (s : State) (d c : Nat) (f : CoreSt → CoreSt) : (modCore s d c f).therm = s.therm := rfl
@[simp] theorem modCore_cap (s : State) (d c : Nat) (f : CoreSt → CoreSt) : (modCore s d c f).cap = s.cap := rfl
@[simp] theorem modCore_wire (s : State) (d c : Nat) (f : CoreSt → CoreSt) : (modCore s d c f).wire = s.wire := rfl
@[simp] theorem modCore_memc (s : State) (d c : Nat) (f : CoreSt → CoreSt) : (modCore s d c f).memc = s.memc := rfl
@[simp] theorem modCore_fab (s : State) (d c : Nat) (f : CoreSt → CoreSt) : (modCore s d c f).fab = s.fab := rfl
@[simp] theorem modDie_pending (s : State) (d : Nat) (f : DieSt → DieSt) : (modDie s d f).pending = s.pending := rfl
@[simp] theorem modDie_regs (s : State) (d : Nat) (f : DieSt → DieSt) : (modDie s d f).regs = s.regs := rfl
@[simp] theorem modDie_od (s : State) (d : Nat) (f : DieSt → DieSt) : (modDie s d f).od = s.od := rfl
@[simp] theorem modDie_mem (s : State) (d : Nat) (f : DieSt → DieSt) : (modDie s d f).mem = s.mem := rfl
@[simp] theorem modDie_fresh (s : State) (d : Nat) (f : DieSt → DieSt) : (modDie s d f).fresh = s.fresh := rfl
@[simp] theorem modDie_sys (s : State) (d : Nat) (f : DieSt → DieSt) : (modDie s d f).sys = s.sys := rfl
@[simp] theorem modDie_faults (s : State) (d : Nat) (f : DieSt → DieSt) : (modDie s d f).faults = s.faults := rfl
@[simp] theorem modDie_power (s : State) (d : Nat) (f : DieSt → DieSt) : (modDie s d f).power = s.power := rfl
@[simp] theorem modDie_flash (s : State) (d : Nat) (f : DieSt → DieSt) : (modDie s d f).flash = s.flash := rfl
@[simp] theorem modDie_mgmt (s : State) (d : Nat) (f : DieSt → DieSt) : (modDie s d f).mgmt = s.mgmt := rfl
@[simp] theorem modDie_tenants (s : State) (d : Nat) (f : DieSt → DieSt) : (modDie s d f).tenants = s.tenants := rfl
@[simp] theorem modDie_hif (s : State) (d : Nat) (f : DieSt → DieSt) : (modDie s d f).hif = s.hif := rfl
@[simp] theorem modDie_serve (s : State) (d : Nat) (f : DieSt → DieSt) : (modDie s d f).serve = s.serve := rfl
@[simp] theorem modDie_cores (s : State) (d : Nat) (f : DieSt → DieSt) : (modDie s d f).cores = s.cores := rfl
@[simp] theorem modDie_loom (s : State) (d : Nat) (f : DieSt → DieSt) : (modDie s d f).loom = s.loom := rfl
@[simp] theorem modDie_probes (s : State) (d : Nat) (f : DieSt → DieSt) : (modDie s d f).probes = s.probes := rfl
@[simp] theorem modDie_models (s : State) (d : Nat) (f : DieSt → DieSt) : (modDie s d f).models = s.models := rfl
@[simp] theorem modDie_care (s : State) (d : Nat) (f : DieSt → DieSt) : (modDie s d f).care = s.care := rfl
@[simp] theorem modDie_therm (s : State) (d : Nat) (f : DieSt → DieSt) : (modDie s d f).therm = s.therm := rfl
@[simp] theorem modDie_cap (s : State) (d : Nat) (f : DieSt → DieSt) : (modDie s d f).cap = s.cap := rfl
@[simp] theorem modDie_wire (s : State) (d : Nat) (f : DieSt → DieSt) : (modDie s d f).wire = s.wire := rfl
@[simp] theorem modDie_memc (s : State) (d : Nat) (f : DieSt → DieSt) : (modDie s d f).memc = s.memc := rfl
@[simp] theorem modDie_fab (s : State) (d : Nat) (f : DieSt → DieSt) : (modDie s d f).fab = s.fab := rfl
@[simp] theorem modArr_pending (key : Nat) (f : Arr → Arr) (s : State) : (modArr key f s).pending = s.pending := rfl
@[simp] theorem modArr_regs (key : Nat) (f : Arr → Arr) (s : State) : (modArr key f s).regs = s.regs := rfl
@[simp] theorem modArr_od (key : Nat) (f : Arr → Arr) (s : State) : (modArr key f s).od = s.od := rfl
@[simp] theorem modArr_mem (key : Nat) (f : Arr → Arr) (s : State) : (modArr key f s).mem = s.mem := rfl
@[simp] theorem modArr_fresh (key : Nat) (f : Arr → Arr) (s : State) : (modArr key f s).fresh = s.fresh := rfl
@[simp] theorem modArr_sys (key : Nat) (f : Arr → Arr) (s : State) : (modArr key f s).sys = s.sys := rfl
@[simp] theorem modArr_faults (key : Nat) (f : Arr → Arr) (s : State) : (modArr key f s).faults = s.faults := rfl
@[simp] theorem modArr_power (key : Nat) (f : Arr → Arr) (s : State) : (modArr key f s).power = s.power := rfl
@[simp] theorem modArr_flash (key : Nat) (f : Arr → Arr) (s : State) : (modArr key f s).flash = s.flash := rfl
@[simp] theorem modArr_mgmt (key : Nat) (f : Arr → Arr) (s : State) : (modArr key f s).mgmt = s.mgmt := rfl
@[simp] theorem modArr_tenants (key : Nat) (f : Arr → Arr) (s : State) : (modArr key f s).tenants = s.tenants := rfl
@[simp] theorem modArr_hif (key : Nat) (f : Arr → Arr) (s : State) : (modArr key f s).hif = s.hif := rfl
@[simp] theorem modArr_serve (key : Nat) (f : Arr → Arr) (s : State) : (modArr key f s).serve = s.serve := rfl
@[simp] theorem modArr_dies (key : Nat) (f : Arr → Arr) (s : State) : (modArr key f s).dies = s.dies := rfl
@[simp] theorem modArr_cores (key : Nat) (f : Arr → Arr) (s : State) : (modArr key f s).cores = s.cores := rfl
@[simp] theorem modArr_probes (key : Nat) (f : Arr → Arr) (s : State) : (modArr key f s).probes = s.probes := rfl
@[simp] theorem modArr_models (key : Nat) (f : Arr → Arr) (s : State) : (modArr key f s).models = s.models := rfl
@[simp] theorem modArr_care (key : Nat) (f : Arr → Arr) (s : State) : (modArr key f s).care = s.care := rfl
@[simp] theorem modArr_therm (key : Nat) (f : Arr → Arr) (s : State) : (modArr key f s).therm = s.therm := rfl
@[simp] theorem modArr_cap (key : Nat) (f : Arr → Arr) (s : State) : (modArr key f s).cap = s.cap := rfl
@[simp] theorem modArr_wire (key : Nat) (f : Arr → Arr) (s : State) : (modArr key f s).wire = s.wire := rfl
@[simp] theorem modArr_memc (key : Nat) (f : Arr → Arr) (s : State) : (modArr key f s).memc = s.memc := rfl
@[simp] theorem modArr_fab (key : Nat) (f : Arr → Arr) (s : State) : (modArr key f s).fab = s.fab := rfl
@[simp] theorem modAcc_pending (key : Nat) (f : Acc → Acc) (s : State) : (modAcc key f s).pending = s.pending := rfl
@[simp] theorem modAcc_regs (key : Nat) (f : Acc → Acc) (s : State) : (modAcc key f s).regs = s.regs := rfl
@[simp] theorem modAcc_od (key : Nat) (f : Acc → Acc) (s : State) : (modAcc key f s).od = s.od := rfl
@[simp] theorem modAcc_mem (key : Nat) (f : Acc → Acc) (s : State) : (modAcc key f s).mem = s.mem := rfl
@[simp] theorem modAcc_fresh (key : Nat) (f : Acc → Acc) (s : State) : (modAcc key f s).fresh = s.fresh := rfl
@[simp] theorem modAcc_sys (key : Nat) (f : Acc → Acc) (s : State) : (modAcc key f s).sys = s.sys := rfl
@[simp] theorem modAcc_faults (key : Nat) (f : Acc → Acc) (s : State) : (modAcc key f s).faults = s.faults := rfl
@[simp] theorem modAcc_power (key : Nat) (f : Acc → Acc) (s : State) : (modAcc key f s).power = s.power := rfl
@[simp] theorem modAcc_flash (key : Nat) (f : Acc → Acc) (s : State) : (modAcc key f s).flash = s.flash := rfl
@[simp] theorem modAcc_mgmt (key : Nat) (f : Acc → Acc) (s : State) : (modAcc key f s).mgmt = s.mgmt := rfl
@[simp] theorem modAcc_tenants (key : Nat) (f : Acc → Acc) (s : State) : (modAcc key f s).tenants = s.tenants := rfl
@[simp] theorem modAcc_hif (key : Nat) (f : Acc → Acc) (s : State) : (modAcc key f s).hif = s.hif := rfl
@[simp] theorem modAcc_serve (key : Nat) (f : Acc → Acc) (s : State) : (modAcc key f s).serve = s.serve := rfl
@[simp] theorem modAcc_dies (key : Nat) (f : Acc → Acc) (s : State) : (modAcc key f s).dies = s.dies := rfl
@[simp] theorem modAcc_cores (key : Nat) (f : Acc → Acc) (s : State) : (modAcc key f s).cores = s.cores := rfl
@[simp] theorem modAcc_probes (key : Nat) (f : Acc → Acc) (s : State) : (modAcc key f s).probes = s.probes := rfl
@[simp] theorem modAcc_models (key : Nat) (f : Acc → Acc) (s : State) : (modAcc key f s).models = s.models := rfl
@[simp] theorem modAcc_care (key : Nat) (f : Acc → Acc) (s : State) : (modAcc key f s).care = s.care := rfl
@[simp] theorem modAcc_therm (key : Nat) (f : Acc → Acc) (s : State) : (modAcc key f s).therm = s.therm := rfl
@[simp] theorem modAcc_cap (key : Nat) (f : Acc → Acc) (s : State) : (modAcc key f s).cap = s.cap := rfl
@[simp] theorem modAcc_wire (key : Nat) (f : Acc → Acc) (s : State) : (modAcc key f s).wire = s.wire := rfl
@[simp] theorem modAcc_memc (key : Nat) (f : Acc → Acc) (s : State) : (modAcc key f s).memc = s.memc := rfl
@[simp] theorem modAcc_fab (key : Nat) (f : Acc → Acc) (s : State) : (modAcc key f s).fab = s.fab := rfl
@[simp] theorem modTherm_pending (d : Nat) (f : Therm → Therm) (s : State) : (modTherm d f s).pending = s.pending := rfl
@[simp] theorem modTherm_regs (d : Nat) (f : Therm → Therm) (s : State) : (modTherm d f s).regs = s.regs := rfl
@[simp] theorem modTherm_od (d : Nat) (f : Therm → Therm) (s : State) : (modTherm d f s).od = s.od := rfl
@[simp] theorem modTherm_mem (d : Nat) (f : Therm → Therm) (s : State) : (modTherm d f s).mem = s.mem := rfl
@[simp] theorem modTherm_fresh (d : Nat) (f : Therm → Therm) (s : State) : (modTherm d f s).fresh = s.fresh := rfl
@[simp] theorem modTherm_sys (d : Nat) (f : Therm → Therm) (s : State) : (modTherm d f s).sys = s.sys := rfl
@[simp] theorem modTherm_faults (d : Nat) (f : Therm → Therm) (s : State) : (modTherm d f s).faults = s.faults := rfl
@[simp] theorem modTherm_power (d : Nat) (f : Therm → Therm) (s : State) : (modTherm d f s).power = s.power := rfl
@[simp] theorem modTherm_flash (d : Nat) (f : Therm → Therm) (s : State) : (modTherm d f s).flash = s.flash := rfl
@[simp] theorem modTherm_mgmt (d : Nat) (f : Therm → Therm) (s : State) : (modTherm d f s).mgmt = s.mgmt := rfl
@[simp] theorem modTherm_tenants (d : Nat) (f : Therm → Therm) (s : State) : (modTherm d f s).tenants = s.tenants := rfl
@[simp] theorem modTherm_hif (d : Nat) (f : Therm → Therm) (s : State) : (modTherm d f s).hif = s.hif := rfl
@[simp] theorem modTherm_serve (d : Nat) (f : Therm → Therm) (s : State) : (modTherm d f s).serve = s.serve := rfl
@[simp] theorem modTherm_dies (d : Nat) (f : Therm → Therm) (s : State) : (modTherm d f s).dies = s.dies := rfl
@[simp] theorem modTherm_cores (d : Nat) (f : Therm → Therm) (s : State) : (modTherm d f s).cores = s.cores := rfl
@[simp] theorem modTherm_loom (d : Nat) (f : Therm → Therm) (s : State) : (modTherm d f s).loom = s.loom := rfl
@[simp] theorem modTherm_probes (d : Nat) (f : Therm → Therm) (s : State) : (modTherm d f s).probes = s.probes := rfl
@[simp] theorem modTherm_models (d : Nat) (f : Therm → Therm) (s : State) : (modTherm d f s).models = s.models := rfl
@[simp] theorem modTherm_care (d : Nat) (f : Therm → Therm) (s : State) : (modTherm d f s).care = s.care := rfl
@[simp] theorem modTherm_cap (d : Nat) (f : Therm → Therm) (s : State) : (modTherm d f s).cap = s.cap := rfl
@[simp] theorem modTherm_wire (d : Nat) (f : Therm → Therm) (s : State) : (modTherm d f s).wire = s.wire := rfl
@[simp] theorem modTherm_memc (d : Nat) (f : Therm → Therm) (s : State) : (modTherm d f s).memc = s.memc := rfl
@[simp] theorem modTherm_fab (d : Nat) (f : Therm → Therm) (s : State) : (modTherm d f s).fab = s.fab := rfl

/-! ### Bits of a word -/

/-- The part of a number above its low `b` bits. -/
theorem natBits_def (x lo w : Nat) : natBits x lo w = x / 2 ^ lo % 2 ^ w := rfl

/-- A number below `2 ^ 32` is what a word of it holds. -/
theorem word_toNat (x : Nat) (h : x < 2 ^ 32) : (BitVec.ofNat 32 x).toNat = x := by
  simp only [BitVec.toNat_ofNat]; exact Nat.mod_eq_of_lt h

/-- A number split at bit `lo` and at bit `lo + w`. -/
theorem split_bits (x lo w : Nat) : x = x % 2 ^ lo + 2 ^ lo * (natBits x lo w + 2 ^ w * (x / 2 ^ lo / 2 ^ w)) := by
  have h1 := Nat.div_add_mod x (2 ^ lo)
  have h2 := Nat.div_add_mod (x / 2 ^ lo) (2 ^ w)
  unfold natBits
  rw [Nat.add_comm (x / 2 ^ lo % 2 ^ w), h2]
  omega

/-- Setting bits keeps those below and above. -/
theorem setBits_eq (x lo w v : Nat) : setBits x lo w v = x % 2 ^ lo + 2 ^ lo * (v % 2 ^ w + 2 ^ w * (x / 2 ^ lo / 2 ^ w)) := by
  have h := split_bits x lo w
  have e : natBits x lo w * 2 ^ lo = 2 ^ lo * natBits x lo w := Nat.mul_comm _ _
  have e2 : v % 2 ^ w * 2 ^ lo = 2 ^ lo * (v % 2 ^ w) := Nat.mul_comm _ _
  unfold setBits
  rw [Nat.mul_add] at h
  rw [e, e2, Nat.mul_add]
  omega

/-- The bits just set. -/
theorem natBits_setBits_same (x lo w v : Nat) : natBits (setBits x lo w v) lo w = v % 2 ^ w := by
  rw [setBits_eq]
  unfold natBits
  have hp : 0 < 2 ^ lo := Nat.two_pow_pos lo
  rw [Nat.add_mul_div_left _ _ hp, Nat.div_eq_of_lt (Nat.mod_lt x hp), Nat.zero_add, Nat.add_mul_mod_self_left]
  exact Nat.mod_mod v (2 ^ w)

/-- Bits that lie below those set. -/
theorem natBits_setBits_below (x lo w v lo' w' : Nat) (h : lo' + w' ≤ lo) : natBits (setBits x lo w v) lo' w' = natBits x lo' w' := by
  have key : ∀ y z : Nat, y % 2 ^ lo = z % 2 ^ lo → natBits y lo' w' = natBits z lo' w' := by
    intro y z hyz
    have hd : 2 ^ (lo' + w') ∣ 2 ^ lo := Nat.pow_dvd_pow 2 h
    have : y % 2 ^ (lo' + w') = z % 2 ^ (lo' + w') := by
      rw [← Nat.mod_mod_of_dvd y hd, ← Nat.mod_mod_of_dvd z hd, hyz]
    unfold natBits
    rw [Nat.pow_add, Nat.mod_mul, Nat.mod_mul] at this
    have hp : 0 < 2 ^ lo' := Nat.two_pow_pos lo'
    have h1 : y % 2 ^ lo' = z % 2 ^ lo' := by
      have hd' : 2 ^ lo' ∣ 2 ^ lo := Nat.pow_dvd_pow 2 (by omega)
      rw [← Nat.mod_mod_of_dvd y hd', ← Nat.mod_mod_of_dvd z hd', hyz]
    rw [h1] at this
    exact Nat.eq_of_mul_eq_mul_left hp (by omega)
  apply key
  rw [setBits_eq, Nat.add_mul_mod_self_left, Nat.mod_mod]

/-- Bits that lie above those set. -/
theorem natBits_setBits_above (x lo w v lo' w' : Nat) (h : lo + w ≤ lo') : natBits (setBits x lo w v) lo' w' = natBits x lo' w' := by
  have hd : ∀ y : Nat, y / 2 ^ lo' = y / 2 ^ lo / 2 ^ w / 2 ^ (lo' - (lo + w)) := by
    intro y
    rw [Nat.div_div_eq_div_mul, Nat.div_div_eq_div_mul, ← Nat.pow_add, ← Nat.pow_add]
    congr 2; omega
  unfold natBits
  rw [hd, hd x, setBits_eq]
  have hp : 0 < 2 ^ lo := Nat.two_pow_pos lo
  have hw : 0 < 2 ^ w := Nat.two_pow_pos w
  rw [Nat.add_mul_div_left _ _ hp, Nat.div_eq_of_lt (Nat.mod_lt x hp), Nat.zero_add, Nat.add_mul_div_left _ _ hw,
    Nat.div_eq_of_lt (Nat.mod_lt v hw), Nat.zero_add]

/-- A word with bits set is a word. -/
theorem setBits_lt (x lo w v : Nat) (hx : x < 2 ^ 32) (h : lo + w ≤ 32) : setBits x lo w v < 2 ^ 32 := by
  rw [setBits_eq]
  have e : (2 : Nat) ^ 32 = 2 ^ lo * (2 ^ w * 2 ^ (32 - lo - w)) := by
    rw [← Nat.pow_add, ← Nat.pow_add]; congr 1; omega
  have h1 := Nat.mod_lt x (Nat.two_pow_pos lo)
  have h2 := Nat.mod_lt v (Nat.two_pow_pos w)
  have h3 : x / 2 ^ lo / 2 ^ w < 2 ^ (32 - lo - w) := by
    rw [Nat.div_div_eq_div_mul, Nat.div_lt_iff_lt_mul (Nat.mul_pos (Nat.two_pow_pos lo) (Nat.two_pow_pos w))]
    rw [e] at hx
    calc x < _ := hx
      _ = _ := by rw [Nat.mul_comm (2 ^ (32 - lo - w)), Nat.mul_assoc]
  have h4 : v % 2 ^ w + 2 ^ w * (x / 2 ^ lo / 2 ^ w) + 1 ≤ 2 ^ w * 2 ^ (32 - lo - w) := by
    have := Nat.mul_le_mul_left (2 ^ w) (Nat.succ_le_of_lt h3)
    rw [Nat.mul_succ] at this
    omega
  have h5 := Nat.mul_le_mul_left (2 ^ lo) h4
  rw [Nat.mul_succ] at h5
  omega

/-! ### Registers -/

/-- A register reads as what was written to it. -/
@[simp] theorem rget_rset_same (s : State) (k : Nat) (w : Word) : rget (rset s k w) k = w := tget_tset_same regReset s.regs k w

/-- Every other register reads as before. -/
theorem rget_rset_other (s : State) (k j : Nat) (w : Word) (h : j ≠ k) : rget (rset s k w) j = rget s j :=
  tget_tset_other regReset s.regs k j w h

/-- A field reads as what was set, cut to its width. -/
theorem fget_fset_same (s : State) (b : Nat) (f : Fld) (v i : Nat) (h : f.lo + f.width ≤ 32) :
    fget (fset s b f v i) b f i = v % 2 ^ f.width := by
  unfold fget fset
  rw [rget_rset_same, word_toNat _ (setBits_lt _ _ _ _ (BitVec.isLt _) h), natBits_setBits_same]

/-- A field of another register reads as before. -/
theorem fget_fset_key (s : State) (b b' : Nat) (f g : Fld) (v i j : Nat) (h : fkey b' g j ≠ fkey b f i) :
    fget (fset s b f v i) b' g j = fget s b' g j := by
  unfold fget fset
  rw [rget_rset_other s _ _ _ h]

/-- A field of the same register that does not overlap reads as before. -/
theorem fget_fset_apart (s : State) (b b' : Nat) (f g : Fld) (v i j : Nat) (h : f.lo + f.width ≤ 32)
    (ha : g.lo + g.width ≤ f.lo ∨ f.lo + f.width ≤ g.lo) : fget (fset s b f v i) b' g j = fget s b' g j := by
  by_cases hk : fkey b' g j = fkey b f i
  · unfold fget fset
    rw [hk, rget_rset_same, word_toNat _ (setBits_lt _ _ _ _ (BitVec.isLt _) h)]
    rcases ha with ha | ha
    · exact natBits_setBits_below _ _ _ _ _ _ ha
    · exact natBits_setBits_above _ _ _ _ _ _ ha
  · exact fget_fset_key s b b' f g v i j hk

/-! ### Dictionary entries -/

/-- An entry reads as what was stored. -/
@[simp] theorem odGet_odPut_same (s : State) (idx sub : Nat) (v : OdVal) : odGet (odPut s idx sub v) idx sub = v :=
  tget_tset_same odReset s.od (odKey idx sub) v

/-- Every other entry reads as before. -/
theorem odGet_odPut_other (s : State) (idx sub idx' sub' : Nat) (v : OdVal) (h : odKey idx' sub' ≠ odKey idx sub) :
    odGet (odPut s idx sub v) idx' sub' = odGet s idx' sub' := tget_tset_other odReset s.od _ _ v h

/-- An entry's number reads as what was stored. -/
@[simp] theorem odNum_odSet_same (s : State) (idx sub n : Nat) : odNum (odSet s idx sub n) idx sub = n := by
  simp [odNum, odSet, OdVal.nat]

/-- A counter after it is raised. -/
@[simp] theorem odNum_odInc_same (s : State) (idx sub n : Nat) :
    odNum (odInc s idx sub n) idx sub = satAdd (odBits idx sub) n (odNum s idx sub) := by simp [odInc]

/-! ### Memory -/

/-- A byte reads as what was written to it. -/
@[simp] theorem mget_mput_same (s : State) (a : Nat) (b : Byte) : mget (mput s a b) a = b := tget_tset_same (fun _ => 0#8) s.mem a b

/-- Every other byte reads as before. -/
theorem mget_mput_other (s : State) (a c : Nat) (b : Byte) (h : c ≠ a) : mget (mput s a b) c = mget s c :=
  tget_tset_other (fun _ => 0#8) s.mem a c b h

theorem mget_putList (l : List (Byte × Nat)) (s : State) (a c : Nat) (h : ∀ p ∈ l, a + p.2 ≠ c) :
    mget (l.foldl (fun t p => mput t (a + p.2) p.1) s) c = mget s c := by
  induction l generalizing s with
  | nil => rfl
  | cons p l ih =>
    rw [List.foldl_cons, ih _ (fun q hq => h q (by simp [hq])), mget_mput_other s _ _ _ (Ne.symm (h p (by simp)))]

/-- Bytes outside the ones written read as before. -/
theorem mget_mwrite_other (s : State) (a c : Nat) (l : List Byte) (h : c < a ∨ a + l.length ≤ c) : mget (mwrite s a l) c = mget s c := by
  unfold mwrite
  apply mget_putList
  intro p hp
  have := List.snd_lt_of_mem_zipIdx hp
  omega

theorem mwrite_from (l : List Byte) (s : State) (a k : Nat) :
    (l.zipIdx k).foldl (fun t p => mput t (a + p.2) p.1) s = mwrite s (a + k) l := by
  have e : l.zipIdx k = (l.zipIdx 0).map fun p => (p.1, k + p.2) := by
    rw [List.zipIdx_eq_map_add]
  unfold mwrite
  rw [e, List.foldl_map]
  simp only [Nat.add_assoc]

/-- The lowest byte goes to the address, the rest from the next one on. -/
theorem mwrite_cons (s : State) (a : Nat) (b : Byte) (l : List Byte) : mwrite s a (b :: l) = mwrite (mput s a b) (a + 1) l := by
  rw [← mwrite_from l _ a 1]
  simp [mwrite, List.zipIdx_cons]

/-- The bytes written read as what was written. -/
theorem mget_mwrite_inside (l : List Byte) (s : State) (a i : Nat) (h : i < l.length) : mget (mwrite s a l) (a + i) = l.getD i 0 := by
  induction l generalizing s a i with
  | nil => simp at h
  | cons b l ih =>
    rw [mwrite_cons]
    cases i with
    | zero => rw [mget_mwrite_other _ _ _ _ (.inl (by omega))]; simp
    | succ i =>
      have := ih (mput s a b) (a + 1) i (by simpa using h)
      rw [show a + (i + 1) = a + 1 + i by omega, this]
      simp

/-- A range read back after it is written. -/
theorem mread_mwrite (s : State) (a : Nat) (l : List Byte) : mread (mwrite s a l) a l.length = l := by
  apply List.ext_getElem
  · simp [mread]
  · intro i h k
    simp only [mread, List.getElem_map, List.getElem_range]
    rw [mget_mwrite_inside l s a i k]
    simp [List.getD, k]

/-- A byte written keeps it. -/
theorem memWf_mput (s : State) (a : Nat) (b : Byte) (h : Memory.wf s.mem = true) : Memory.wf (mput s a b).mem = true := twf_tset _ s.mem a b h

/-- Bytes written keep it. -/
theorem memWf_mwrite (s : State) (a : Nat) (l : List Byte) (h : Memory.wf s.mem = true) : Memory.wf (mwrite s a l).mem = true := by
  unfold mwrite
  generalize l.zipIdx = z
  induction z generalizing s with
  | nil => exact h
  | cons p z ih => exact ih _ (memWf_mput s _ _ h)

/-- A range cleared keeps it. -/
theorem memWf_mzero (s : State) (lo hi : Nat) (h : Memory.wf s.mem = true) : Memory.wf (mzero s lo hi).mem = true := twf_filter _ s.mem _ h

end Sys2Proof.Machine
end

