-- ==== Sys2Proof/Laws/Parts.lean ====
section
/-! SUPPORT. The parts of the module (cores, dies, arrays, lanes, ADCs, ports, rings, contexts …): which fields of the state an update of one part
leaves, what that part reads as after it, and that every other part of its kind reads as before. -/

namespace Sys2Proof.Machine

/-! ### The fields that each update leaves -/

@[simp] theorem modLanePerm_pending (d c lane : Nat) (f : LanePerm → LanePerm) (s : State) : (modLanePerm d c lane f s).pending = s.pending := rfl
@[simp] theorem modLanePerm_regs (d c lane : Nat) (f : LanePerm → LanePerm) (s : State) : (modLanePerm d c lane f s).regs = s.regs := rfl
@[simp] theorem modLanePerm_od (d c lane : Nat) (f : LanePerm → LanePerm) (s : State) : (modLanePerm d c lane f s).od = s.od := rfl
@[simp] theorem modLanePerm_mem (d c lane : Nat) (f : LanePerm → LanePerm) (s : State) : (modLanePerm d c lane f s).mem = s.mem := rfl
@[simp] theorem modLanePerm_fresh (d c lane : Nat) (f : LanePerm → LanePerm) (s : State) : (modLanePerm d c lane f s).fresh = s.fresh := rfl
@[simp] theorem modLanePerm_sys (d c lane : Nat) (f : LanePerm → LanePerm) (s : State) : (modLanePerm d c lane f s).sys = s.sys := rfl
@[simp] theorem modLanePerm_faults (d c lane : Nat) (f : LanePerm → LanePerm) (s : State) : (modLanePerm d c lane f s).faults = s.faults := rfl
@[simp] theorem modLanePerm_power (d c lane : Nat) (f : LanePerm → LanePerm) (s : State) : (modLanePerm d c lane f s).power = s.power := rfl
@[simp] theorem modLanePerm_flash (d c lane : Nat) (f : LanePerm → LanePerm) (s : State) : (modLanePerm d c lane f s).flash = s.flash := rfl
@[simp] theorem modLanePerm_mgmt (d c lane : Nat) (f : LanePerm → LanePerm) (s : State) : (modLanePerm d c lane f s).mgmt = s.mgmt := rfl
@[simp] theorem modLanePerm_tenants (d c lane : Nat) (f : LanePerm → LanePerm) (s : State) : (modLanePerm d c lane f s).tenants = s.tenants := rfl
@[simp] theorem modLanePerm_hif (d c lane : Nat) (f : LanePerm → LanePerm) (s : State) : (modLanePerm d c lane f s).hif = s.hif := rfl
@[simp] theorem modLanePerm_serve (d c lane : Nat) (f : LanePerm → LanePerm) (s : State) : (modLanePerm d c lane f s).serve = s.serve := rfl
@[simp] theorem modLanePerm_dies (d c lane : Nat) (f : LanePerm → LanePerm) (s : State) : (modLanePerm d c lane f s).dies = s.dies := rfl
@[simp] theorem modLanePerm_cores (d c lane : Nat) (f : LanePerm → LanePerm) (s : State) : (modLanePerm d c lane f s).cores = s.cores := rfl
@[simp] theorem modLanePerm_probes (d c lane : Nat) (f : LanePerm → LanePerm) (s : State) : (modLanePerm d c lane f s).probes = s.probes := rfl
@[simp] theorem modLanePerm_models (d c lane : Nat) (f : LanePerm → LanePerm) (s : State) : (modLanePerm d c lane f s).models = s.models := rfl
@[simp] theorem modLanePerm_care (d c lane : Nat) (f : LanePerm → LanePerm) (s : State) : (modLanePerm d c lane f s).care = s.care := rfl
@[simp] theorem modLanePerm_therm (d c lane : Nat) (f : LanePerm → LanePerm) (s : State) : (modLanePerm d c lane f s).therm = s.therm := rfl
@[simp] theorem modLanePerm_cap (d c lane : Nat) (f : LanePerm → LanePerm) (s : State) : (modLanePerm d c lane f s).cap = s.cap := rfl
@[simp] theorem modLanePerm_wire (d c lane : Nat) (f : LanePerm → LanePerm) (s : State) : (modLanePerm d c lane f s).wire = s.wire := rfl
@[simp] theorem modLanePerm_memc (d c lane : Nat) (f : LanePerm → LanePerm) (s : State) : (modLanePerm d c lane f s).memc = s.memc := rfl
@[simp] theorem modLanePerm_fab (d c lane : Nat) (f : LanePerm → LanePerm) (s : State) : (modLanePerm d c lane f s).fab = s.fab := rfl
@[simp] theorem modWin_pending (h : Nat) (f : Win → Win) (s : State) : (modWin h f s).pending = s.pending := rfl
@[simp] theorem modWin_regs (h : Nat) (f : Win → Win) (s : State) : (modWin h f s).regs = s.regs := rfl
@[simp] theorem modWin_od (h : Nat) (f : Win → Win) (s : State) : (modWin h f s).od = s.od := rfl
@[simp] theorem modWin_mem (h : Nat) (f : Win → Win) (s : State) : (modWin h f s).mem = s.mem := rfl
@[simp] theorem modWin_fresh (h : Nat) (f : Win → Win) (s : State) : (modWin h f s).fresh = s.fresh := rfl
@[simp] theorem modWin_sys (h : Nat) (f : Win → Win) (s : State) : (modWin h f s).sys = s.sys := rfl
@[simp] theorem modWin_faults (h : Nat) (f : Win → Win) (s : State) : (modWin h f s).faults = s.faults := rfl
@[simp] theorem modWin_power (h : Nat) (f : Win → Win) (s : State) : (modWin h f s).power = s.power := rfl
@[simp] theorem modWin_flash (h : Nat) (f : Win → Win) (s : State) : (modWin h f s).flash = s.flash := rfl
@[simp] theorem modWin_mgmt (h : Nat) (f : Win → Win) (s : State) : (modWin h f s).mgmt = s.mgmt := rfl
@[simp] theorem modWin_tenants (h : Nat) (f : Win → Win) (s : State) : (modWin h f s).tenants = s.tenants := rfl
@[simp] theorem modWin_hif (h : Nat) (f : Win → Win) (s : State) : (modWin h f s).hif = s.hif := rfl
@[simp] theorem modWin_serve (h : Nat) (f : Win → Win) (s : State) : (modWin h f s).serve = s.serve := rfl
@[simp] theorem modWin_dies (h : Nat) (f : Win → Win) (s : State) : (modWin h f s).dies = s.dies := rfl
@[simp] theorem modWin_cores (h : Nat) (f : Win → Win) (s : State) : (modWin h f s).cores = s.cores := rfl
@[simp] theorem modWin_loom (h : Nat) (f : Win → Win) (s : State) : (modWin h f s).loom = s.loom := rfl
@[simp] theorem modWin_probes (h : Nat) (f : Win → Win) (s : State) : (modWin h f s).probes = s.probes := rfl
@[simp] theorem modWin_models (h : Nat) (f : Win → Win) (s : State) : (modWin h f s).models = s.models := rfl
@[simp] theorem modWin_therm (h : Nat) (f : Win → Win) (s : State) : (modWin h f s).therm = s.therm := rfl
@[simp] theorem modWin_cap (h : Nat) (f : Win → Win) (s : State) : (modWin h f s).cap = s.cap := rfl
@[simp] theorem modWin_wire (h : Nat) (f : Win → Win) (s : State) : (modWin h f s).wire = s.wire := rfl
@[simp] theorem modWin_memc (h : Nat) (f : Win → Win) (s : State) : (modWin h f s).memc = s.memc := rfl
@[simp] theorem modWin_fab (h : Nat) (f : Win → Win) (s : State) : (modWin h f s).fab = s.fab := rfl
@[simp] theorem modPerm_pending (key : Nat) (f : ArrPerm → ArrPerm) (s : State) : (modPerm key f s).pending = s.pending := rfl
@[simp] theorem modPerm_regs (key : Nat) (f : ArrPerm → ArrPerm) (s : State) : (modPerm key f s).regs = s.regs := rfl
@[simp] theorem modPerm_od (key : Nat) (f : ArrPerm → ArrPerm) (s : State) : (modPerm key f s).od = s.od := rfl
@[simp] theorem modPerm_mem (key : Nat) (f : ArrPerm → ArrPerm) (s : State) : (modPerm key f s).mem = s.mem := rfl
@[simp] theorem modPerm_fresh (key : Nat) (f : ArrPerm → ArrPerm) (s : State) : (modPerm key f s).fresh = s.fresh := rfl
@[simp] theorem modPerm_sys (key : Nat) (f : ArrPerm → ArrPerm) (s : State) : (modPerm key f s).sys = s.sys := rfl
@[simp] theorem modPerm_faults (key : Nat) (f : ArrPerm → ArrPerm) (s : State) : (modPerm key f s).faults = s.faults := rfl
@[simp] theorem modPerm_power (key : Nat) (f : ArrPerm → ArrPerm) (s : State) : (modPerm key f s).power = s.power := rfl
@[simp] theorem modPerm_flash (key : Nat) (f : ArrPerm → ArrPerm) (s : State) : (modPerm key f s).flash = s.flash := rfl
@[simp] theorem modPerm_mgmt (key : Nat) (f : ArrPerm → ArrPerm) (s : State) : (modPerm key f s).mgmt = s.mgmt := rfl
@[simp] theorem modPerm_tenants (key : Nat) (f : ArrPerm → ArrPerm) (s : State) : (modPerm key f s).tenants = s.tenants := rfl
@[simp] theorem modPerm_hif (key : Nat) (f : ArrPerm → ArrPerm) (s : State) : (modPerm key f s).hif = s.hif := rfl
@[simp] theorem modPerm_serve (key : Nat) (f : ArrPerm → ArrPerm) (s : State) : (modPerm key f s).serve = s.serve := rfl
@[simp] theorem modPerm_dies (key : Nat) (f : ArrPerm → ArrPerm) (s : State) : (modPerm key f s).dies = s.dies := rfl
@[simp] theorem modPerm_cores (key : Nat) (f : ArrPerm → ArrPerm) (s : State) : (modPerm key f s).cores = s.cores := rfl
@[simp] theorem modPerm_probes (key : Nat) (f : ArrPerm → ArrPerm) (s : State) : (modPerm key f s).probes = s.probes := rfl
@[simp] theorem modPerm_models (key : Nat) (f : ArrPerm → ArrPerm) (s : State) : (modPerm key f s).models = s.models := rfl
@[simp] theorem modPerm_care (key : Nat) (f : ArrPerm → ArrPerm) (s : State) : (modPerm key f s).care = s.care := rfl
@[simp] theorem modPerm_therm (key : Nat) (f : ArrPerm → ArrPerm) (s : State) : (modPerm key f s).therm = s.therm := rfl
@[simp] theorem modPerm_cap (key : Nat) (f : ArrPerm → ArrPerm) (s : State) : (modPerm key f s).cap = s.cap := rfl
@[simp] theorem modPerm_wire (key : Nat) (f : ArrPerm → ArrPerm) (s : State) : (modPerm key f s).wire = s.wire := rfl
@[simp] theorem modPerm_memc (key : Nat) (f : ArrPerm → ArrPerm) (s : State) : (modPerm key f s).memc = s.memc := rfl
@[simp] theorem modPerm_fab (key : Nat) (f : ArrPerm → ArrPerm) (s : State) : (modPerm key f s).fab = s.fab := rfl
@[simp] theorem setTenant_pending (s : State) (k : Nat) (x : Option Tenant) : (setTenant s k x).pending = s.pending := rfl
@[simp] theorem setTenant_regs (s : State) (k : Nat) (x : Option Tenant) : (setTenant s k x).regs = s.regs := rfl
@[simp] theorem setTenant_od (s : State) (k : Nat) (x : Option Tenant) : (setTenant s k x).od = s.od := rfl
@[simp] theorem setTenant_mem (s : State) (k : Nat) (x : Option Tenant) : (setTenant s k x).mem = s.mem := rfl
@[simp] theorem setTenant_fresh (s : State) (k : Nat) (x : Option Tenant) : (setTenant s k x).fresh = s.fresh := rfl
@[simp] theorem setTenant_sys (s : State) (k : Nat) (x : Option Tenant) : (setTenant s k x).sys = s.sys := rfl
@[simp] theorem setTenant_faults (s : State) (k : Nat) (x : Option Tenant) : (setTenant s k x).faults = s.faults := rfl
@[simp] theorem setTenant_power (s : State) (k : Nat) (x : Option Tenant) : (setTenant s k x).power = s.power := rfl
@[simp] theorem setTenant_flash (s : State) (k : Nat) (x : Option Tenant) : (setTenant s k x).flash = s.flash := rfl
@[simp] theorem setTenant_mgmt (s : State) (k : Nat) (x : Option Tenant) : (setTenant s k x).mgmt = s.mgmt := rfl
@[simp] theorem setTenant_hif (s : State) (k : Nat) (x : Option Tenant) : (setTenant s k x).hif = s.hif := rfl
@[simp] theorem setTenant_serve (s : State) (k : Nat) (x : Option Tenant) : (setTenant s k x).serve = s.serve := rfl
@[simp] theorem setTenant_dies (s : State) (k : Nat) (x : Option Tenant) : (setTenant s k x).dies = s.dies := rfl
@[simp] theorem setTenant_cores (s : State) (k : Nat) (x : Option Tenant) : (setTenant s k x).cores = s.cores := rfl
@[simp] theorem setTenant_loom (s : State) (k : Nat) (x : Option Tenant) : (setTenant s k x).loom = s.loom := rfl
@[simp] theorem setTenant_probes (s : State) (k : Nat) (x : Option Tenant) : (setTenant s k x).probes = s.probes := rfl
@[simp] theorem setTenant_models (s : State) (k : Nat) (x : Option Tenant) : (setTenant s k x).models = s.models := rfl
@[simp] theorem setTenant_care (s : State) (k : Nat) (x : Option Tenant) : (setTenant s k x).care = s.care := rfl
@[simp] theorem setTenant_therm (s : State) (k : Nat) (x : Option Tenant) : (setTenant s k x).therm = s.therm := rfl
@[simp] theorem setTenant_cap (s : State) (k : Nat) (x : Option Tenant) : (setTenant s k x).cap = s.cap := rfl
@[simp] theorem setTenant_wire (s : State) (k : Nat) (x : Option Tenant) : (setTenant s k x).wire = s.wire := rfl
@[simp] theorem setTenant_memc (s : State) (k : Nat) (x : Option Tenant) : (setTenant s k x).memc = s.memc := rfl
@[simp] theorem setTenant_fab (s : State) (k : Nat) (x : Option Tenant) : (setTenant s k x).fab = s.fab := rfl
@[simp] theorem modGop_pending (g : Nat) (f : GOp → GOp) (s : State) : (modGop g f s).pending = s.pending := rfl
@[simp] theorem modGop_regs (g : Nat) (f : GOp → GOp) (s : State) : (modGop g f s).regs = s.regs := rfl
@[simp] theorem modGop_od (g : Nat) (f : GOp → GOp) (s : State) : (modGop g f s).od = s.od := rfl
@[simp] theorem modGop_mem (g : Nat) (f : GOp → GOp) (s : State) : (modGop g f s).mem = s.mem := rfl
@[simp] theorem modGop_fresh (g : Nat) (f : GOp → GOp) (s : State) : (modGop g f s).fresh = s.fresh := rfl
@[simp] theorem modGop_sys (g : Nat) (f : GOp → GOp) (s : State) : (modGop g f s).sys = s.sys := rfl
@[simp] theorem modGop_faults (g : Nat) (f : GOp → GOp) (s : State) : (modGop g f s).faults = s.faults := rfl
@[simp] theorem modGop_power (g : Nat) (f : GOp → GOp) (s : State) : (modGop g f s).power = s.power := rfl
@[simp] theorem modGop_flash (g : Nat) (f : GOp → GOp) (s : State) : (modGop g f s).flash = s.flash := rfl
@[simp] theorem modGop_mgmt (g : Nat) (f : GOp → GOp) (s : State) : (modGop g f s).mgmt = s.mgmt := rfl
@[simp] theorem modGop_tenants (g : Nat) (f : GOp → GOp) (s : State) : (modGop g f s).tenants = s.tenants := rfl
@[simp] theorem modGop_hif (g : Nat) (f : GOp → GOp) (s : State) : (modGop g f s).hif = s.hif := rfl
@[simp] theorem modGop_serve (g : Nat) (f : GOp → GOp) (s : State) : (modGop g f s).serve = s.serve := rfl
@[simp] theorem modGop_dies (g : Nat) (f : GOp → GOp) (s : State) : (modGop g f s).dies = s.dies := rfl
@[simp] theorem modGop_cores (g : Nat) (f : GOp → GOp) (s : State) : (modGop g f s).cores = s.cores := rfl
@[simp] theorem modGop_loom (g : Nat) (f : GOp → GOp) (s : State) : (modGop g f s).loom = s.loom := rfl
@[simp] theorem modGop_probes (g : Nat) (f : GOp → GOp) (s : State) : (modGop g f s).probes = s.probes := rfl
@[simp] theorem modGop_models (g : Nat) (f : GOp → GOp) (s : State) : (modGop g f s).models = s.models := rfl
@[simp] theorem modGop_care (g : Nat) (f : GOp → GOp) (s : State) : (modGop g f s).care = s.care := rfl
@[simp] theorem modGop_therm (g : Nat) (f : GOp → GOp) (s : State) : (modGop g f s).therm = s.therm := rfl
@[simp] theorem modGop_cap (g : Nat) (f : GOp → GOp) (s : State) : (modGop g f s).cap = s.cap := rfl
@[simp] theorem modGop_wire (g : Nat) (f : GOp → GOp) (s : State) : (modGop g f s).wire = s.wire := rfl
@[simp] theorem modGop_memc (g : Nat) (f : GOp → GOp) (s : State) : (modGop g f s).memc = s.memc := rfl
@[simp] theorem modStep_pending (s : State) (b num : Nat) (f : Step → Step) : (modStep s b num f).pending = s.pending := rfl
@[simp] theorem modStep_regs (s : State) (b num : Nat) (f : Step → Step) : (modStep s b num f).regs = s.regs := rfl
@[simp] theorem modStep_od (s : State) (b num : Nat) (f : Step → Step) : (modStep s b num f).od = s.od := rfl
@[simp] theorem modStep_mem (s : State) (b num : Nat) (f : Step → Step) : (modStep s b num f).mem = s.mem := rfl
@[simp] theorem modStep_fresh (s : State) (b num : Nat) (f : Step → Step) : (modStep s b num f).fresh = s.fresh := rfl
@[simp] theorem modStep_sys (s : State) (b num : Nat) (f : Step → Step) : (modStep s b num f).sys = s.sys := rfl
@[simp] theorem modStep_faults (s : State) (b num : Nat) (f : Step → Step) : (modStep s b num f).faults = s.faults := rfl
@[simp] theorem modStep_power (s : State) (b num : Nat) (f : Step → Step) : (modStep s b num f).power = s.power := rfl
@[simp] theorem modStep_flash (s : State) (b num : Nat) (f : Step → Step) : (modStep s b num f).flash = s.flash := rfl
@[simp] theorem modStep_mgmt (s : State) (b num : Nat) (f : Step → Step) : (modStep s b num f).mgmt = s.mgmt := rfl
@[simp] theorem modStep_tenants (s : State) (b num : Nat) (f : Step → Step) : (modStep s b num f).tenants = s.tenants := rfl
@[simp] theorem modStep_hif (s : State) (b num : Nat) (f : Step → Step) : (modStep s b num f).hif = s.hif := rfl
@[simp] theorem modStep_dies (s : State) (b num : Nat) (f : Step → Step) : (modStep s b num f).dies = s.dies := rfl
@[simp] theorem modStep_cores (s : State) (b num : Nat) (f : Step → Step) : (modStep s b num f).cores = s.cores := rfl
@[simp] theorem modStep_loom (s : State) (b num : Nat) (f : Step → Step) : (modStep s b num f).loom = s.loom := rfl
@[simp] theorem modStep_probes (s : State) (b num : Nat) (f : Step → Step) : (modStep s b num f).probes = s.probes := rfl
@[simp] theorem modStep_models (s : State) (b num : Nat) (f : Step → Step) : (modStep s b num f).models = s.models := rfl
@[simp] theorem modStep_care (s : State) (b num : Nat) (f : Step → Step) : (modStep s b num f).care = s.care := rfl
@[simp] theorem modStep_therm (s : State) (b num : Nat) (f : Step → Step) : (modStep s b num f).therm = s.therm := rfl
@[simp] theorem modStep_cap (s : State) (b num : Nat) (f : Step → Step) : (modStep s b num f).cap = s.cap := rfl
@[simp] theorem modStep_wire (s : State) (b num : Nat) (f : Step → Step) : (modStep s b num f).wire = s.wire := rfl
@[simp] theorem modStep_memc (s : State) (b num : Nat) (f : Step → Step) : (modStep s b num f).memc = s.memc := rfl
@[simp] theorem modStep_fab (s : State) (b num : Nat) (f : Step → Step) : (modStep s b num f).fab = s.fab := rfl
@[simp] theorem modBind_pending (s : State) (b : Nat) (f : Binding → Binding) : (modBind s b f).pending = s.pending := rfl
@[simp] theorem modBind_regs (s : State) (b : Nat) (f : Binding → Binding) : (modBind s b f).regs = s.regs := rfl
@[simp] theorem modBind_od (s : State) (b : Nat) (f : Binding → Binding) : (modBind s b f).od = s.od := rfl
@[simp] theorem modBind_mem (s : State) (b : Nat) (f : Binding → Binding) : (modBind s b f).mem = s.mem := rfl
@[simp] theorem modBind_fresh (s : State) (b : Nat) (f : Binding → Binding) : (modBind s b f).fresh = s.fresh := rfl
@[simp] theorem modBind_sys (s : State) (b : Nat) (f : Binding → Binding) : (modBind s b f).sys = s.sys := rfl
@[simp] theorem modBind_faults (s : State) (b : Nat) (f : Binding → Binding) : (modBind s b f).faults = s.faults := rfl
@[simp] theorem modBind_power (s : State) (b : Nat) (f : Binding → Binding) : (modBind s b f).power = s.power := rfl
@[simp] theorem modBind_flash (s : State) (b : Nat) (f : Binding → Binding) : (modBind s b f).flash = s.flash := rfl
@[simp] theorem modBind_mgmt (s : State) (b : Nat) (f : Binding → Binding) : (modBind s b f).mgmt = s.mgmt := rfl
@[simp] theorem modBind_tenants (s : State) (b : Nat) (f : Binding → Binding) : (modBind s b f).tenants = s.tenants := rfl
@[simp] theorem modBind_hif (s : State) (b : Nat) (f : Binding → Binding) : (modBind s b f).hif = s.hif := rfl
@[simp] theorem modBind_dies (s : State) (b : Nat) (f : Binding → Binding) : (modBind s b f).dies = s.dies := rfl
@[simp] theorem modBind_cores (s : State) (b : Nat) (f : Binding → Binding) : (modBind s b f).cores = s.cores := rfl
@[simp] theorem modBind_loom (s : State) (b : Nat) (f : Binding → Binding) : (modBind s b f).loom = s.loom := rfl
@[simp] theorem modBind_probes (s : State) (b : Nat) (f : Binding → Binding) : (modBind s b f).probes = s.probes := rfl
@[simp] theorem modBind_models (s : State) (b : Nat) (f : Binding → Binding) : (modBind s b f).models = s.models := rfl
@[simp] theorem modBind_care (s : State) (b : Nat) (f : Binding → Binding) : (modBind s b f).care = s.care := rfl
@[simp] theorem modBind_therm (s : State) (b : Nat) (f : Binding → Binding) : (modBind s b f).therm = s.therm := rfl
@[simp] theorem modBind_cap (s : State) (b : Nat) (f : Binding → Binding) : (modBind s b f).cap = s.cap := rfl
@[simp] theorem modBind_wire (s : State) (b : Nat) (f : Binding → Binding) : (modBind s b f).wire = s.wire := rfl
@[simp] theorem modBind_memc (s : State) (b : Nat) (f : Binding → Binding) : (modBind s b f).memc = s.memc := rfl
@[simp] theorem modBind_fab (s : State) (b : Nat) (f : Binding → Binding) : (modBind s b f).fab = s.fab := rfl
@[simp] theorem modGen_pending (b g : Nat) (f : Gen → Gen) (s : State) : (modGen b g f s).pending = s.pending := rfl
@[simp] theorem modGen_regs (b g : Nat) (f : Gen → Gen) (s : State) : (modGen b g f s).regs = s.regs := rfl
@[simp] theorem modGen_od (b g : Nat) (f : Gen → Gen) (s : State) : (modGen b g f s).od = s.od := rfl
@[simp] theorem modGen_mem (b g : Nat) (f : Gen → Gen) (s : State) : (modGen b g f s).mem = s.mem := rfl
@[simp] theorem modGen_fresh (b g : Nat) (f : Gen → Gen) (s : State) : (modGen b g f s).fresh = s.fresh := rfl
@[simp] theorem modGen_sys (b g : Nat) (f : Gen → Gen) (s : State) : (modGen b g f s).sys = s.sys := rfl
@[simp] theorem modGen_faults (b g : Nat) (f : Gen → Gen) (s : State) : (modGen b g f s).faults = s.faults := rfl
@[simp] theorem modGen_power (b g : Nat) (f : Gen → Gen) (s : State) : (modGen b g f s).power = s.power := rfl
@[simp] theorem modGen_flash (b g : Nat) (f : Gen → Gen) (s : State) : (modGen b g f s).flash = s.flash := rfl
@[simp] theorem modGen_mgmt (b g : Nat) (f : Gen → Gen) (s : State) : (modGen b g f s).mgmt = s.mgmt := rfl
@[simp] theorem modGen_tenants (b g : Nat) (f : Gen → Gen) (s : State) : (modGen b g f s).tenants = s.tenants := rfl
@[simp] theorem modGen_hif (b g : Nat) (f : Gen → Gen) (s : State) : (modGen b g f s).hif = s.hif := rfl
@[simp] theorem modGen_serve (b g : Nat) (f : Gen → Gen) (s : State) : (modGen b g f s).serve = s.serve := rfl
@[simp] theorem modGen_dies (b g : Nat) (f : Gen → Gen) (s : State) : (modGen b g f s).dies = s.dies := rfl
@[simp] theorem modGen_cores (b g : Nat) (f : Gen → Gen) (s : State) : (modGen b g f s).cores = s.cores := rfl
@[simp] theorem modGen_loom (b g : Nat) (f : Gen → Gen) (s : State) : (modGen b g f s).loom = s.loom := rfl
@[simp] theorem modGen_probes (b g : Nat) (f : Gen → Gen) (s : State) : (modGen b g f s).probes = s.probes := rfl
@[simp] theorem modGen_care (b g : Nat) (f : Gen → Gen) (s : State) : (modGen b g f s).care = s.care := rfl
@[simp] theorem modGen_therm (b g : Nat) (f : Gen → Gen) (s : State) : (modGen b g f s).therm = s.therm := rfl
@[simp] theorem modGen_cap (b g : Nat) (f : Gen → Gen) (s : State) : (modGen b g f s).cap = s.cap := rfl
@[simp] theorem modGen_wire (b g : Nat) (f : Gen → Gen) (s : State) : (modGen b g f s).wire = s.wire := rfl
@[simp] theorem modGen_memc (b g : Nat) (f : Gen → Gen) (s : State) : (modGen b g f s).memc = s.memc := rfl
@[simp] theorem modGen_fab (b g : Nat) (f : Gen → Gen) (s : State) : (modGen b g f s).fab = s.fab := rfl
@[simp] theorem modPort_pending (d p : Nat) (f : PortSt → PortSt) (s : State) : (modPort d p f s).pending = s.pending := rfl
@[simp] theorem modPort_regs (d p : Nat) (f : PortSt → PortSt) (s : State) : (modPort d p f s).regs = s.regs := rfl
@[simp] theorem modPort_od (d p : Nat) (f : PortSt → PortSt) (s : State) : (modPort d p f s).od = s.od := rfl
@[simp] theorem modPort_mem (d p : Nat) (f : PortSt → PortSt) (s : State) : (modPort d p f s).mem = s.mem := rfl
@[simp] theorem modPort_fresh (d p : Nat) (f : PortSt → PortSt) (s : State) : (modPort d p f s).fresh = s.fresh := rfl
@[simp] theorem modPort_sys (d p : Nat) (f : PortSt → PortSt) (s : State) : (modPort d p f s).sys = s.sys := rfl
@[simp] theorem modPort_faults (d p : Nat) (f : PortSt → PortSt) (s : State) : (modPort d p f s).faults = s.faults := rfl
@[simp] theorem modPort_power (d p : Nat) (f : PortSt → PortSt) (s : State) : (modPort d p f s).power = s.power := rfl
@[simp] theorem modPort_flash (d p : Nat) (f : PortSt → PortSt) (s : State) : (modPort d p f s).flash = s.flash := rfl
@[simp] theorem modPort_mgmt (d p : Nat) (f : PortSt → PortSt) (s : State) : (modPort d p f s).mgmt = s.mgmt := rfl
@[simp] theorem modPort_tenants (d p : Nat) (f : PortSt → PortSt) (s : State) : (modPort d p f s).tenants = s.tenants := rfl
@[simp] theorem modPort_hif (d p : Nat) (f : PortSt → PortSt) (s : State) : (modPort d p f s).hif = s.hif := rfl
@[simp] theorem modPort_serve (d p : Nat) (f : PortSt → PortSt) (s : State) : (modPort d p f s).serve = s.serve := rfl
@[simp] theorem modPort_dies (d p : Nat) (f : PortSt → PortSt) (s : State) : (modPort d p f s).dies = s.dies := rfl
@[simp] theorem modPort_cores (d p : Nat) (f : PortSt → PortSt) (s : State) : (modPort d p f s).cores = s.cores := rfl
@[simp] theorem modPort_loom (d p : Nat) (f : PortSt → PortSt) (s : State) : (modPort d p f s).loom = s.loom := rfl
@[simp] theorem modPort_probes (d p : Nat) (f : PortSt → PortSt) (s : State) : (modPort d p f s).probes = s.probes := rfl
@[simp] theorem modPort_models (d p : Nat) (f : PortSt → PortSt) (s : State) : (modPort d p f s).models = s.models := rfl
@[simp] theorem modPort_care (d p : Nat) (f : PortSt → PortSt) (s : State) : (modPort d p f s).care = s.care := rfl
@[simp] theorem modPort_therm (d p : Nat) (f : PortSt → PortSt) (s : State) : (modPort d p f s).therm = s.therm := rfl
@[simp] theorem modPort_cap (d p : Nat) (f : PortSt → PortSt) (s : State) : (modPort d p f s).cap = s.cap := rfl
@[simp] theorem modPort_wire (d p : Nat) (f : PortSt → PortSt) (s : State) : (modPort d p f s).wire = s.wire := rfl
@[simp] theorem modPort_memc (d p : Nat) (f : PortSt → PortSt) (s : State) : (modPort d p f s).memc = s.memc := rfl
@[simp] theorem modLane_pending (d c lane : Nat) (f : LaneSt → LaneSt) (s : State) : (modLane d c lane f s).pending = s.pending := rfl
@[simp] theorem modLane_regs (d c lane : Nat) (f : LaneSt → LaneSt) (s : State) : (modLane d c lane f s).regs = s.regs := rfl
@[simp] theorem modLane_od (d c lane : Nat) (f : LaneSt → LaneSt) (s : State) : (modLane d c lane f s).od = s.od := rfl
@[simp] theorem modLane_mem (d c lane : Nat) (f : LaneSt → LaneSt) (s : State) : (modLane d c lane f s).mem = s.mem := rfl
@[simp] theorem modLane_fresh (d c lane : Nat) (f : LaneSt → LaneSt) (s : State) : (modLane d c lane f s).fresh = s.fresh := rfl
@[simp] theorem modLane_sys (d c lane : Nat) (f : LaneSt → LaneSt) (s : State) : (modLane d c lane f s).sys = s.sys := rfl
@[simp] theorem modLane_faults (d c lane : Nat) (f : LaneSt → LaneSt) (s : State) : (modLane d c lane f s).faults = s.faults := rfl
@[simp] theorem modLane_power (d c lane : Nat) (f : LaneSt → LaneSt) (s : State) : (modLane d c lane f s).power = s.power := rfl
@[simp] theorem modLane_flash (d c lane : Nat) (f : LaneSt → LaneSt) (s : State) : (modLane d c lane f s).flash = s.flash := rfl
@[simp] theorem modLane_mgmt (d c lane : Nat) (f : LaneSt → LaneSt) (s : State) : (modLane d c lane f s).mgmt = s.mgmt := rfl
@[simp] theorem modLane_tenants (d c lane : Nat) (f : LaneSt → LaneSt) (s : State) : (modLane d c lane f s).tenants = s.tenants := rfl
@[simp] theorem modLane_hif (d c lane : Nat) (f : LaneSt → LaneSt) (s : State) : (modLane d c lane f s).hif = s.hif := rfl
@[simp] theorem modLane_serve (d c lane : Nat) (f : LaneSt → LaneSt) (s : State) : (modLane d c lane f s).serve = s.serve := rfl
@[simp] theorem modLane_dies (d c lane : Nat) (f : LaneSt → LaneSt) (s : State) : (modLane d c lane f s).dies = s.dies := rfl
@[simp] theorem modLane_cores (d c lane : Nat) (f : LaneSt → LaneSt) (s : State) : (modLane d c lane f s).cores = s.cores := rfl
@[simp] theorem modLane_probes (d c lane : Nat) (f : LaneSt → LaneSt) (s : State) : (modLane d c lane f s).probes = s.probes := rfl
@[simp] theorem modLane_models (d c lane : Nat) (f : LaneSt → LaneSt) (s : State) : (modLane d c lane f s).models = s.models := rfl
@[simp] theorem modLane_care (d c lane : Nat) (f : LaneSt → LaneSt) (s : State) : (modLane d c lane f s).care = s.care := rfl
@[simp] theorem modLane_therm (d c lane : Nat) (f : LaneSt → LaneSt) (s : State) : (modLane d c lane f s).therm = s.therm := rfl
@[simp] theorem modLane_cap (d c lane : Nat) (f : LaneSt → LaneSt) (s : State) : (modLane d c lane f s).cap = s.cap := rfl
@[simp] theorem modLane_wire (d c lane : Nat) (f : LaneSt → LaneSt) (s : State) : (modLane d c lane f s).wire = s.wire := rfl
@[simp] theorem modLane_memc (d c lane : Nat) (f : LaneSt → LaneSt) (s : State) : (modLane d c lane f s).memc = s.memc := rfl
@[simp] theorem modLane_fab (d c lane : Nat) (f : LaneSt → LaneSt) (s : State) : (modLane d c lane f s).fab = s.fab := rfl
@[simp] theorem modAdc_pending (d c lane n : Nat) (f : Adc → Adc) (s : State) : (modAdc d c lane n f s).pending = s.pending := rfl
@[simp] theorem modAdc_regs (d c lane n : Nat) (f : Adc → Adc) (s : State) : (modAdc d c lane n f s).regs = s.regs := rfl
@[simp] theorem modAdc_od (d c lane n : Nat) (f : Adc → Adc) (s : State) : (modAdc d c lane n f s).od = s.od := rfl
@[simp] theorem modAdc_mem (d c lane n : Nat) (f : Adc → Adc) (s : State) : (modAdc d c lane n f s).mem = s.mem := rfl
@[simp] theorem modAdc_fresh (d c lane n : Nat) (f : Adc → Adc) (s : State) : (modAdc d c lane n f s).fresh = s.fresh := rfl
@[simp] theorem modAdc_sys (d c lane n : Nat) (f : Adc → Adc) (s : State) : (modAdc d c lane n f s).sys = s.sys := rfl
@[simp] theorem modAdc_faults (d c lane n : Nat) (f : Adc → Adc) (s : State) : (modAdc d c lane n f s).faults = s.faults := rfl
@[simp] theorem modAdc_power (d c lane n : Nat) (f : Adc → Adc) (s : State) : (modAdc d c lane n f s).power = s.power := rfl
@[simp] theorem modAdc_flash (d c lane n : Nat) (f : Adc → Adc) (s : State) : (modAdc d c lane n f s).flash = s.flash := rfl
@[simp] theorem modAdc_mgmt (d c lane n : Nat) (f : Adc → Adc) (s : State) : (modAdc d c lane n f s).mgmt = s.mgmt := rfl
@[simp] theorem modAdc_tenants (d c lane n : Nat) (f : Adc → Adc) (s : State) : (modAdc d c lane n f s).tenants = s.tenants := rfl
@[simp] theorem modAdc_hif (d c lane n : Nat) (f : Adc → Adc) (s : State) : (modAdc d c lane n f s).hif = s.hif := rfl
@[simp] theorem modAdc_serve (d c lane n : Nat) (f : Adc → Adc) (s : State) : (modAdc d c lane n f s).serve = s.serve := rfl
@[simp] theorem modAdc_dies (d c lane n : Nat) (f : Adc → Adc) (s : State) : (modAdc d c lane n f s).dies = s.dies := rfl
@[simp] theorem modAdc_cores (d c lane n : Nat) (f : Adc → Adc) (s : State) : (modAdc d c lane n f s).cores = s.cores := rfl
@[simp] theorem modAdc_probes (d c lane n : Nat) (f : Adc → Adc) (s : State) : (modAdc d c lane n f s).probes = s.probes := rfl
@[simp] theorem modAdc_models (d c lane n : Nat) (f : Adc → Adc) (s : State) : (modAdc d c lane n f s).models = s.models := rfl
@[simp] theorem modAdc_care (d c lane n : Nat) (f : Adc → Adc) (s : State) : (modAdc d c lane n f s).care = s.care := rfl
@[simp] theorem modAdc_therm (d c lane n : Nat) (f : Adc → Adc) (s : State) : (modAdc d c lane n f s).therm = s.therm := rfl
@[simp] theorem modAdc_cap (d c lane n : Nat) (f : Adc → Adc) (s : State) : (modAdc d c lane n f s).cap = s.cap := rfl
@[simp] theorem modAdc_wire (d c lane n : Nat) (f : Adc → Adc) (s : State) : (modAdc d c lane n f s).wire = s.wire := rfl
@[simp] theorem modAdc_memc (d c lane n : Nat) (f : Adc → Adc) (s : State) : (modAdc d c lane n f s).memc = s.memc := rfl
@[simp] theorem modAdc_fab (d c lane n : Nat) (f : Adc → Adc) (s : State) : (modAdc d c lane n f s).fab = s.fab := rfl
@[simp] theorem setObj_pending (h : Nat) (o : Option Obj) (s : State) : (setObj h o s).pending = s.pending := rfl
@[simp] theorem setObj_regs (h : Nat) (o : Option Obj) (s : State) : (setObj h o s).regs = s.regs := rfl
@[simp] theorem setObj_od (h : Nat) (o : Option Obj) (s : State) : (setObj h o s).od = s.od := rfl
@[simp] theorem setObj_mem (h : Nat) (o : Option Obj) (s : State) : (setObj h o s).mem = s.mem := rfl
@[simp] theorem setObj_fresh (h : Nat) (o : Option Obj) (s : State) : (setObj h o s).fresh = s.fresh := rfl
@[simp] theorem setObj_sys (h : Nat) (o : Option Obj) (s : State) : (setObj h o s).sys = s.sys := rfl
@[simp] theorem setObj_faults (h : Nat) (o : Option Obj) (s : State) : (setObj h o s).faults = s.faults := rfl
@[simp] theorem setObj_power (h : Nat) (o : Option Obj) (s : State) : (setObj h o s).power = s.power := rfl
@[simp] theorem setObj_flash (h : Nat) (o : Option Obj) (s : State) : (setObj h o s).flash = s.flash := rfl
@[simp] theorem setObj_mgmt (h : Nat) (o : Option Obj) (s : State) : (setObj h o s).mgmt = s.mgmt := rfl
@[simp] theorem setObj_tenants (h : Nat) (o : Option Obj) (s : State) : (setObj h o s).tenants = s.tenants := rfl
@[simp] theorem setObj_hif (h : Nat) (o : Option Obj) (s : State) : (setObj h o s).hif = s.hif := rfl
@[simp] theorem setObj_serve (h : Nat) (o : Option Obj) (s : State) : (setObj h o s).serve = s.serve := rfl
@[simp] theorem setObj_dies (h : Nat) (o : Option Obj) (s : State) : (setObj h o s).dies = s.dies := rfl
@[simp] theorem setObj_cores (h : Nat) (o : Option Obj) (s : State) : (setObj h o s).cores = s.cores := rfl
@[simp] theorem setObj_loom (h : Nat) (o : Option Obj) (s : State) : (setObj h o s).loom = s.loom := rfl
@[simp] theorem setObj_probes (h : Nat) (o : Option Obj) (s : State) : (setObj h o s).probes = s.probes := rfl
@[simp] theorem setObj_care (h : Nat) (o : Option Obj) (s : State) : (setObj h o s).care = s.care := rfl
@[simp] theorem setObj_therm (h : Nat) (o : Option Obj) (s : State) : (setObj h o s).therm = s.therm := rfl
@[simp] theorem setObj_cap (h : Nat) (o : Option Obj) (s : State) : (setObj h o s).cap = s.cap := rfl
@[simp] theorem setObj_wire (h : Nat) (o : Option Obj) (s : State) : (setObj h o s).wire = s.wire := rfl
@[simp] theorem setObj_memc (h : Nat) (o : Option Obj) (s : State) : (setObj h o s).memc = s.memc := rfl
@[simp] theorem setObj_fab (h : Nat) (o : Option Obj) (s : State) : (setObj h o s).fab = s.fab := rfl
@[simp] theorem modMemc_pending (d st : Nat) (f : Memc → Memc) (s : State) : (modMemc d st f s).pending = s.pending := rfl
@[simp] theorem modMemc_regs (d st : Nat) (f : Memc → Memc) (s : State) : (modMemc d st f s).regs = s.regs := rfl
@[simp] theorem modMemc_od (d st : Nat) (f : Memc → Memc) (s : State) : (modMemc d st f s).od = s.od := rfl
@[simp] theorem modMemc_mem (d st : Nat) (f : Memc → Memc) (s : State) : (modMemc d st f s).mem = s.mem := rfl
@[simp] theorem modMemc_fresh (d st : Nat) (f : Memc → Memc) (s : State) : (modMemc d st f s).fresh = s.fresh := rfl
@[simp] theorem modMemc_sys (d st : Nat) (f : Memc → Memc) (s : State) : (modMemc d st f s).sys = s.sys := rfl
@[simp] theorem modMemc_faults (d st : Nat) (f : Memc → Memc) (s : State) : (modMemc d st f s).faults = s.faults := rfl
@[simp] theorem modMemc_power (d st : Nat) (f : Memc → Memc) (s : State) : (modMemc d st f s).power = s.power := rfl
@[simp] theorem modMemc_flash (d st : Nat) (f : Memc → Memc) (s : State) : (modMemc d st f s).flash = s.flash := rfl
@[simp] theorem modMemc_mgmt (d st : Nat) (f : Memc → Memc) (s : State) : (modMemc d st f s).mgmt = s.mgmt := rfl
@[simp] theorem modMemc_tenants (d st : Nat) (f : Memc → Memc) (s : State) : (modMemc d st f s).tenants = s.tenants := rfl
@[simp] theorem modMemc_hif (d st : Nat) (f : Memc → Memc) (s : State) : (modMemc d st f s).hif = s.hif := rfl
@[simp] theorem modMemc_serve (d st : Nat) (f : Memc → Memc) (s : State) : (modMemc d st f s).serve = s.serve := rfl
@[simp] theorem modMemc_dies (d st : Nat) (f : Memc → Memc) (s : State) : (modMemc d st f s).dies = s.dies := rfl
@[simp] theorem modMemc_cores (d st : Nat) (f : Memc → Memc) (s : State) : (modMemc d st f s).cores = s.cores := rfl
@[simp] theorem modMemc_loom (d st : Nat) (f : Memc → Memc) (s : State) : (modMemc d st f s).loom = s.loom := rfl
@[simp] theorem modMemc_probes (d st : Nat) (f : Memc → Memc) (s : State) : (modMemc d st f s).probes = s.probes := rfl
@[simp] theorem modMemc_models (d st : Nat) (f : Memc → Memc) (s : State) : (modMemc d st f s).models = s.models := rfl
@[simp] theorem modMemc_care (d st : Nat) (f : Memc → Memc) (s : State) : (modMemc d st f s).care = s.care := rfl
@[simp] theorem modMemc_therm (d st : Nat) (f : Memc → Memc) (s : State) : (modMemc d st f s).therm = s.therm := rfl
@[simp] theorem modMemc_cap (d st : Nat) (f : Memc → Memc) (s : State) : (modMemc d st f s).cap = s.cap := rfl
@[simp] theorem modMemc_wire (d st : Nat) (f : Memc → Memc) (s : State) : (modMemc d st f s).wire = s.wire := rfl
@[simp] theorem modMemc_fab (d st : Nat) (f : Memc → Memc) (s : State) : (modMemc d st f s).fab = s.fab := rfl
@[simp] theorem modSession_pending (id : Nat) (f : Session → Session) (s : State) : (modSession id f s).pending = s.pending := rfl
@[simp] theorem modSession_regs (id : Nat) (f : Session → Session) (s : State) : (modSession id f s).regs = s.regs := rfl
@[simp] theorem modSession_od (id : Nat) (f : Session → Session) (s : State) : (modSession id f s).od = s.od := rfl
@[simp] theorem modSession_mem (id : Nat) (f : Session → Session) (s : State) : (modSession id f s).mem = s.mem := rfl
@[simp] theorem modSession_fresh (id : Nat) (f : Session → Session) (s : State) : (modSession id f s).fresh = s.fresh := rfl
@[simp] theorem modSession_sys (id : Nat) (f : Session → Session) (s : State) : (modSession id f s).sys = s.sys := rfl
@[simp] theorem modSession_faults (id : Nat) (f : Session → Session) (s : State) : (modSession id f s).faults = s.faults := rfl
@[simp] theorem modSession_power (id : Nat) (f : Session → Session) (s : State) : (modSession id f s).power = s.power := rfl
@[simp] theorem modSession_flash (id : Nat) (f : Session → Session) (s : State) : (modSession id f s).flash = s.flash := rfl
@[simp] theorem modSession_tenants (id : Nat) (f : Session → Session) (s : State) : (modSession id f s).tenants = s.tenants := rfl
@[simp] theorem modSession_hif (id : Nat) (f : Session → Session) (s : State) : (modSession id f s).hif = s.hif := rfl
@[simp] theorem modSession_serve (id : Nat) (f : Session → Session) (s : State) : (modSession id f s).serve = s.serve := rfl
@[simp] theorem modSession_dies (id : Nat) (f : Session → Session) (s : State) : (modSession id f s).dies = s.dies := rfl
@[simp] theorem modSession_cores (id : Nat) (f : Session → Session) (s : State) : (modSession id f s).cores = s.cores := rfl
@[simp] theorem modSession_loom (id : Nat) (f : Session → Session) (s : State) : (modSession id f s).loom = s.loom := rfl
@[simp] theorem modSession_probes (id : Nat) (f : Session → Session) (s : State) : (modSession id f s).probes = s.probes := rfl
@[simp] theorem modSession_models (id : Nat) (f : Session → Session) (s : State) : (modSession id f s).models = s.models := rfl
@[simp] theorem modSession_care (id : Nat) (f : Session → Session) (s : State) : (modSession id f s).care = s.care := rfl
@[simp] theorem modSession_therm (id : Nat) (f : Session → Session) (s : State) : (modSession id f s).therm = s.therm := rfl
@[simp] theorem modSession_cap (id : Nat) (f : Session → Session) (s : State) : (modSession id f s).cap = s.cap := rfl
@[simp] theorem modSession_wire (id : Nat) (f : Session → Session) (s : State) : (modSession id f s).wire = s.wire := rfl
@[simp] theorem modSession_memc (id : Nat) (f : Session → Session) (s : State) : (modSession id f s).memc = s.memc := rfl
@[simp] theorem modSession_fab (id : Nat) (f : Session → Session) (s : State) : (modSession id f s).fab = s.fab := rfl
@[simp] theorem modSlot_pending (k : Nat) (f : ImgSlot → ImgSlot) (s : State) : (modSlot k f s).pending = s.pending := rfl
@[simp] theorem modSlot_regs (k : Nat) (f : ImgSlot → ImgSlot) (s : State) : (modSlot k f s).regs = s.regs := rfl
@[simp] theorem modSlot_od (k : Nat) (f : ImgSlot → ImgSlot) (s : State) : (modSlot k f s).od = s.od := rfl
@[simp] theorem modSlot_mem (k : Nat) (f : ImgSlot → ImgSlot) (s : State) : (modSlot k f s).mem = s.mem := rfl
@[simp] theorem modSlot_fresh (k : Nat) (f : ImgSlot → ImgSlot) (s : State) : (modSlot k f s).fresh = s.fresh := rfl
@[simp] theorem modSlot_sys (k : Nat) (f : ImgSlot → ImgSlot) (s : State) : (modSlot k f s).sys = s.sys := rfl
@[simp] theorem modSlot_faults (k : Nat) (f : ImgSlot → ImgSlot) (s : State) : (modSlot k f s).faults = s.faults := rfl
@[simp] theorem modSlot_power (k : Nat) (f : ImgSlot → ImgSlot) (s : State) : (modSlot k f s).power = s.power := rfl
@[simp] theorem modSlot_mgmt (k : Nat) (f : ImgSlot → ImgSlot) (s : State) : (modSlot k f s).mgmt = s.mgmt := rfl
@[simp] theorem modSlot_tenants (k : Nat) (f : ImgSlot → ImgSlot) (s : State) : (modSlot k f s).tenants = s.tenants := rfl
@[simp] theorem modSlot_hif (k : Nat) (f : ImgSlot → ImgSlot) (s : State) : (modSlot k f s).hif = s.hif := rfl
@[simp] theorem modSlot_serve (k : Nat) (f : ImgSlot → ImgSlot) (s : State) : (modSlot k f s).serve = s.serve := rfl
@[simp] theorem modSlot_dies (k : Nat) (f : ImgSlot → ImgSlot) (s : State) : (modSlot k f s).dies = s.dies := rfl
@[simp] theorem modSlot_cores (k : Nat) (f : ImgSlot → ImgSlot) (s : State) : (modSlot k f s).cores = s.cores := rfl
@[simp] theorem modSlot_loom (k : Nat) (f : ImgSlot → ImgSlot) (s : State) : (modSlot k f s).loom = s.loom := rfl
@[simp] theorem modSlot_probes (k : Nat) (f : ImgSlot → ImgSlot) (s : State) : (modSlot k f s).probes = s.probes := rfl
@[simp] theorem modSlot_models (k : Nat) (f : ImgSlot → ImgSlot) (s : State) : (modSlot k f s).models = s.models := rfl
@[simp] theorem modSlot_care (k : Nat) (f : ImgSlot → ImgSlot) (s : State) : (modSlot k f s).care = s.care := rfl
@[simp] theorem modSlot_therm (k : Nat) (f : ImgSlot → ImgSlot) (s : State) : (modSlot k f s).therm = s.therm := rfl
@[simp] theorem modSlot_cap (k : Nat) (f : ImgSlot → ImgSlot) (s : State) : (modSlot k f s).cap = s.cap := rfl
@[simp] theorem modSlot_wire (k : Nat) (f : ImgSlot → ImgSlot) (s : State) : (modSlot k f s).wire = s.wire := rfl
@[simp] theorem modSlot_memc (k : Nat) (f : ImgSlot → ImgSlot) (s : State) : (modSlot k f s).memc = s.memc := rfl
@[simp] theorem modSlot_fab (k : Nat) (f : ImgSlot → ImgSlot) (s : State) : (modSlot k f s).fab = s.fab := rfl
@[simp] theorem modCare_pending (d c : Nat) (f : CareCore → CareCore) (s : State) : (modCare d c f s).pending = s.pending := rfl
@[simp] theorem modCare_regs (d c : Nat) (f : CareCore → CareCore) (s : State) : (modCare d c f s).regs = s.regs := rfl
@[simp] theorem modCare_od (d c : Nat) (f : CareCore → CareCore) (s : State) : (modCare d c f s).od = s.od := rfl
@[simp] theorem modCare_mem (d c : Nat) (f : CareCore → CareCore) (s : State) : (modCare d c f s).mem = s.mem := rfl
@[simp] theorem modCare_fresh (d c : Nat) (f : CareCore → CareCore) (s : State) : (modCare d c f s).fresh = s.fresh := rfl
@[simp] theorem modCare_sys (d c : Nat) (f : CareCore → CareCore) (s : State) : (modCare d c f s).sys = s.sys := rfl
@[simp] theorem modCare_faults (d c : Nat) (f : CareCore → CareCore) (s : State) : (modCare d c f s).faults = s.faults := rfl
@[simp] theorem modCare_power (d c : Nat) (f : CareCore → CareCore) (s : State) : (modCare d c f s).power = s.power := rfl
@[simp] theorem modCare_flash (d c : Nat) (f : CareCore → CareCore) (s : State) : (modCare d c f s).flash = s.flash := rfl
@[simp] theorem modCare_mgmt (d c : Nat) (f : CareCore → CareCore) (s : State) : (modCare d c f s).mgmt = s.mgmt := rfl
@[simp] theorem modCare_tenants (d c : Nat) (f : CareCore → CareCore) (s : State) : (modCare d c f s).tenants = s.tenants := rfl
@[simp] theorem modCare_hif (d c : Nat) (f : CareCore → CareCore) (s : State) : (modCare d c f s).hif = s.hif := rfl
@[simp] theorem modCare_serve (d c : Nat) (f : CareCore → CareCore) (s : State) : (modCare d c f s).serve = s.serve := rfl
@[simp] theorem modCare_dies (d c : Nat) (f : CareCore → CareCore) (s : State) : (modCare d c f s).dies = s.dies := rfl
@[simp] theorem modCare_cores (d c : Nat) (f : CareCore → CareCore) (s : State) : (modCare d c f s).cores = s.cores := rfl
@[simp] theorem modCare_loom (d c : Nat) (f : CareCore → CareCore) (s : State) : (modCare d c f s).loom = s.loom := rfl
@[simp] theorem modCare_probes (d c : Nat) (f : CareCore → CareCore) (s : State) : (modCare d c f s).probes = s.probes := rfl
@[simp] theorem modCare_models (d c : Nat) (f : CareCore → CareCore) (s : State) : (modCare d c f s).models = s.models := rfl
@[simp] theorem modCare_therm (d c : Nat) (f : CareCore → CareCore) (s : State) : (modCare d c f s).therm = s.therm := rfl
@[simp] theorem modCare_cap (d c : Nat) (f : CareCore → CareCore) (s : State) : (modCare d c f s).cap = s.cap := rfl
@[simp] theorem modCare_wire (d c : Nat) (f : CareCore → CareCore) (s : State) : (modCare d c f s).wire = s.wire := rfl
@[simp] theorem modCare_memc (d c : Nat) (f : CareCore → CareCore) (s : State) : (modCare d c f s).memc = s.memc := rfl
@[simp] theorem modCare_fab (d c : Nat) (f : CareCore → CareCore) (s : State) : (modCare d c f s).fab = s.fab := rfl
@[simp] theorem setRings_pending (s : State) (q : Nat) (r : Option Rings) : (setRings s q r).pending = s.pending := rfl
@[simp] theorem setRings_regs (s : State) (q : Nat) (r : Option Rings) : (setRings s q r).regs = s.regs := rfl
@[simp] theorem setRings_od (s : State) (q : Nat) (r : Option Rings) : (setRings s q r).od = s.od := rfl
@[simp] theorem setRings_mem (s : State) (q : Nat) (r : Option Rings) : (setRings s q r).mem = s.mem := rfl
@[simp] theorem setRings_fresh (s : State) (q : Nat) (r : Option Rings) : (setRings s q r).fresh = s.fresh := rfl
@[simp] theorem setRings_sys (s : State) (q : Nat) (r : Option Rings) : (setRings s q r).sys = s.sys := rfl
@[simp] theorem setRings_faults (s : State) (q : Nat) (r : Option Rings) : (setRings s q r).faults = s.faults := rfl
@[simp] theorem setRings_power (s : State) (q : Nat) (r : Option Rings) : (setRings s q r).power = s.power := rfl
@[simp] theorem setRings_flash (s : State) (q : Nat) (r : Option Rings) : (setRings s q r).flash = s.flash := rfl
@[simp] theorem setRings_mgmt (s : State) (q : Nat) (r : Option Rings) : (setRings s q r).mgmt = s.mgmt := rfl
@[simp] theorem setRings_tenants (s : State) (q : Nat) (r : Option Rings) : (setRings s q r).tenants = s.tenants := rfl
@[simp] theorem setRings_serve (s : State) (q : Nat) (r : Option Rings) : (setRings s q r).serve = s.serve := rfl
@[simp] theorem setRings_dies (s : State) (q : Nat) (r : Option Rings) : (setRings s q r).dies = s.dies := rfl
@[simp] theorem setRings_cores (s : State) (q : Nat) (r : Option Rings) : (setRings s q r).cores = s.cores := rfl
@[simp] theorem setRings_loom (s : State) (q : Nat) (r : Option Rings) : (setRings s q r).loom = s.loom := rfl
@[simp] theorem setRings_probes (s : State) (q : Nat) (r : Option Rings) : (setRings s q r).probes = s.probes := rfl
@[simp] theorem setRings_models (s : State) (q : Nat) (r : Option Rings) : (setRings s q r).models = s.models := rfl
@[simp] theorem setRings_care (s : State) (q : Nat) (r : Option Rings) : (setRings s q r).care = s.care := rfl
@[simp] theorem setRings_therm (s : State) (q : Nat) (r : Option Rings) : (setRings s q r).therm = s.therm := rfl
@[simp] theorem setRings_cap (s : State) (q : Nat) (r : Option Rings) : (setRings s q r).cap = s.cap := rfl
@[simp] theorem setRings_wire (s : State) (q : Nat) (r : Option Rings) : (setRings s q r).wire = s.wire := rfl
@[simp] theorem setRings_memc (s : State) (q : Nat) (r : Option Rings) : (setRings s q r).memc = s.memc := rfl
@[simp] theorem setRings_fab (s : State) (q : Nat) (r : Option Rings) : (setRings s q r).fab = s.fab := rfl
@[simp] theorem setAdmin_pending (s : State) (a : Nat) (x : AdminQ) : (setAdmin s a x).pending = s.pending := rfl
@[simp] theorem setAdmin_regs (s : State) (a : Nat) (x : AdminQ) : (setAdmin s a x).regs = s.regs := rfl
@[simp] theorem setAdmin_od (s : State) (a : Nat) (x : AdminQ) : (setAdmin s a x).od = s.od := rfl
@[simp] theorem setAdmin_mem (s : State) (a : Nat) (x : AdminQ) : (setAdmin s a x).mem = s.mem := rfl
@[simp] theorem setAdmin_fresh (s : State) (a : Nat) (x : AdminQ) : (setAdmin s a x).fresh = s.fresh := rfl
@[simp] theorem setAdmin_sys (s : State) (a : Nat) (x : AdminQ) : (setAdmin s a x).sys = s.sys := rfl
@[simp] theorem setAdmin_faults (s : State) (a : Nat) (x : AdminQ) : (setAdmin s a x).faults = s.faults := rfl
@[simp] theorem setAdmin_power (s : State) (a : Nat) (x : AdminQ) : (setAdmin s a x).power = s.power := rfl
@[simp] theorem setAdmin_flash (s : State) (a : Nat) (x : AdminQ) : (setAdmin s a x).flash = s.flash := rfl
@[simp] theorem setAdmin_mgmt (s : State) (a : Nat) (x : AdminQ) : (setAdmin s a x).mgmt = s.mgmt := rfl
@[simp] theorem setAdmin_tenants (s : State) (a : Nat) (x : AdminQ) : (setAdmin s a x).tenants = s.tenants := rfl
@[simp] theorem setAdmin_serve (s : State) (a : Nat) (x : AdminQ) : (setAdmin s a x).serve = s.serve := rfl
@[simp] theorem setAdmin_dies (s : State) (a : Nat) (x : AdminQ) : (setAdmin s a x).dies = s.dies := rfl
@[simp] theorem setAdmin_cores (s : State) (a : Nat) (x : AdminQ) : (setAdmin s a x).cores = s.cores := rfl
@[simp] theorem setAdmin_loom (s : State) (a : Nat) (x : AdminQ) : (setAdmin s a x).loom = s.loom := rfl
@[simp] theorem setAdmin_probes (s : State) (a : Nat) (x : AdminQ) : (setAdmin s a x).probes = s.probes := rfl
@[simp] theorem setAdmin_models (s : State) (a : Nat) (x : AdminQ) : (setAdmin s a x).models = s.models := rfl
@[simp] theorem setAdmin_care (s : State) (a : Nat) (x : AdminQ) : (setAdmin s a x).care = s.care := rfl
@[simp] theorem setAdmin_therm (s : State) (a : Nat) (x : AdminQ) : (setAdmin s a x).therm = s.therm := rfl
@[simp] theorem setAdmin_cap (s : State) (a : Nat) (x : AdminQ) : (setAdmin s a x).cap = s.cap := rfl
@[simp] theorem setAdmin_wire (s : State) (a : Nat) (x : AdminQ) : (setAdmin s a x).wire = s.wire := rfl
@[simp] theorem setAdmin_memc (s : State) (a : Nat) (x : AdminQ) : (setAdmin s a x).memc = s.memc := rfl
@[simp] theorem setAdmin_fab (s : State) (a : Nat) (x : AdminQ) : (setAdmin s a x).fab = s.fab := rfl
@[simp] theorem modTask_pending (d c t : Nat) (f : Task → Task) (s : State) : (modTask d c t f s).pending = s.pending := rfl
@[simp] theorem modTask_regs (d c t : Nat) (f : Task → Task) (s : State) : (modTask d c t f s).regs = s.regs := rfl
@[simp] theorem modTask_od (d c t : Nat) (f : Task → Task) (s : State) : (modTask d c t f s).od = s.od := rfl
@[simp] theorem modTask_mem (d c t : Nat) (f : Task → Task) (s : State) : (modTask d c t f s).mem = s.mem := rfl
@[simp] theorem modTask_fresh (d c t : Nat) (f : Task → Task) (s : State) : (modTask d c t f s).fresh = s.fresh := rfl
@[simp] theorem modTask_sys (d c t : Nat) (f : Task → Task) (s : State) : (modTask d c t f s).sys = s.sys := rfl
@[simp] theorem modTask_faults (d c t : Nat) (f : Task → Task) (s : State) : (modTask d c t f s).faults = s.faults := rfl
@[simp] theorem modTask_power (d c t : Nat) (f : Task → Task) (s : State) : (modTask d c t f s).power = s.power := rfl
@[simp] theorem modTask_flash (d c t : Nat) (f : Task → Task) (s : State) : (modTask d c t f s).flash = s.flash := rfl
@[simp] theorem modTask_mgmt (d c t : Nat) (f : Task → Task) (s : State) : (modTask d c t f s).mgmt = s.mgmt := rfl
@[simp] theorem modTask_tenants (d c t : Nat) (f : Task → Task) (s : State) : (modTask d c t f s).tenants = s.tenants := rfl
@[simp] theorem modTask_hif (d c t : Nat) (f : Task → Task) (s : State) : (modTask d c t f s).hif = s.hif := rfl
@[simp] theorem modTask_serve (d c t : Nat) (f : Task → Task) (s : State) : (modTask d c t f s).serve = s.serve := rfl
@[simp] theorem modTask_dies (d c t : Nat) (f : Task → Task) (s : State) : (modTask d c t f s).dies = s.dies := rfl
@[simp] theorem modTask_loom (d c t : Nat) (f : Task → Task) (s : State) : (modTask d c t f s).loom = s.loom := rfl
@[simp] theorem modTask_probes (d c t : Nat) (f : Task → Task) (s : State) : (modTask d c t f s).probes = s.probes := rfl
@[simp] theorem modTask_models (d c t : Nat) (f : Task → Task) (s : State) : (modTask d c t f s).models = s.models := rfl
@[simp] theorem modTask_care (d c t : Nat) (f : Task → Task) (s : State) : (modTask d c t f s).care = s.care := rfl
@[simp] theorem modTask_therm (d c t : Nat) (f : Task → Task) (s : State) : (modTask d c t f s).therm = s.therm := rfl
@[simp] theorem modTask_cap (d c t : Nat) (f : Task → Task) (s : State) : (modTask d c t f s).cap = s.cap := rfl
@[simp] theorem modTask_wire (d c t : Nat) (f : Task → Task) (s : State) : (modTask d c t f s).wire = s.wire := rfl
@[simp] theorem modTask_memc (d c t : Nat) (f : Task → Task) (s : State) : (modTask d c t f s).memc = s.memc := rfl
@[simp] theorem modTask_fab (d c t : Nat) (f : Task → Task) (s : State) : (modTask d c t f s).fab = s.fab := rfl
@[simp] theorem modDslot_pending (d c t n : Nat) (f : DSlot → DSlot) (s : State) : (modDslot d c t n f s).pending = s.pending := rfl
@[simp] theorem modDslot_regs (d c t n : Nat) (f : DSlot → DSlot) (s : State) : (modDslot d c t n f s).regs = s.regs := rfl
@[simp] theorem modDslot_od (d c t n : Nat) (f : DSlot → DSlot) (s : State) : (modDslot d c t n f s).od = s.od := rfl
@[simp] theorem modDslot_mem (d c t n : Nat) (f : DSlot → DSlot) (s : State) : (modDslot d c t n f s).mem = s.mem := rfl
@[simp] theorem modDslot_fresh (d c t n : Nat) (f : DSlot → DSlot) (s : State) : (modDslot d c t n f s).fresh = s.fresh := rfl
@[simp] theorem modDslot_sys (d c t n : Nat) (f : DSlot → DSlot) (s : State) : (modDslot d c t n f s).sys = s.sys := rfl
@[simp] theorem modDslot_faults (d c t n : Nat) (f : DSlot → DSlot) (s : State) : (modDslot d c t n f s).faults = s.faults := rfl
@[simp] theorem modDslot_power (d c t n : Nat) (f : DSlot → DSlot) (s : State) : (modDslot d c t n f s).power = s.power := rfl
@[simp] theorem modDslot_flash (d c t n : Nat) (f : DSlot → DSlot) (s : State) : (modDslot d c t n f s).flash = s.flash := rfl
@[simp] theorem modDslot_mgmt (d c t n : Nat) (f : DSlot → DSlot) (s : State) : (modDslot d c t n f s).mgmt = s.mgmt := rfl
@[simp] theorem modDslot_tenants (d c t n : Nat) (f : DSlot → DSlot) (s : State) : (modDslot d c t n f s).tenants = s.tenants := rfl
@[simp] theorem modDslot_hif (d c t n : Nat) (f : DSlot → DSlot) (s : State) : (modDslot d c t n f s).hif = s.hif := rfl
@[simp] theorem modDslot_serve (d c t n : Nat) (f : DSlot → DSlot) (s : State) : (modDslot d c t n f s).serve = s.serve := rfl
@[simp] theorem modDslot_dies (d c t n : Nat) (f : DSlot → DSlot) (s : State) : (modDslot d c t n f s).dies = s.dies := rfl
@[simp] theorem modDslot_loom (d c t n : Nat) (f : DSlot → DSlot) (s : State) : (modDslot d c t n f s).loom = s.loom := rfl
@[simp] theorem modDslot_probes (d c t n : Nat) (f : DSlot → DSlot) (s : State) : (modDslot d c t n f s).probes = s.probes := rfl
@[simp] theorem modDslot_models (d c t n : Nat) (f : DSlot → DSlot) (s : State) : (modDslot d c t n f s).models = s.models := rfl
@[simp] theorem modDslot_care (d c t n : Nat) (f : DSlot → DSlot) (s : State) : (modDslot d c t n f s).care = s.care := rfl
@[simp] theorem modDslot_therm (d c t n : Nat) (f : DSlot → DSlot) (s : State) : (modDslot d c t n f s).therm = s.therm := rfl
@[simp] theorem modDslot_cap (d c t n : Nat) (f : DSlot → DSlot) (s : State) : (modDslot d c t n f s).cap = s.cap := rfl
@[simp] theorem modDslot_wire (d c t n : Nat) (f : DSlot → DSlot) (s : State) : (modDslot d c t n f s).wire = s.wire := rfl
@[simp] theorem modDslot_memc (d c t n : Nat) (f : DSlot → DSlot) (s : State) : (modDslot d c t n f s).memc = s.memc := rfl
@[simp] theorem modDslot_fab (d c t n : Nat) (f : DSlot → DSlot) (s : State) : (modDslot d c t n f s).fab = s.fab := rfl
@[simp] theorem setQueueAt_pending (d c key : Nat) (l : List Issued) (s : State) : (setQueueAt d c key l s).pending = s.pending := rfl
@[simp] theorem setQueueAt_regs (d c key : Nat) (l : List Issued) (s : State) : (setQueueAt d c key l s).regs = s.regs := rfl
@[simp] theorem setQueueAt_od (d c key : Nat) (l : List Issued) (s : State) : (setQueueAt d c key l s).od = s.od := rfl
@[simp] theorem setQueueAt_mem (d c key : Nat) (l : List Issued) (s : State) : (setQueueAt d c key l s).mem = s.mem := rfl
@[simp] theorem setQueueAt_fresh (d c key : Nat) (l : List Issued) (s : State) : (setQueueAt d c key l s).fresh = s.fresh := rfl
@[simp] theorem setQueueAt_sys (d c key : Nat) (l : List Issued) (s : State) : (setQueueAt d c key l s).sys = s.sys := rfl
@[simp] theorem setQueueAt_faults (d c key : Nat) (l : List Issued) (s : State) : (setQueueAt d c key l s).faults = s.faults := rfl
@[simp] theorem setQueueAt_power (d c key : Nat) (l : List Issued) (s : State) : (setQueueAt d c key l s).power = s.power := rfl
@[simp] theorem setQueueAt_flash (d c key : Nat) (l : List Issued) (s : State) : (setQueueAt d c key l s).flash = s.flash := rfl
@[simp] theorem setQueueAt_mgmt (d c key : Nat) (l : List Issued) (s : State) : (setQueueAt d c key l s).mgmt = s.mgmt := rfl
@[simp] theorem setQueueAt_tenants (d c key : Nat) (l : List Issued) (s : State) : (setQueueAt d c key l s).tenants = s.tenants := rfl
@[simp] theorem setQueueAt_hif (d c key : Nat) (l : List Issued) (s : State) : (setQueueAt d c key l s).hif = s.hif := rfl
@[simp] theorem setQueueAt_serve (d c key : Nat) (l : List Issued) (s : State) : (setQueueAt d c key l s).serve = s.serve := rfl
@[simp] theorem setQueueAt_dies (d c key : Nat) (l : List Issued) (s : State) : (setQueueAt d c key l s).dies = s.dies := rfl
@[simp] theorem setQueueAt_loom (d c key : Nat) (l : List Issued) (s : State) : (setQueueAt d c key l s).loom = s.loom := rfl
@[simp] theorem setQueueAt_probes (d c key : Nat) (l : List Issued) (s : State) : (setQueueAt d c key l s).probes = s.probes := rfl
@[simp] theorem setQueueAt_models (d c key : Nat) (l : List Issued) (s : State) : (setQueueAt d c key l s).models = s.models := rfl
@[simp] theorem setQueueAt_care (d c key : Nat) (l : List Issued) (s : State) : (setQueueAt d c key l s).care = s.care := rfl
@[simp] theorem setQueueAt_therm (d c key : Nat) (l : List Issued) (s : State) : (setQueueAt d c key l s).therm = s.therm := rfl
@[simp] theorem setQueueAt_cap (d c key : Nat) (l : List Issued) (s : State) : (setQueueAt d c key l s).cap = s.cap := rfl
@[simp] theorem setQueueAt_wire (d c key : Nat) (l : List Issued) (s : State) : (setQueueAt d c key l s).wire = s.wire := rfl
@[simp] theorem setQueueAt_memc (d c key : Nat) (l : List Issued) (s : State) : (setQueueAt d c key l s).memc = s.memc := rfl
@[simp] theorem setQueueAt_fab (d c key : Nat) (l : List Issued) (s : State) : (setQueueAt d c key l s).fab = s.fab := rfl
@[simp] theorem setRun_pending (d c u : Nat) (r : Option Run) (s : State) : (setRun d c u r s).pending = s.pending := rfl
@[simp] theorem setRun_regs (d c u : Nat) (r : Option Run) (s : State) : (setRun d c u r s).regs = s.regs := rfl
@[simp] theorem setRun_od (d c u : Nat) (r : Option Run) (s : State) : (setRun d c u r s).od = s.od := rfl
@[simp] theorem setRun_mem (d c u : Nat) (r : Option Run) (s : State) : (setRun d c u r s).mem = s.mem := rfl
@[simp] theorem setRun_fresh (d c u : Nat) (r : Option Run) (s : State) : (setRun d c u r s).fresh = s.fresh := rfl
@[simp] theorem setRun_sys (d c u : Nat) (r : Option Run) (s : State) : (setRun d c u r s).sys = s.sys := rfl
@[simp] theorem setRun_faults (d c u : Nat) (r : Option Run) (s : State) : (setRun d c u r s).faults = s.faults := rfl
@[simp] theorem setRun_power (d c u : Nat) (r : Option Run) (s : State) : (setRun d c u r s).power = s.power := rfl
@[simp] theorem setRun_flash (d c u : Nat) (r : Option Run) (s : State) : (setRun d c u r s).flash = s.flash := rfl
@[simp] theorem setRun_mgmt (d c u : Nat) (r : Option Run) (s : State) : (setRun d c u r s).mgmt = s.mgmt := rfl
@[simp] theorem setRun_tenants (d c u : Nat) (r : Option Run) (s : State) : (setRun d c u r s).tenants = s.tenants := rfl
@[simp] theorem setRun_hif (d c u : Nat) (r : Option Run) (s : State) : (setRun d c u r s).hif = s.hif := rfl
@[simp] theorem setRun_serve (d c u : Nat) (r : Option Run) (s : State) : (setRun d c u r s).serve = s.serve := rfl
@[simp] theorem setRun_dies (d c u : Nat) (r : Option Run) (s : State) : (setRun d c u r s).dies = s.dies := rfl
@[simp] theorem setRun_loom (d c u : Nat) (r : Option Run) (s : State) : (setRun d c u r s).loom = s.loom := rfl
@[simp] theorem setRun_probes (d c u : Nat) (r : Option Run) (s : State) : (setRun d c u r s).probes = s.probes := rfl
@[simp] theorem setRun_models (d c u : Nat) (r : Option Run) (s : State) : (setRun d c u r s).models = s.models := rfl
@[simp] theorem setRun_care (d c u : Nat) (r : Option Run) (s : State) : (setRun d c u r s).care = s.care := rfl
@[simp] theorem setRun_therm (d c u : Nat) (r : Option Run) (s : State) : (setRun d c u r s).therm = s.therm := rfl
@[simp] theorem setRun_cap (d c u : Nat) (r : Option Run) (s : State) : (setRun d c u r s).cap = s.cap := rfl
@[simp] theorem setRun_wire (d c u : Nat) (r : Option Run) (s : State) : (setRun d c u r s).wire = s.wire := rfl
@[simp] theorem setRun_memc (d c u : Nat) (r : Option Run) (s : State) : (setRun d c u r s).memc = s.memc := rfl
@[simp] theorem setRun_fab (d c u : Nat) (r : Option Run) (s : State) : (setRun d c u r s).fab = s.fab := rfl
@[simp] theorem modOp_pending (d c no : Nat) (f : TileOp → TileOp) (s : State) : (modOp d c no f s).pending = s.pending := rfl
@[simp] theorem modOp_regs (d c no : Nat) (f : TileOp → TileOp) (s : State) : (modOp d c no f s).regs = s.regs := rfl
@[simp] theorem modOp_od (d c no : Nat) (f : TileOp → TileOp) (s : State) : (modOp d c no f s).od = s.od := rfl
@[simp] theorem modOp_mem (d c no : Nat) (f : TileOp → TileOp) (s : State) : (modOp d c no f s).mem = s.mem := rfl
@[simp] theorem modOp_fresh (d c no : Nat) (f : TileOp → TileOp) (s : State) : (modOp d c no f s).fresh = s.fresh := rfl
@[simp] theorem modOp_sys (d c no : Nat) (f : TileOp → TileOp) (s : State) : (modOp d c no f s).sys = s.sys := rfl
@[simp] theorem modOp_faults (d c no : Nat) (f : TileOp → TileOp) (s : State) : (modOp d c no f s).faults = s.faults := rfl
@[simp] theorem modOp_power (d c no : Nat) (f : TileOp → TileOp) (s : State) : (modOp d c no f s).power = s.power := rfl
@[simp] theorem modOp_flash (d c no : Nat) (f : TileOp → TileOp) (s : State) : (modOp d c no f s).flash = s.flash := rfl
@[simp] theorem modOp_mgmt (d c no : Nat) (f : TileOp → TileOp) (s : State) : (modOp d c no f s).mgmt = s.mgmt := rfl
@[simp] theorem modOp_tenants (d c no : Nat) (f : TileOp → TileOp) (s : State) : (modOp d c no f s).tenants = s.tenants := rfl
@[simp] theorem modOp_hif (d c no : Nat) (f : TileOp → TileOp) (s : State) : (modOp d c no f s).hif = s.hif := rfl
@[simp] theorem modOp_serve (d c no : Nat) (f : TileOp → TileOp) (s : State) : (modOp d c no f s).serve = s.serve := rfl
@[simp] theorem modOp_dies (d c no : Nat) (f : TileOp → TileOp) (s : State) : (modOp d c no f s).dies = s.dies := rfl
@[simp] theorem modOp_loom (d c no : Nat) (f : TileOp → TileOp) (s : State) : (modOp d c no f s).loom = s.loom := rfl
@[simp] theorem modOp_probes (d c no : Nat) (f : TileOp → TileOp) (s : State) : (modOp d c no f s).probes = s.probes := rfl
@[simp] theorem modOp_models (d c no : Nat) (f : TileOp → TileOp) (s : State) : (modOp d c no f s).models = s.models := rfl
@[simp] theorem modOp_care (d c no : Nat) (f : TileOp → TileOp) (s : State) : (modOp d c no f s).care = s.care := rfl
@[simp] theorem modOp_therm (d c no : Nat) (f : TileOp → TileOp) (s : State) : (modOp d c no f s).therm = s.therm := rfl
@[simp] theorem modOp_cap (d c no : Nat) (f : TileOp → TileOp) (s : State) : (modOp d c no f s).cap = s.cap := rfl
@[simp] theorem modOp_wire (d c no : Nat) (f : TileOp → TileOp) (s : State) : (modOp d c no f s).wire = s.wire := rfl
@[simp] theorem modOp_memc (d c no : Nat) (f : TileOp → TileOp) (s : State) : (modOp d c no f s).memc = s.memc := rfl
@[simp] theorem modOp_fab (d c no : Nat) (f : TileOp → TileOp) (s : State) : (modOp d c no f s).fab = s.fab := rfl
@[simp] theorem setCtx_pending (s : State) (x : Nat) (c : Ctx) : (setCtx s x c).pending = s.pending := rfl
@[simp] theorem setCtx_regs (s : State) (x : Nat) (c : Ctx) : (setCtx s x c).regs = s.regs := rfl
@[simp] theorem setCtx_od (s : State) (x : Nat) (c : Ctx) : (setCtx s x c).od = s.od := rfl
@[simp] theorem setCtx_mem (s : State) (x : Nat) (c : Ctx) : (setCtx s x c).mem = s.mem := rfl
@[simp] theorem setCtx_fresh (s : State) (x : Nat) (c : Ctx) : (setCtx s x c).fresh = s.fresh := rfl
@[simp] theorem setCtx_sys (s : State) (x : Nat) (c : Ctx) : (setCtx s x c).sys = s.sys := rfl
@[simp] theorem setCtx_faults (s : State) (x : Nat) (c : Ctx) : (setCtx s x c).faults = s.faults := rfl
@[simp] theorem setCtx_power (s : State) (x : Nat) (c : Ctx) : (setCtx s x c).power = s.power := rfl
@[simp] theorem setCtx_flash (s : State) (x : Nat) (c : Ctx) : (setCtx s x c).flash = s.flash := rfl
@[simp] theorem setCtx_mgmt (s : State) (x : Nat) (c : Ctx) : (setCtx s x c).mgmt = s.mgmt := rfl
@[simp] theorem setCtx_tenants (s : State) (x : Nat) (c : Ctx) : (setCtx s x c).tenants = s.tenants := rfl
@[simp] theorem setCtx_hif (s : State) (x : Nat) (c : Ctx) : (setCtx s x c).hif = s.hif := rfl
@[simp] theorem setCtx_dies (s : State) (x : Nat) (c : Ctx) : (setCtx s x c).dies = s.dies := rfl
@[simp] theorem setCtx_cores (s : State) (x : Nat) (c : Ctx) : (setCtx s x c).cores = s.cores := rfl
@[simp] theorem setCtx_loom (s : State) (x : Nat) (c : Ctx) : (setCtx s x c).loom = s.loom := rfl
@[simp] theorem setCtx_probes (s : State) (x : Nat) (c : Ctx) : (setCtx s x c).probes = s.probes := rfl
@[simp] theorem setCtx_models (s : State) (x : Nat) (c : Ctx) : (setCtx s x c).models = s.models := rfl
@[simp] theorem setCtx_care (s : State) (x : Nat) (c : Ctx) : (setCtx s x c).care = s.care := rfl
@[simp] theorem setCtx_therm (s : State) (x : Nat) (c : Ctx) : (setCtx s x c).therm = s.therm := rfl
@[simp] theorem setCtx_cap (s : State) (x : Nat) (c : Ctx) : (setCtx s x c).cap = s.cap := rfl
@[simp] theorem setCtx_wire (s : State) (x : Nat) (c : Ctx) : (setCtx s x c).wire = s.wire := rfl
@[simp] theorem setCtx_memc (s : State) (x : Nat) (c : Ctx) : (setCtx s x c).memc = s.memc := rfl
@[simp] theorem setCtx_fab (s : State) (x : Nat) (c : Ctx) : (setCtx s x c).fab = s.fab := rfl
@[simp] theorem setQueue_pending (s : State) (q : Nat) (x : Queue) : (setQueue s q x).pending = s.pending := rfl
@[simp] theorem setQueue_regs (s : State) (q : Nat) (x : Queue) : (setQueue s q x).regs = s.regs := rfl
@[simp] theorem setQueue_od (s : State) (q : Nat) (x : Queue) : (setQueue s q x).od = s.od := rfl
@[simp] theorem setQueue_mem (s : State) (q : Nat) (x : Queue) : (setQueue s q x).mem = s.mem := rfl
@[simp] theorem setQueue_fresh (s : State) (q : Nat) (x : Queue) : (setQueue s q x).fresh = s.fresh := rfl
@[simp] theorem setQueue_sys (s : State) (q : Nat) (x : Queue) : (setQueue s q x).sys = s.sys := rfl
@[simp] theorem setQueue_faults (s : State) (q : Nat) (x : Queue) : (setQueue s q x).faults = s.faults := rfl
@[simp] theorem setQueue_power (s : State) (q : Nat) (x : Queue) : (setQueue s q x).power = s.power := rfl
@[simp] theorem setQueue_flash (s : State) (q : Nat) (x : Queue) : (setQueue s q x).flash = s.flash := rfl
@[simp] theorem setQueue_mgmt (s : State) (q : Nat) (x : Queue) : (setQueue s q x).mgmt = s.mgmt := rfl
@[simp] theorem setQueue_tenants (s : State) (q : Nat) (x : Queue) : (setQueue s q x).tenants = s.tenants := rfl
@[simp] theorem setQueue_hif (s : State) (q : Nat) (x : Queue) : (setQueue s q x).hif = s.hif := rfl
@[simp] theorem setQueue_dies (s : State) (q : Nat) (x : Queue) : (setQueue s q x).dies = s.dies := rfl
@[simp] theorem setQueue_cores (s : State) (q : Nat) (x : Queue) : (setQueue s q x).cores = s.cores := rfl
@[simp] theorem setQueue_loom (s : State) (q : Nat) (x : Queue) : (setQueue s q x).loom = s.loom := rfl
@[simp] theorem setQueue_probes (s : State) (q : Nat) (x : Queue) : (setQueue s q x).probes = s.probes := rfl
@[simp] theorem setQueue_models (s : State) (q : Nat) (x : Queue) : (setQueue s q x).models = s.models := rfl
@[simp] theorem setQueue_care (s : State) (q : Nat) (x : Queue) : (setQueue s q x).care = s.care := rfl
@[simp] theorem setQueue_therm (s : State) (q : Nat) (x : Queue) : (setQueue s q x).therm = s.therm := rfl
@[simp] theorem setQueue_cap (s : State) (q : Nat) (x : Queue) : (setQueue s q x).cap = s.cap := rfl
@[simp] theorem setQueue_wire (s : State) (q : Nat) (x : Queue) : (setQueue s q x).wire = s.wire := rfl
@[simp] theorem setQueue_memc (s : State) (q : Nat) (x : Queue) : (setQueue s q x).memc = s.memc := rfl
@[simp] theorem setQueue_fab (s : State) (q : Nat) (x : Queue) : (setQueue s q x).fab = s.fab := rfl
@[simp] theorem respond_pending (status : Nat) (payload : List Byte) (s : State) : (respond status payload s).pending = s.pending := rfl
@[simp] theorem respond_regs (status : Nat) (payload : List Byte) (s : State) : (respond status payload s).regs = s.regs := rfl
@[simp] theorem respond_od (status : Nat) (payload : List Byte) (s : State) : (respond status payload s).od = s.od := rfl
@[simp] theorem respond_mem (status : Nat) (payload : List Byte) (s : State) : (respond status payload s).mem = s.mem := rfl
@[simp] theorem respond_fresh (status : Nat) (payload : List Byte) (s : State) : (respond status payload s).fresh = s.fresh := rfl
@[simp] theorem respond_sys (status : Nat) (payload : List Byte) (s : State) : (respond status payload s).sys = s.sys := rfl
@[simp] theorem respond_faults (status : Nat) (payload : List Byte) (s : State) : (respond status payload s).faults = s.faults := rfl
@[simp] theorem respond_power (status : Nat) (payload : List Byte) (s : State) : (respond status payload s).power = s.power := rfl
@[simp] theorem respond_flash (status : Nat) (payload : List Byte) (s : State) : (respond status payload s).flash = s.flash := rfl
@[simp] theorem respond_tenants (status : Nat) (payload : List Byte) (s : State) : (respond status payload s).tenants = s.tenants := rfl
@[simp] theorem respond_hif (status : Nat) (payload : List Byte) (s : State) : (respond status payload s).hif = s.hif := rfl
@[simp] theorem respond_serve (status : Nat) (payload : List Byte) (s : State) : (respond status payload s).serve = s.serve := rfl
@[simp] theorem respond_dies (status : Nat) (payload : List Byte) (s : State) : (respond status payload s).dies = s.dies := rfl
@[simp] theorem respond_cores (status : Nat) (payload : List Byte) (s : State) : (respond status payload s).cores = s.cores := rfl
@[simp] theorem respond_loom (status : Nat) (payload : List Byte) (s : State) : (respond status payload s).loom = s.loom := rfl
@[simp] theorem respond_probes (status : Nat) (payload : List Byte) (s : State) : (respond status payload s).probes = s.probes := rfl
@[simp] theorem respond_models (status : Nat) (payload : List Byte) (s : State) : (respond status payload s).models = s.models := rfl
@[simp] theorem respond_care (status : Nat) (payload : List Byte) (s : State) : (respond status payload s).care = s.care := rfl
@[simp] theorem respond_therm (status : Nat) (payload : List Byte) (s : State) : (respond status payload s).therm = s.therm := rfl
@[simp] theorem respond_cap (status : Nat) (payload : List Byte) (s : State) : (respond status payload s).cap = s.cap := rfl
@[simp] theorem respond_wire (status : Nat) (payload : List Byte) (s : State) : (respond status payload s).wire = s.wire := rfl
@[simp] theorem respond_memc (status : Nat) (payload : List Byte) (s : State) : (respond status payload s).memc = s.memc := rfl
@[simp] theorem respond_fab (status : Nat) (payload : List Byte) (s : State) : (respond status payload s).fab = s.fab := rfl

/-! ### The part updated and the others -/

@[simp] theorem coreOf_modCore_same (s : State) (d c : Nat) (f : CoreSt → CoreSt) : coreOf (modCore s d c f) d c = f (coreOf s d c) := tget_tset_same _ _ _ _
theorem coreOf_modCore_other (s : State) (d c : Nat) (f : CoreSt → CoreSt) (d' c' : Nat) (hk : coreKey d' c' ≠ coreKey d c) : coreOf (modCore s d c f) d' c' = coreOf s d' c' := tget_tset_other _ _ _ _ _ hk
@[simp] theorem dieOf_modDie_same (s : State) (d : Nat) (f : DieSt → DieSt) : dieOf (modDie s d f) d = f (dieOf s d) := tget_tset_same _ _ _ _
theorem dieOf_modDie_other (s : State) (d : Nat) (f : DieSt → DieSt) (e : Nat) (hk : e ≠ d) : dieOf (modDie s d f) e = dieOf s e := tget_tset_other _ _ _ _ _ hk
@[simp] theorem arrOf_modArr_same (k : Nat) (f : Arr → Arr) (s : State) : arrOf (modArr k f s) k = f (arrOf s k) := tget_tset_same _ _ _ _
theorem arrOf_modArr_other (k : Nat) (f : Arr → Arr) (s : State) (j : Nat) (hk : j ≠ k) : arrOf (modArr k f s) j = arrOf s j := tget_tset_other _ _ _ _ _ hk
@[simp] theorem accOf_modAcc_same (k : Nat) (f : Acc → Acc) (s : State) : accOf (modAcc k f s) k = f (accOf s k) := tget_tset_same _ _ _ _
theorem accOf_modAcc_other (k : Nat) (f : Acc → Acc) (s : State) (j : Nat) (hk : j ≠ k) : accOf (modAcc k f s) j = accOf s j := tget_tset_other _ _ _ _ _ hk
@[simp] theorem thermOf_modTherm_same (d : Nat) (f : Therm → Therm) (s : State) : thermOf (modTherm d f s) d = f (thermOf s d) := tget_tset_same _ _ _ _
theorem thermOf_modTherm_other (d : Nat) (f : Therm → Therm) (s : State) (e : Nat) (hk : e ≠ d) : thermOf (modTherm d f s) e = thermOf s e := tget_tset_other _ _ _ _ _ hk
@[simp] theorem lanePermOf_modLanePerm_same (d c lane : Nat) (f : LanePerm → LanePerm) (s : State) : lanePermOf (modLanePerm d c lane f s) d c lane = f (lanePermOf s d c lane) := tget_tset_same _ _ _ _
theorem lanePermOf_modLanePerm_other (d c lane : Nat) (f : LanePerm → LanePerm) (s : State) (d' c' l' : Nat) (hk : laneKey d' c' l' ≠ laneKey d c lane) : lanePermOf (modLanePerm d c lane f s) d' c' l' = lanePermOf s d' c' l' := tget_tset_other _ _ _ _ _ hk
@[simp] theorem winOf_modWin_same (h : Nat) (f : Win → Win) (s : State) : winOf (modWin h f s) h = f (winOf s h) := tget_tset_same _ _ _ _
theorem winOf_modWin_other (h : Nat) (f : Win → Win) (s : State) (j : Nat) (hk : j ≠ h) : winOf (modWin h f s) j = winOf s j := tget_tset_other _ _ _ _ _ hk
@[simp] theorem permOf_modPerm_same (k : Nat) (f : ArrPerm → ArrPerm) (s : State) : permOf (modPerm k f s) k = f (permOf s k) := tget_tset_same _ _ _ _
theorem permOf_modPerm_other (k : Nat) (f : ArrPerm → ArrPerm) (s : State) (j : Nat) (hk : j ≠ k) : permOf (modPerm k f s) j = permOf s j := tget_tset_other _ _ _ _ _ hk
@[simp] theorem tenantOf_setTenant_same (s : State) (k : Nat) (x : Option Tenant) : tenantOf (setTenant s k x) k = x := tget_tset_same _ _ _ _
theorem tenantOf_setTenant_other (s : State) (k : Nat) (x : Option Tenant) (j : Nat) (hk : j ≠ k) : tenantOf (setTenant s k x) j = tenantOf s j := tget_tset_other _ _ _ _ _ hk
@[simp] theorem gopOf_modGop_same (g : Nat) (f : GOp → GOp) (s : State) : gopOf (modGop g f s) g = f (gopOf s g) := tget_tset_same _ _ _ _
theorem gopOf_modGop_other (g : Nat) (f : GOp → GOp) (s : State) (j : Nat) (hk : j ≠ g) : gopOf (modGop g f s) j = gopOf s j := tget_tset_other _ _ _ _ _ hk
@[simp] theorem bindOf_modBind_same (s : State) (b : Nat) (f : Binding → Binding) : bindOf (modBind s b f) b = f (bindOf s b) := tget_tset_same _ _ _ _
theorem bindOf_modBind_other (s : State) (b : Nat) (f : Binding → Binding) (j : Nat) (hk : j ≠ b) : bindOf (modBind s b f) j = bindOf s j := tget_tset_other _ _ _ _ _ hk
@[simp] theorem portAt_modPort_same (d p : Nat) (f : PortSt → PortSt) (s : State) : portAt (modPort d p f s) d p = f (portAt s d p) := tget_tset_same _ _ _ _
theorem portAt_modPort_other (d p : Nat) (f : PortSt → PortSt) (s : State) (d' p' : Nat) (hk : d' * 8 + p' ≠ d * 8 + p) : portAt (modPort d p f s) d' p' = portAt s d' p' := tget_tset_other _ _ _ _ _ hk
@[simp] theorem laneOf_modLane_same (d c lane : Nat) (f : LaneSt → LaneSt) (s : State) : laneOf (modLane d c lane f s) d c lane = f (laneOf s d c lane) := tget_tset_same _ _ _ _
theorem laneOf_modLane_other (d c lane : Nat) (f : LaneSt → LaneSt) (s : State) (d' c' l' : Nat) (hk : laneKey d' c' l' ≠ laneKey d c lane) : laneOf (modLane d c lane f s) d' c' l' = laneOf s d' c' l' := tget_tset_other _ _ _ _ _ hk
@[simp] theorem adcOf_modAdc_same (d c lane n : Nat) (f : Adc → Adc) (s : State) : adcOf (modAdc d c lane n f s) d c lane n = f (adcOf s d c lane n) := tget_tset_same _ _ _ _
theorem adcOf_modAdc_other (d c lane n : Nat) (f : Adc → Adc) (s : State) (d' c' l' m : Nat) (hk : laneKey d' c' l' * 256 + m ≠ laneKey d c lane * 256 + n) : adcOf (modAdc d c lane n f s) d' c' l' m = adcOf s d' c' l' m := tget_tset_other _ _ _ _ _ hk
@[simp] theorem objAt_setObj_same (h : Nat) (o : Option Obj) (s : State) : objAt (setObj h o s) h = o := tget_tset_same _ _ _ _
theorem objAt_setObj_other (h : Nat) (o : Option Obj) (s : State) (j : Nat) (hk : j ≠ h) : objAt (setObj h o s) j = objAt s j := tget_tset_other _ _ _ _ _ hk
@[simp] theorem memcOf_modMemc_same (d st : Nat) (f : Memc → Memc) (s : State) : memcOf (modMemc d st f s) d st = f (memcOf s d st) := tget_tset_same _ _ _ _
theorem memcOf_modMemc_other (d st : Nat) (f : Memc → Memc) (s : State) (d' st' : Nat) (hk : d' * 2 + st' ≠ d * 2 + st) : memcOf (modMemc d st f s) d' st' = memcOf s d' st' := tget_tset_other _ _ _ _ _ hk
@[simp] theorem careOf_modCare_same (d c : Nat) (f : CareCore → CareCore) (s : State) : careOf (modCare d c f s) d c = f (careOf s d c) := tget_tset_same _ _ _ _
theorem careOf_modCare_other (d c : Nat) (f : CareCore → CareCore) (s : State) (d' c' : Nat) (hk : coreKey d' c' ≠ coreKey d c) : careOf (modCare d c f s) d' c' = careOf s d' c' := tget_tset_other _ _ _ _ _ hk
@[simp] theorem ringsOf_setRings_same (s : State) (q : Nat) (r : Option Rings) : ringsOf (setRings s q r) q = r := tget_tset_same _ _ _ _
theorem ringsOf_setRings_other (s : State) (q : Nat) (r : Option Rings) (j : Nat) (hk : j ≠ q) : ringsOf (setRings s q r) j = ringsOf s j := tget_tset_other _ _ _ _ _ hk
@[simp] theorem adminOf_setAdmin_same (s : State) (a : Nat) (x : AdminQ) : adminOf (setAdmin s a x) a = x := tget_tset_same _ _ _ _
theorem adminOf_setAdmin_other (s : State) (a : Nat) (x : AdminQ) (j : Nat) (hk : j ≠ a) : adminOf (setAdmin s a x) j = adminOf s j := tget_tset_other _ _ _ _ _ hk
@[simp] theorem ctxOf_setCtx_same (s : State) (x : Nat) (c : Ctx) : ctxOf (setCtx s x c) x = c := tget_tset_same _ _ _ _
theorem ctxOf_setCtx_other (s : State) (x : Nat) (c : Ctx) (j : Nat) (hk : j ≠ x) : ctxOf (setCtx s x c) j = ctxOf s j := tget_tset_other _ _ _ _ _ hk
@[simp] theorem queueOf_setQueue_same (s : State) (q : Nat) (x : Queue) : queueOf (setQueue s q x) q = x := tget_tset_same _ _ _ _
theorem queueOf_setQueue_other (s : State) (q : Nat) (x : Queue) (j : Nat) (hk : j ≠ q) : queueOf (setQueue s q x) j = queueOf s j := tget_tset_other _ _ _ _ _ hk

/-! ### Inside a core -/

@[simp] theorem taskOf_modTask_same (d c t : Nat) (f : Task → Task) (s : State) : taskOf (modTask d c t f s) d c t = f (taskOf s d c t) := by
  simp only [taskOf, modTask, coreOf_modCore_same, tget_tmod_same]
theorem modTask_otherCore (d c t : Nat) (f : Task → Task) (s : State) (d' c' : Nat) (hk : coreKey d' c' ≠ coreKey d c) : coreOf (modTask d c t f s) d' c' = coreOf s d' c' :=
  coreOf_modCore_other s d c _ d' c' hk
@[simp] theorem dslotOf_modDslot_same (d c t n : Nat) (f : DSlot → DSlot) (s : State) : dslotOf (modDslot d c t n f s) d c t n = f (dslotOf s d c t n) := by
  simp only [dslotOf, modDslot, coreOf_modCore_same, tget_tmod_same]
theorem modDslot_otherCore (d c t n : Nat) (f : DSlot → DSlot) (s : State) (d' c' : Nat) (hk : coreKey d' c' ≠ coreKey d c) : coreOf (modDslot d c t n f s) d' c' = coreOf s d' c' :=
  coreOf_modCore_other s d c _ d' c' hk
@[simp] theorem queueAt_setQueueAt_same (d c key : Nat) (l : List Issued) (s : State) : queueAt (setQueueAt d c key l s) d c key = l := by
  simp only [queueAt, setQueueAt, coreOf_modCore_same, tget_tset_same]
theorem setQueueAt_otherCore (d c key : Nat) (l : List Issued) (s : State) (d' c' : Nat) (hk : coreKey d' c' ≠ coreKey d c) : coreOf (setQueueAt d c key l s) d' c' = coreOf s d' c' :=
  coreOf_modCore_other s d c _ d' c' hk
@[simp] theorem runOf_setRun_same (d c u : Nat) (r : Option Run) (s : State) : runOf (setRun d c u r s) d c u = r := by
  simp only [runOf, setRun, coreOf_modCore_same, tget_tset_same]
theorem setRun_otherCore (d c u : Nat) (r : Option Run) (s : State) (d' c' : Nat) (hk : coreKey d' c' ≠ coreKey d c) : coreOf (setRun d c u r s) d' c' = coreOf s d' c' :=
  coreOf_modCore_other s d c _ d' c' hk

/-- Two well-formed cores have one key only where they are the same. -/
theorem coreKey_inj (d c d' c' : Nat) (h : c < 72) (h' : c' < 72) (e : coreKey d c = coreKey d' c') : d = d' ∧ c = c' := by
  unfold coreKey at e; omega

end Sys2Proof.Machine
end

