-- ==== Sys2Proof/Laws/Folio.lean ====
section
/-! SUPPORT. The folio code on data of zeros (spec/13_memory_and_translation.md R326, R327): its check symbols are zeros, and an error pattern
over it leaves in each codeword the pattern's own values. A write to DRAM whose folios are in no error (R329): what it writes, and what else it
changes. -/

namespace Sys2Proof.Machine

/-- A product with zero. -/
@[simp] theorem gmul_zero_left (b : Nat) : gmul 0 b = 0 := by
  have h : ∀ k b, gmulBits k 0 b = 0 := fun k => by
    induction k with
    | zero => intro; rfl
    | succ k ih => intro b; simp [gmulBits, ih]
  exact h 8 b

/-- The generator of `r` check symbols has `r` coefficients below the highest. -/
@[simp] theorem rsGen_length (r : Nat) : (rsGen r).length = r := by
  induction r with
  | zero => rfl
  | succ r ih => simp [rsGen, ih]

/-- The check symbols of zeros are zeros. -/
theorem rsCheck_zeros (r n : Nat) : rsCheck r (List.replicate n 0) = List.replicate r 0 := by
  have hg : (rsGen r).map (gmul 0) = List.replicate r 0 := by
    rw [List.eq_replicate_iff]
    simp
  have step : List.zipWith (· ^^^ ·) ((List.replicate r 0).drop 1 ++ [0]) ((rsGen r).map (gmul 0)) = List.replicate r 0 := by
    rw [hg]
    cases r with
    | zero => rfl
    | succ r =>
      have h : (List.replicate (r + 1) 0).drop 1 ++ [0] = List.replicate (r + 1) 0 := List.replicate_succ'.symm
      rw [h]
      simp
  have head : (0 : Nat) ^^^ (List.replicate r 0).headD 0 = 0 := by cases r <;> simp [List.replicate_succ]
  unfold rsCheck
  induction n with
  | zero => rfl
  | succ n ih =>
    rw [List.replicate_succ, List.foldl_cons]
    simp only [head, step]
    exact ih

/-- A folio of zeros has a check slot of zeros, for a strength's one, two or four symbols. -/
theorem checkSlot_zeros (r n : Nat) (h : r ≤ 4) : checkSlot r (List.replicate n 0) = List.replicate 64 0 := by
  unfold checkSlot
  have h1 : ∀ i, (((symbolPlaces r i).take 128).map fun q => (List.replicate n 0).getD q 0) = List.replicate 128 0 := by
    intro i
    rw [List.eq_replicate_iff]
    simp [symbolPlaces, List.getD_eq_getElem?_getD, List.getElem?_replicate]
    intro a _
    split <;> rfl
  simp only [h1, rsCheck_zeros, List.replicate_append_replicate, show r + (4 - r) = 4 by omega]
  rfl

/-- A byte of zeros met by an error pattern is what the pattern leaves of 0 there. -/
theorem withErrors_zeros (n q : Nat) (pat : List (Nat × Nat)) (h : q < n) :
    (withErrors (List.replicate n 0) pat).getD q 0 = pat.foldl (fun a e => if e.1 = q then a ^^^ e.2 else a) 0 := by
  simp [withErrors, List.getD_eq_getElem?_getD, h]

/-- What each codeword of a folio of zeros with an error pattern decodes to: only the pattern's values at the codeword's own places matter. -/
theorem decodeFolio_zeros (c : Nat) (pat : List (Nat × Nat)) (mis : Nat) :
    (decodeFolio c (List.replicate 2048 0#8) pat mis).1 = (List.range 16).map fun i =>
      let w := (symbolPlaces (codePower c).1 i).map fun q => pat.foldl (fun a e => if e.1 = q then a ^^^ e.2 else a) 0
      decodeCw c (w.filter fun x => x != 0).length (natBit mis i) w := by
  have hr : (codePower c).1 ≤ 4 := by unfold codePower; split <;> simp
  have hq : ∀ i ∈ List.range 16, ∀ q ∈ symbolPlaces (codePower c).1 i, q < 2112 := by
    intro i hi q hq
    simp only [symbolPlaces, List.mem_append, List.mem_map, List.mem_range] at hi hq
    omega
  have hw : ∀ i ∈ List.range 16, ((symbolPlaces (codePower c).1 i).map fun q => (withErrors (List.replicate 2112 0) pat).getD q 0) =
      (symbolPlaces (codePower c).1 i).map fun q => pat.foldl (fun a e => if e.1 = q then a ^^^ e.2 else a) 0 :=
    fun i hi => List.map_congr_left fun q h => withErrors_zeros 2112 q pat (hq i hi q h)
  have hl : (List.replicate 2048 0#8).map (fun b => b.toNat) ++ checkSlot (codePower c).1 ((List.replicate 2048 0#8).map fun b => b.toNat) =
      List.replicate 2112 0 := by
    rw [List.map_replicate]
    show List.replicate 2048 0 ++ checkSlot _ (List.replicate 2048 0) = _
    rw [checkSlot_zeros _ _ hr, List.replicate_append_replicate]
  unfold decodeFolio
  simp only [hl]
  refine List.map_congr_left fun i hi => ?_
  rw [← hw i hi, List.filter_map, List.length_map]
  rfl

/-! ### A write where no folio is in error -/

/-- Only memory, its controllers and registers differ. -/
def DramOnly (s t : State) : Prop := t = { s with mem := t.mem, memc := t.memc, regs := t.regs }

theorem DramOnly.refl (s : State) : DramOnly s s := rfl

theorem DramOnly.trans {s t u : State} (h : DramOnly s t) (k : DramOnly t u) : DramOnly s u :=
  Eq.trans k (congrArg (fun x : State => { x with mem := u.mem, memc := u.memc, regs := u.regs }) h)

/-- A change of a controller that adds no error leaves none. -/
theorem foliosClean_modMemc {s : State} {d : Nat} (h : FoliosClean s d) (e st : Nat) {f : Memc → Memc} (hf : ∀ m, m.bad = [] → (f m).bad = []) :
    FoliosClean (modMemc e st f s) d := by
  intro k hk
  unfold memcOf Machine.modMemc
  by_cases hd : d * 2 + k = e * 2 + st
  · rw [hd]
    simp only [tmod, tget_tset_same]
    exact hf _ (by rw [← hd]; exact h k hk)
  · simp only [tmod]
    rw [tget_tset_other _ _ _ _ _ hd]
    exact h k hk

theorem stackOf_lt (f : Nat) : stackOf f < 2 := Nat.mod_lt _ (by decide)

theorem dropErrors_clean {s : State} {d st : Nat} (h : FoliosClean s d) (hs : st < 2) (phi : Nat) : dropErrors d st phi s = s := by
  simp [dropErrors, h st hs]

/-- What memory holds after bytes are written depends on memory alone. -/
theorem mwrite_mem_congr (l : List Byte) (s t : State) (a : Nat) (h : s.mem = t.mem) : (mwrite s a l).mem = (mwrite t a l).mem := by
  induction l generalizing s t a with
  | nil => exact h
  | cons b l ih => rw [mwrite_cons, mwrite_cons]; exact ih _ _ _ (by simp [mput, h])

/-- Bytes written in two parts. -/
theorem mwrite_append (x y : List Byte) (s : State) (a : Nat) : mwrite s a (x ++ y) = mwrite (mwrite s a x) (a + x.length) y := by
  induction x generalizing s a with
  | nil => rfl
  | cons b x ih => rw [List.cons_append, mwrite_cons, mwrite_cons, ih, List.length_cons, Nat.add_assoc, Nat.add_comm 1]

theorem mwrite_dram (l : List Byte) (s : State) (a : Nat) : DramOnly s (mwrite s a l) ∧ (mwrite s a l).memc = s.memc := by
  induction l generalizing s a with
  | nil => exact ⟨rfl, rfl⟩
  | cons b l ih => rw [mwrite_cons]; exact ⟨DramOnly.trans (t := mput s a b) rfl (ih _ _).1, (ih _ _).2⟩

/-- An entry of the folio buffer issued where no folio is in error changes no byte. -/
theorem issueBuf_clean {s : State} {d st : Nat} (h : FoliosClean s d) (hs : st < 2) (phi : Nat) :
    DramOnly s (issueBuf d st phi s) ∧ (issueBuf d st phi s).mem = s.mem ∧ FoliosClean (issueBuf d st phi s) d := by
  unfold issueBuf
  split
  · exact ⟨rfl, rfl, h⟩
  · rename_i e _
    have hm : FoliosClean (modMemc d st (fun m => { m with buf := m.buf.filter fun x => x.1 != phi }) s) d := foliosClean_modMemc h d st fun _ hb => hb
    simp only
    split
    · rw [dropErrors_clean hm hs]; exact ⟨rfl, rfl, hm⟩
    · have he : (errorsIn (finc (modMemc d st (fun m => { m with buf := m.buf.filter fun x => x.1 != phi }) s) (dieB d) F.MEMC_CNT_RMW_COUNT 1 st) d st phi).isEmpty = true := by
        have := hm st hs
        simp only [errorsIn, memcOf, finc_memc] at this ⊢
        rw [this]; rfl
      rw [if_pos he]
      exact ⟨rfl, rfl, hm⟩

/-- A write noted in the folio buffer changes no byte. -/
theorem noteWrite_clean {s : State} {d : Nat} (h : FoliosClean s d) (f lo : Nat) (was : List Byte) :
    DramOnly s (noteWrite d f lo was s) ∧ (noteWrite d f lo was s).mem = s.mem ∧ FoliosClean (noteWrite d f lo was s) d := by
  have hs := stackOf_lt f
  unfold noteWrite
  simp only
  split
  · have hm : FoliosClean (modMemc d (stackOf f) (fun m => { m with buf := m.buf.filter fun x => x.1 != f / 2 }) s) d := foliosClean_modMemc h d _ fun _ hb => hb
    rw [dropErrors_clean hm hs]; exact ⟨rfl, rfl, hm⟩
  · split
    · exact ⟨rfl, rfl, foliosClean_modMemc h d _ fun _ hb => hb⟩
    · split
      · split
        · rename_i e _ _
          have hi := issueBuf_clean h hs e.1
          exact ⟨hi.1.trans rfl, hi.2.1, foliosClean_modMemc hi.2.2 d _ fun _ hb => hb⟩
        · exact ⟨rfl, rfl, foliosClean_modMemc h d _ fun _ hb => hb⟩
      · exact ⟨rfl, rfl, foliosClean_modMemc h d _ fun _ hb => hb⟩

/-- Bytes written folio by folio, with folios enough for them. -/
theorem writeFolios_clean (d k : Nat) : ∀ (a : Nat) (l : List Byte) (s : State), FoliosClean s d → l.length + a % 2048 ≤ 2048 * k →
    DramOnly s (writeFolios d k a l s) ∧ (writeFolios d k a l s).mem = (mwrite s (dramAddr d a) l).mem ∧ FoliosClean (writeFolios d k a l s) d := by
  induction k with
  | zero =>
    intro a l s h hl
    have : l = [] := List.length_eq_zero_iff.1 (by omega)
    subst this
    exact ⟨rfl, rfl, h⟩
  | succ k ih =>
    intro a l s h hl
    unfold writeFolios
    split
    · rename_i he
      rw [List.isEmpty_iff.1 he]
      exact ⟨rfl, rfl, h⟩
    · simp only
      generalize hn : 2048 - a % 2048 = n
      have hlt : a % 2048 < 2048 := Nat.mod_lt _ (by decide)
      obtain ⟨n1, n2, n3⟩ := noteWrite_clean h (folioOf a) (a % 2048) (mread s (dramAddr d a) (l.take n).length)
      generalize noteWrite d (folioOf a) (a % 2048) (mread s (dramAddr d a) (l.take n).length) s = u at n1 n2 n3
      obtain ⟨w1, w2⟩ := mwrite_dram (l.take n) u (dramAddr d a)
      have hc : FoliosClean (mwrite u (dramAddr d a) (l.take n)) d := fun k hk => by unfold memcOf; rw [w2]; exact n3 k hk
      obtain ⟨i1, i2, i3⟩ := ih (a + n) (l.drop n) _ hc (by rw [List.length_drop]; omega)
      refine ⟨(n1.trans w1).trans i1, ?_, i3⟩
      rw [i2]
      by_cases hln : n ≤ l.length
      · have ht : (l.take n).length = n := by rw [List.length_take]; omega
        rw [show dramAddr d (a + n) = dramAddr d a + (l.take n).length by rw [ht]; simp [dramAddr, Nat.add_assoc], ← mwrite_append, List.take_append_drop]
        exact mwrite_mem_congr _ _ _ _ n2
      · rw [List.drop_eq_nil_of_le (by omega), List.take_of_length_le (by omega)]
        exact mwrite_mem_congr l _ _ _ n2

/-- A write to DRAM where no folio is in error stores its bytes and changes nothing but memory, its controllers and registers. -/
theorem dramWrite_clean (d a : Nat) (l : List Byte) (s : State) (h : FoliosClean s d) :
    DramOnly s (dramWrite d a l s) ∧ (dramWrite d a l s).mem = (mwrite s (dramAddr d a) l).mem ∧ FoliosClean (dramWrite d a l s) d :=
  writeFolios_clean d _ a l s h (by have : a % 2048 < 2048 := Nat.mod_lt _ (by decide); omega)

/-- A read of DRAM where no folio is in error gives the bytes stored and changes nothing. -/
theorem readDram_clean (d a n src : Nat) (who : MemUser) (s : State) (h : FoliosClean s d) :
    readDram d a n src who s = (some (mread s (dramAddr d a) n), s) := by
  simp [readDram, h 0 (by decide), h 1 (by decide)]

end Sys2Proof.Machine
end

