-- ==== Sys2Proof/Laws/Ledger.lean ====
section
/-! SUPPORT. What recording a fault, a notice or an audit record can change, and what a dictionary write does besides its own effect. -/

namespace Sys2Proof.Machine

/-- Only registers, dictionary entries, the fault collectors and the host interface (its interrupts) differ. -/
def LedgerOnly (s t : State) : Prop := t = { s with regs := t.regs, od := t.od, faults := t.faults, hif := t.hif }

theorem LedgerOnly.refl (s : State) : LedgerOnly s s := rfl

theorem LedgerOnly.trans {s t u : State} (h : LedgerOnly s t) (k : LedgerOnly t u) : LedgerOnly s u :=
  Eq.trans k (congrArg (fun x : State => { x with regs := u.regs, od := u.od, faults := u.faults, hif := u.hif }) h)

theorem LedgerOnly.mem {s t : State} (h : LedgerOnly s t) : t.mem = s.mem := by rw [h]
theorem LedgerOnly.pending {s t : State} (h : LedgerOnly s t) : t.pending = s.pending := by rw [h]
theorem LedgerOnly.sys {s t : State} (h : LedgerOnly s t) : t.sys = s.sys := by rw [h]
theorem LedgerOnly.power {s t : State} (h : LedgerOnly s t) : t.power = s.power := by rw [h]
theorem LedgerOnly.flash {s t : State} (h : LedgerOnly s t) : t.flash = s.flash := by rw [h]
theorem LedgerOnly.mgmt {s t : State} (h : LedgerOnly s t) : t.mgmt = s.mgmt := by rw [h]
theorem LedgerOnly.serve {s t : State} (h : LedgerOnly s t) : t.serve = s.serve := by rw [h]
theorem LedgerOnly.cores {s t : State} (h : LedgerOnly s t) : t.cores = s.cores := by rw [h]
theorem LedgerOnly.loom {s t : State} (h : LedgerOnly s t) : t.loom = s.loom := by rw [h]

theorem sendVec_ledger (v : Nat) (s : State) : LedgerOnly s (sendVec v s) := by
  unfold sendVec
  split <;> rfl

theorem hifCause_ledger (f : Fld) (s : State) : LedgerOnly s (hifCause f s) := by
  have h : LedgerOnly s (fset s hubB f 1) := rfl
  unfold hifCause
  simp only
  split
  · exact h.trans (sendVec_ledger 0 _)
  · exact h

theorem formCper_ledger (prev : Bool) (step : Nat) (r : LedgerRec) (s : State) : LedgerOnly s (formCper prev step r s) := by
  unfold formCper
  split
  · exact .refl s
  · refine LedgerOnly.trans ?_ (hifCause_ledger _ _)
    rfl

theorem addRecord_ledger (r : LedgerRec) (s : State) : LedgerOnly s (addRecord r s) := by
  unfold addRecord
  simp only
  split
  · refine LedgerOnly.trans ?_ (formCper_ledger _ _ _ _)
    split
    · refine LedgerOnly.trans ?_ (hifCause_ledger _ _)
      rfl
    · rfl
  · rfl

theorem stickyBit_ledger (s : State) (die code : Nat) (v : Bool) : LedgerOnly s (stickyBit s die code v) := by
  unfold stickyBit
  simp only
  split
  · rfl
  · split <;> rfl

/-- A fault recorded (R477, R479). -/
theorem recordFault_ledger (cls code die inst detail : Nat) (esc forced : Bool) (s : State) :
    LedgerOnly s (recordFault cls code die inst detail esc forced s) := by
  unfold recordFault
  split
  · split
    · exact .refl s
    · exact LedgerOnly.trans (stickyBit_ledger s die code true) rfl
  · simp only
    split
    · rfl
    · exact addRecord_ledger _ s

theorem countFault_ledger (cls die : Nat) (s : State) : LedgerOnly s (countFault cls die s) := by
  unfold countFault
  simp only
  split <;> rfl

/-- An F0 notice records and counts, and does nothing else (R473). -/
theorem notice_ledger (code die inst detail : Nat) (s : State) : LedgerOnly s (notice code die inst detail s) :=
  (countFault_ledger 0 die s).trans (recordFault_ledger _ _ _ _ _ _ _ _)

theorem hubNotice_ledger (detail : Nat) (s : State) : LedgerOnly s (hubNotice detail s) := notice_ledger _ _ _ _ s
theorem coreNotice_ledger (d c detail : Nat) (s : State) : LedgerOnly s (coreNotice d c detail s) := notice_ledger _ _ _ _ s
theorem setModState_ledger (v : Nat) (s : State) : LedgerOnly s (setModState v s) := by
  unfold setModState
  split
  · exact .refl s
  · refine LedgerOnly.trans ?_ (hifCause_ledger _ _)
    rfl

/-! ### The audit log -/

/-- Only management, flash and dictionary entries differ. -/
def AuditOnly (s t : State) : Prop := t = { s with mgmt := t.mgmt, flash := t.flash, od := t.od }

theorem AuditOnly.refl (s : State) : AuditOnly s s := rfl

theorem AuditOnly.trans {s t u : State} (h : AuditOnly s t) (k : AuditOnly t u) : AuditOnly s u :=
  Eq.trans k (congrArg (fun x : State => { x with mgmt := u.mgmt, flash := u.flash, od := u.od }) h)

theorem auditPut_audit (r : AuditRec) (s : State) : AuditOnly s (auditPut r s) := by
  unfold auditPut
  simp only
  split <;> rfl

theorem auditFlush_audit (s : State) : AuditOnly s (auditFlush s) := by
  unfold auditFlush
  simp only
  split
  · refine AuditOnly.trans ?_ (auditPut_audit _ _)
    rfl
  · rfl

/-- A record appended to the audit log (R459–R462). -/
theorem auditAdd_audit (r : AuditRec) (s : State) : AuditOnly s (auditAdd r s) := by
  unfold auditAdd
  simp only
  split
  · exact (auditPut_audit r s).trans (auditFlush_audit _)
  · exact auditPut_audit r s

theorem auditWrite_audit (w : Writer) (idx sub st : Nat) (old new : OdVal) (s : State) : AuditOnly s (auditWrite w idx sub st old new s) :=
  auditAdd_audit _ s

/-! ### A dictionary write -/

/-- A rejected write is audited, noticed and answered with its status, and nothing else differs. -/
theorem odReject_frame (w : Writer) (idx sub st : Nat) (old v : OdVal) (s : State) : let t := odReject w idx sub st old v s
    t.mem = s.mem ∧ t.pending = s.pending ∧ t.serve = s.serve ∧ t.cores = s.cores ∧ t.loom = s.loom ∧ t.power = s.power ∧
      t.mgmt.resp = ⟨st, []⟩ := by
  have a := auditWrite_audit w idx sub st old v (hubNotice (writeHead w) s)
  have n := hubNotice_ledger (writeHead w) s
  refine ⟨?_, ?_, ?_, ?_, ?_, ?_, rfl⟩ <;> simp only [odReject, respond_mem, respond_pending, respond_serve, respond_cores, respond_loom, respond_power] <;> rw [a, n]

/-- A write whose checks fail is rejected (R554). -/
theorem odWrite_rejected (w : Writer) (idx sub : Nat) (v : OdVal) (permit : Bool) (act : State → Nat × State) (s : State)
    (h : odCheck w idx sub v permit s ≠ 0) :
    odWrite w idx sub v permit act s = odReject w idx sub (odCheck w idx sub v permit s) (odGet s idx sub) v s := by
  simp only [odWrite, odWriteOver, if_neg h]

/-- A write that its own chapter rejects is treated alike. -/
theorem odWrite_refused (w : Writer) (idx sub : Nat) (v : OdVal) (permit : Bool) (act : State → Nat × State) (s : State)
    (h : odCheck w idx sub v permit s = 0) (r : (act s).1 ≠ 0) :
    odWrite w idx sub v permit act s = odReject w idx sub (act s).1 (odGet s idx sub) v s := by
  simp only [odWrite, odWriteOver, if_pos h, if_neg r]

/-- A write that is accepted, and that no failing flash write meets, has its effect, is audited and answered with 0. -/
theorem odWrite_accepted (w : Writer) (idx sub : Nat) (v : OdVal) (permit : Bool) (act : State → Nat × State) (s : State)
    (h : odCheck w idx sub v permit s = 0) (r : (act s).1 = 0) (f : flashFails s idx sub = false) :
    odWrite w idx sub v permit act s = respond 0 [] (auditWrite w idx sub 0 (odGet s idx sub) v (act s).2) := by
  simp only [odWrite, odWriteOver, if_pos h, if_pos r, f, Bool.false_eq_true, if_false]

/-- A configuration write whose flash write fails is rejected with 0x06, and the entry keeps its value (R556). -/
theorem odWrite_flash (w : Writer) (idx sub : Nat) (v : OdVal) (permit : Bool) (act : State → Nat × State) (s : State)
    (h : odCheck w idx sub v permit s = 0) (r : (act s).1 = 0) (f : flashFails s idx sub = true) :
    odWrite w idx sub v permit act s = odReject w idx sub 0x06 (odGet s idx sub) v (spendFlash s) := by
  simp only [odWrite, odWriteOver, if_pos h, if_pos r, f, if_true]

@[simp] theorem auditWrite_status (w : Writer) (idx sub st : Nat) (old new : OdVal) (n : Nat) (p : List Byte) (s : State) :
    (respond n p (auditWrite w idx sub st old new s)).mgmt.resp.status = n := rfl

/-- A rejected write changes no memory, no core, no array, no context and no queue. -/
theorem odWrite_rejected_frame (w : Writer) (idx sub : Nat) (v : OdVal) (permit : Bool) (act : State → Nat × State) (s : State)
    (h : odCheck w idx sub v permit s ≠ 0) : let t := odWrite w idx sub v permit act s
    t.mem = s.mem ∧ t.pending = s.pending ∧ t.serve = s.serve ∧ t.cores = s.cores ∧ t.loom = s.loom ∧ t.power = s.power := by
  rw [odWrite_rejected w idx sub v permit act s h]
  obtain ⟨a, b, c, d, e, f, -⟩ := odReject_frame w idx sub (odCheck w idx sub v permit s) (odGet s idx sub) v s
  exact ⟨a, b, c, d, e, f⟩

end Sys2Proof.Machine
end

