-- ==== Sys2Proof/Machine/Reads.lean ====
section
/-! DEFINITION. What a read of the control spaces and of BAR0 returns (spec/00_scope.md R5, R6, spec/24_host_interface.md R570, R571, and the
register tables of each chapter): the stored fields, and the fields that report state held elsewhere. No command reads a register. -/

namespace Sys2Proof.Machine

/-! ### Fields that report other state -/

/-- A condition as a field. -/
def vBit (b : Bool) : Option Nat := some (b2n b)

/-- The array that the accuracy selector of a core names has this record (Table 8.5); the registers show its fields (Table 8.7). -/
def selAccuracy (s : State) (d c : Nat) : List Byte := accuracyRecord s 0 d c (fget s (coreB d c) F.ASSY_WIDX_ARRAY)

/-- The arrays of a core whose accuracy record meets a condition. -/
def coreAccs (s : State) (d c : Nat) (p : Acc → Bool) : Bool :=
  s.loom.accs.any fun x => decide (arrKey d c 0 ≤ x.1) && decide (x.1 < arrKey d (c + 1) 0) && p x.2

/-- The Serving array of a core with the largest BOUND, the lowest of equals; 0 where none serves. -/
def worstArray (s : State) (d c : Nat) : Nat :=
  let l := (s.loom.arrs.filter fun x => decide (arrKey d c 0 ≤ x.1) && decide (x.1 < arrKey d (c + 1) 0) && x.2.st == 2).map fun x => x.1
  let top := l.foldl (fun m k => max m (accOf s k).bound) 0
  match l.find? fun k => (accOf s k).bound == top with
  | some k => k - arrKey d c 0
  | none => 0

/-- LOOM_IDATA (R128, Table 4.15): the descriptor, or the remap entry, that LOOM_IDX selects. -/
def readIdata (s : State) (d c : Nat) : Nat :=
  let b := coreB d c
  let key := arrKey d c (fget s b F.LOOM_IDX_ARRAY)
  let a := arrOf s key
  let rm := (permOf s key).remap
  match fget s b F.LOOM_IDX_TABLE with
  | 0 => a.st + 8 * a.mode + 16 * a.wfmt + 256 * (a.gen % 256) + 65536 * rm.length
  | 1 => match rm.find? fun p => p.1 == fget s b F.LOOM_IDX_ENTRY with
    | some p => p.2 + 2 ^ 15
    | none => ((permOf s key).invalid.find? fun p => p.1 == fget s b F.LOOM_IDX_ENTRY).elim 0 fun p => p.2
  | _ => 0

/-- Fields of the loom, the ladder, the tally and the mender (Tables 4.15, 5.13, 6.10, 7.9). (DESIGN CHOICE: notes/assumptions/32.md.) -/
def readEngines (s : State) (d c : Nat) (f : Fld) : Option Nat :=
  let x := coreOf s d c
  let b := coreB d c
  let drift := (tget (fun _ => []) s.loom.drift (arrKey d c (fget s b F.MEND_DIDX_ARRAY))).getD (fget s b F.MEND_DIDX_ENTRY) (0, 0)
  if f = F.LOOM_IDATA_DATA then some (readIdata s d c)
  else if f = F.LOOM_OPCNT_HI_COUNT then x.opHi
  else if f = F.CORE_LADSTAT_PENDING then vBit (x.ops.any fun o => decide (1 ≤ o.st) && decide (o.st ≤ 6) || o.st == 8)
  else if f = F.CORE_LADSTAT_STALLED then vBit (!x.grantQ.isEmpty)
  else if f = F.CORE_LADSTAT_SUMM_USED then some x.summs.length
  else if f = F.CORE_TALSTAT_BUF_USED then some (tallyUsed s d c)
  else if f = F.CORE_TALSTAT_LANE_HELD then vBit (x.ops.any fun o => o.st == 2)
  else if f = F.CORE_TALSTAT_CMDQ then some (queueAt s d c 18).length
  else if f = F.MEND_STAT_PQ then some (queueAt s d c 17).length
  else if f = F.MEND_STAT_RQ then some (x.p16Q.drop 1).length
  else if f = F.MEND_STAT_REDO_ACT then vBit (!x.p16Q.isEmpty)
  else if f = F.MEND_STAT_HOLD then vBit (x.adds.any fun a => x.ops.any fun o => a.term == some o.no && o.outcome == 0)
  else if f = F.MEND_DDATA_GAIN then some (toTwos 8 drift.1)
  else if f = F.MEND_DDATA_OFFS then some (toTwos 8 drift.2)
  else if f = F.MEND_DSTAGE_PENDING then some x.staged.length
  else if f = F.MEND_DSTAGE_FULL then vBit (decide (x.staged.length ≥ 8))
  else none

/-- Fields of the assay block (Tables 8.7, 9.9). -/
def readAssay (s : State) (d c : Nat) (f : Fld) : Option Nat :=
  let b := coreB d c
  let y := careOf s d c
  let lane := fget s b F.ASSY_ADCIDX_LANE
  let adc := adcOf s d c lane (fget s b F.ASSY_ADCIDX_ADC)
  let ln := laneOf s d c lane
  let calLane := (List.range 16).find? fun l => (List.range 136).any fun k => adcCalibrates s d c l k
  let traced := ((tracedLane s d).orElse fun _ => startupTrace s d).bind fun k => if k / 16 = c then some (k % 16) else none
  let acc := selAccuracy s d c
  if f = F.ASSY_WSTAT_ANY_STALE then vBit (coreAccs s d c fun z => z.stale || z.lag)
  else if f = F.ASSY_WSTAT_ANY_TRIG then vBit (coreAccs s d c fun z => z.trig)
  else if f = F.ASSY_WSTAT_WORST then some (worstArray s d c)
  else if f = F.ASSY_WDEV_DEV then some (leAt acc 8 2)
  else if f = F.ASSY_WDEV_BOUND then some (leAt acc 10 2)
  else if f = F.ASSY_WRHO_RHO then some (leAt acc 12 4)
  else if f = F.ASSY_WFLG_FLAGS then some (leAt acc 2 2)
  else if f = F.ASSY_WFLG_TRIGCNT then some (leAt acc 28 1)
  else if f = F.ASSY_ACT_PROG_ACT then vBit (match y.prog with | some p => !p.paused | none => false)
  else if f = F.ASSY_ACT_ADCCAL_ACT then vBit calLane.isSome
  else if f = F.ASSY_ACT_ADCCAL_LANE then some (calLane.getD 0)
  else if f = F.ASSY_ACT_COLTAB_ACT then vBit (tableAt s d c).isSome
  else if f = F.ASSY_ACT_TRACE_ACT then vBit traced.isSome
  else if f = F.ASSY_ACT_TRACE_LANE then some (traced.getD 0)
  else if f = F.ASSY_ACT_WINDOW then vBit (coreWithin s d c 70 && (winOf s (2 * d + (if c % 12 < 6 then 0 else 1))).st == 3)
  else if f = F.ASSY_PROG_ARRAY then some (match y.prog with | some p => p.arr | none => 0)
  else if f = F.ASSY_PROG_ROW then some (match y.prog with | some p => p.row | none => 0)
  else if f = F.ASSY_PROG_PAUSED then vBit (match y.prog with | some p => p.paused | none => false)
  else if f = F.ASSY_PROGCNT_RESTARTS then some (match y.prog with | some p => min p.restarts 65535 | none => 0)
  else if f = F.ASSY_PROGCNT_FAILCOL then some (match y.prog with | some p => min p.failed 255 | none => 0)
  else if f = F.ASSY_ADCDATA_OFFS then some (toTwos 8 adc.offs)
  else if f = F.ASSY_ADCDATA_GTRIM then some (toTwos 8 adc.gtrim)
  else if f = F.ASSY_ADCDATA_STATE then some adc.st
  else if f = F.ASSY_TRACE_KP then some ln.kp
  else if f = F.ASSY_TRACEOFS_ZP then some (toTwos 16 ln.zp)
  else if f = F.ASSY_TRACEOFS_UNTRACED then vBit ln.untraced
  else if f = F.ASSY_LTEST_DUE then vBit (decide (y.test ≥ 1))
  else if f = F.ASSY_LTEST_PREEMPT then vBit (y.test == 2)
  else if f = F.ASSY_LTEST_LAST_PASS then vBit y.passed
  else none

/-- Whether a porter channel or the attention engine stands at a translation fault. -/
def runFaulted (r : Option Run) : Bool :=
  match r with
  | some r => match r.wait with | .fault _ _ _ _ => true | _ => false
  | none => false

/-- Fields of the units and of the data slots (Tables 10.13, 11.8). (DESIGN CHOICE: notes/assumptions/32.md.) -/
def readUnits (s : State) (d c : Nat) (f : Fld) (i : Nat) : Option Nat :=
  let b := coreB d c
  let x := coreOf s d c
  let t := fget s b F.CORE_DSIDX_TASK
  let n := fget s b F.CORE_DSIDX_DSLOT
  let z := dslotOf s d c t n
  if f = F.ATTN_STAT_QUEUED then some (queueAt s d c 20).length
  else if f = F.ATTN_STAT_ACTIVE then vBit (decide ((queueAt s d c 20).length < outOf s d c 4))
  else if f = F.VEC_STAT_QUEUED then some (queueAt s d c 19).length
  else if f = F.VEC_STAT_ACTIVE then vBit (decide ((queueAt s d c 19).length < outOf s d c 3))
  else if f = F.PORT_CH_QUEUED then some (queueAt s d c (21 + i)).length
  else if f = F.PORT_CH_ACTIVE then vBit (decide ((queueAt s d c (21 + i)).length < outOf s d c (5 + i)))
  else if f = F.PORT_CH_FAULT then vBit (runFaulted (runOf s d c i))
  else if f = F.PORT_APPEND_DESC then some (appendHeld s d c).2
  else if f = F.PORT_APPEND_LINES then some ((appendHeld s d c).1 / 64)
  else if f = F.CORE_DSDEF_BASE then some z.base
  else if f = F.CORE_DSDEF_DEFINED then vBit z.defined
  else if f = F.CORE_DSLEN_LEN then some z.len
  else if f = F.CORE_DSSTAT_FILLS then some (z.fills % 256)
  else if f = F.CORE_DSSTAT_FULL then vBit z.full
  else if f = F.CORE_DSSTAT_HELD then vBit (x.held.any fun h => h.slot == t && h.dslot == n)
  else if f = F.CORE_DSSTAT_LANDED then some z.landed
  else
    match x.held with
    | [] => if f = F.CORE_GATEST_WAITING then some 0 else none
    | h :: _ =>
      if f = F.CORE_GATEST_TASK then some h.slot
      else if f = F.CORE_GATEST_DSLOT then some h.dslot
      else if f = F.CORE_GATEST_FILL then some (h.fill % 256)
      else if f = F.CORE_GATEST_WAITING then some 1
      else none

/-- Bytes 4w to 4w + 3 of a record of a ledger, newest first; zero where it holds none. -/
def ledgerWord (l : List LedgerRec) (k w : Nat) : Nat := match l[k]? with | some r => leAt r.bytes (4 * w) 4 | none => 0

/-- Fields of a die's blocks (Tables 12.7, 13.10, 17.10, 19.8, 21.8). -/
def readDie (s : State) (d : Nat) (f : Fld) (i : Nat) : Option Nat :=
  let b := dieB d
  let r := fget s b F.MESH_RIDX_ROUTER
  let why := tget (fun _ => (0, 0)) (dieOf s d).rWhy r
  let rm := (remapsOf s d i).getD (fget s b F.MEMC_RMIDX_ENTRY i) none
  let route := routeOf s d (fget s b F.LINK_RIDX_TBL) (fget s b F.LINK_RIDX_DEST)
  let led := tget (fun _ => []) s.faults.dieLedgers d
  let th := thermOf s d
  let k := fget s b F.THRM_SIDX_SENSOR
  let c := fget s b F.THRM_CIDX_CORE
  if f = F.MESH_RSTAT_OUT then vBit ((dieOf s d).outRouters.contains r)
  else if f = F.MESH_RSTAT_REASON then some why.1
  else if f = F.MESH_RSTAT_BADPORT then some why.2
  else if f = F.MEMC_RMDATA_FOLIO then some (rm.getD 0)
  else if f = F.MEMC_RMDATA_VALID then vBit rm.isSome
  else if f = F.LINK_RDATA_DOR_PORT then some route.dor
  else if f = F.LINK_RDATA_DOR_OK then vBit route.dorOk
  else if f = F.LINK_RDATA_ESC_PORT then some route.esc
  else if f = F.LINK_RDATA_REACH then vBit route.reach
  else if f = F.FLT_STAT_COUNT then some led.length
  else if f = F.FLT_STAT_OPEN then some (openClass (s.faults.openFaults.filter fun o => o.die == d))
  else if f = F.FLT_STAT_UNACK then some (unackCount led)
  else if f = F.FLT_STAT_TEST then some (odNum s 0x8021)
  else if f = F.FLT_STAT_CAPTURE then vBit (capturing s d)
  else if f = F.FLT_LDATA_DATA then some (ledgerWord led (fget s b F.FLT_LIDX_INDEX) i)
  else if f = F.THRM_SDATA_TEMP then some (toTwos 16 (tget (fun _ => 0) th.sens k))
  else if f = F.THRM_SDATA_VALID then vBit (!th.dropped.contains k)
  else if f = F.THRM_CDATA_TJ then some (toTwos 16 (junction s d c))
  else if f = F.THRM_CDATA_POWER then some (tget (fun _ => 0) th.power c)
  else none

/-- The queues with a Runnable context. -/
def runnableQueues (s : State) : List Nat := (s.serve.queues.map fun p => p.1).filter fun q => anyRunnable s q

/-- Whether a queue's Runnable contexts wait for ring space or budget alone (Table 15.14). -/
def queueStarved (s : State) (q : Nat) : Bool :=
  !queueEligible s q || (match ringsOf s q with
    | none => true
    | some r => (s.serve.ctxs.filter fun p => p.2.st == 2 && p.2.queue == q).all fun p =>
        decide (r.oqEntries.length + r.oqReserved + ctxYield s p.2 > r.oq.size))

/-- Fields of the hub's registers (Tables 2.12, 15.14, 19.9, 20.11, 21.9, 22.6, 24.12). -/
def readHub (s : State) (f : Fld) (i : Nat) : Option Nat :=
  let rq := runnableQueues s
  let bits (p : Nat → Bool) : Nat := ((List.range 4).map fun b => if p b then 2 ^ b else 0).sum
  if f = F.HUB_SIGSTAT_FAULT_OUT then vBit (faultN s)
  else if f = F.HUB_SIGSTAT_SAFE_OUT then vBit (safeN s)
  else if f = F.HUB_DISPSTAT_RUNQ then some rq.length
  else if f = F.HUB_DISPSTAT_INFL then some (s.serve.steps.filter fun t => t.lead && t.auditOf.isNone).length
  else if f = F.HUB_DISPSTAT_HELD then vBit (!rq.isEmpty && rq.all (queueStarved s))
  else if f = F.HUB_AUDSTAT_ACTIVE then some (bits fun b => odNum s (0x8070 + b) 10 == 1)
  else if f = F.HUB_AUDSTAT_HELD then some (bits fun b => (bindOf s b).auditHeld)
  else if f = F.HUB_AUDSTAT_INFL then some (s.serve.steps.filter fun t => t.auditOf.isSome).length
  else if f = F.FLT_MSTAT_COUNT then some s.faults.modLedger.length
  else if f = F.FLT_MSTAT_OPEN then some (openClass s.faults.openFaults)
  else if f = F.FLT_MSTAT_UNACK then some (unackCount s.faults.modLedger)
  else if f = F.FLT_MSTAT_TEST then some (odNum s 0x8021)
  else if f = F.FLT_MSTAT_CAPTURE then vBit (capturing s hubDie)
  else if f = F.FLT_MSTAT_SAFE then vBit (modState s == 5)
  else if f = F.FLT_MSTAT_GRAVE then vBit (modState s == 6)
  else if f = F.FLT_MLDATA_DATA then some (ledgerWord s.faults.modLedger (fget s hubB F.FLT_MLIDX_INDEX) i)
  else if f = F.HUB_PWRSTAT_AF then vBit s.flash.af
  else if f = F.HUB_MBSTAT_AVAIL then vBit (mailboxUp s && fget s hubB F.HUB_SIGSTAT_PERST_IN == 0)
  else if f = F.HUB_HIFSTAT_RDY then vBit (hifReady s)
  else if f = F.HUB_HIFSTAT_ACTIVE then vBit (fget s hubB F.HUB_HIFCTRL_EN == 1 && s.hif.rings.any fun p => p.2.isSome)
  else if f = F.HUB_HIFSTAT_HALTED then vBit (halted s)
  else none

/-- A field that reports state held elsewhere; none for a field that the register itself holds. -/
def readElsewhere (s : State) (die off : Nat) (f : Fld) (i : Nat) : Option Nat :=
  match spaceOf die off with
  | .core =>
    let c := off / 65536
    (((readEngines s die c f).orElse fun _ => readAssay s die c f).orElse fun _ => readUnits s die c f i)
  | .die => readDie s die f i
  | .hub => readHub s f i

/-! ### Reading -/

/-- A field as a read returns it (Table 0.3): zero for a write-only one. (DEDUCED: notes/assumptions/49.md.) -/
def readField (s : State) (die off : Nat) (p : Fld × Nat) : Nat :=
  match p.1.acc with
  | .wo => 0
  | _ => (readElsewhere s die off p.1 p.2).getD (fget s (spaceBase die off) p.1 p.2)

/-- The word that a register reads as: each field in its place, reserved bits and unassigned offsets zero (R5, R6).
(DESIGN CHOICE: notes/assumptions/32.md.) -/
def readRegister (s : State) (die off : Nat) : Nat :=
  (fieldsAt (spaceOf die off) (spaceOff die off)).foldl (fun a p => a + readField s die off p % 2 ^ p.1.width * 2 ^ p.1.lo) 0

/-- What a read leaves of one field (R6, R127): an RC field is cleared, and a read of LOOM_OPCNT_LO keeps the high half that belongs to it for
the read of LOOM_OPCNT_HI. -/
def fieldRead (die off : Nat) (p : Fld × Nat) (s : State) : State :=
  let b := spaceBase die off
  let c := off / 65536
  let s := if p.1.acc = .rc then fset s b p.1 0 p.2 else s
  if p.1 = F.LOOM_OPCNT_LO_COUNT then modCore s die c fun x => { x with opHi := some (fget s b F.LOOM_OPCNT_HI_COUNT) }
  else if p.1 = F.LOOM_OPCNT_HI_COUNT then modCore s die c fun x => { x with opHi := none }
  else s

/-- A register read: the word, and the state that the read leaves (R6). No command of the table reads a register; the controllers and the hub
read theirs in the course of their own. (DEDUCED: notes/assumptions/49.md.) -/
def registerRead (s : State) (die off : Nat) : Nat × State :=
  (readRegister s die off, (fieldsAt (spaceOf die off) (spaceOff die off)).foldl (fun s p => fieldRead die off p s) s)

/-- The MSI-X table and pending bits (R570, R583). -/
def readMsix (s : State) (off : Nat) : Nat :=
  let ent (k : Nat) : MsixEnt := tget (fun _ => MsixEnt.off) s.hif.msix k
  if off < 0x18000 then
    let e := ent ((off - 0x10000) / 16)
    match (off - 0x10000) / 4 % 4 with
    | 0 => e.addr % 2 ^ 32
    | 1 => e.addr / 2 ^ 32
    | 2 => e.data
    | _ => b2n e.masked
  else ((List.range 32).map fun j => if (ent (8 * (off - 0x18000) + j)).pend then 2 ^ j else 0).sum

/-- A host's read of BAR0 (R570, R571): the aligned word that holds the byte; the mailbox buffers; the MSI-X structures; every unassigned byte
zero. (DEDUCED: notes/assumptions/49.md.) -/
def readBar0 (s : State) (byte : Nat) : Nat :=
  let off := byte / 4 * 4
  if 0x1000 ≤ off ∧ off < 0x1800 then leAt s.hif.mbReq (off - 0x1000) 4
  else if 0x1800 ≤ off ∧ off < 0x2000 then leAt s.hif.mbResp (off - 0x1800) 4
  else if off < 0x10000 then readRegister s hubDie off
  else if off < 0x18100 then readMsix s off
  else 0

end Sys2Proof.Machine
end

