-- ==== Sys2Proof/Tests/Slice0.lean ====
section
/-! SUPPORT. Small theorems about single steps on small states. For each statement of Certificates/Slice0/Obligations.lean a test shows that
states and operands meet its hypotheses, most at a boundary value of their range (die 7, core 71, lane 15, array 511), and most show one effect of a
command as the spec gives it. -/

namespace Sys2Proof.Tests
open Sys2Proof.Machine

set_option Elab.async false

/-- The state that a command answers. -/
def run (c : Instr) (s : State) : State := match exec c s with | .next t => t | _ => s

/-- A module in Service (HUB_SIGSTAT), in phase 0x08 (HUB_BOOTSTAT), with every die Released (OD 0x3000 + n .01). -/
def up : State := { State.reset with regs := [(0x400, 0x20031#32), (0x408, 8#32)], od := (List.range 8).map fun d => (0x300001 + 256 * d, .num 2) }

/-- MOD_STATE at a value. -/
def mode (v : Nat) (s : State) : State := fset s hubB F.HUB_SIGSTAT_MOD_STATE v

/-- PHASE at a value, in start-up. -/
def phase (v : Nat) : State := fset State.reset hubB F.HUB_BOOTSTAT_PHASE v

/-- An installer over the mailbox. -/
def inst : Writer := ⟨2, 2, 0, 1⟩

/-- Registers of core 71 of die 7: offset in its window and word. -/
def core (l : List (Nat × Word)) : Tab Word := l.map fun p => (coreB 7 71 + p.1, p.2)

/-- Core 71 of die 7 in a state, with some of its registers, in a module in Service; task slot 0 has a window of 1 MiB (CORE_TWIN_LEN 256). -/
def at71 (c : CoreSt) (l : List (Nat × Word)) : State :=
  { up with cores := [(575, c)], regs := up.regs ++ core l }

/-- CORE_TWIN of task slot 0. -/
def win0 : Nat × Word := (0x108, 0x01000000#32)

/-- A command with a body, issued by entry 0 of task slot 0 under number 1. -/
def cmd (body : List Byte) : Issued := ⟨1, 0, 0, body, [], [], 0⟩

/-- A tile operation of number 1 on array 15 (lane 15), P4, of a nested array, joined and queued. -/
def tile : TileOp :=
  { no := 1, slot := 0, entry := 0, lane := 15, arr := 15, op := 1, inAddr := 0, outAddr := 0, gainH := 0, gainL := 0, e2m1 := false, accum := false,
    tile := 0, layer := 0, gates := [], rels := [], lean := false, first := 0, floorExempt := false, level := 0, st := 0, outcome := 0, deg := false,
    exempt := false, cover := false, care := false, counted := false, joined := true, summ := none, rtz := 0, clip := 0, split := false, skipped := false, notFired := 0,
    eTile := 0, vals := [], wins := [], p16 := [] }

/-- The summary of a DUAL record at offset 0 whose source vector of 2 values lies at offset 4096. -/
def summ : Summ := ⟨true, false, false, 0, 0, 0, 0, 4096, 0, 2, [], List.replicate 8 0#8⟩

/-- A core that runs with command `q` alone in queue `key`. -/
def queued (key : Nat) (q : Issued) (ops : List TileOp) : CoreSt := { CoreSt.idle with queues := [(key, [q])], ops := ops }

/-! ### Well-formedness -/

/-- A term that each check refuses: die, core, lane, half, role, transport, queue, slot fields. -/
theorem test_wf_refuses :
    (Instr.orderlyStopCoreTimeout 8 0).wf = false ∧ (Instr.orderlyStopCoreTimeout 0 72).wf = false ∧ (Instr.loomP4 0 0 16).wf = false ∧
    (Instr.moduleResetRequest ⟨0, 1, 0, 0⟩ (.num 0xA5C3)).wf = false ∧ (Instr.moduleResetRequest ⟨1, 3, 0, 0⟩ (.num 0xA5C3)).wf = false ∧
    (Instr.cableInserted 0 6).wf = false ∧ (Instr.orderlyStopCoreTimeout 7 71).wf = true := by decide

/-! ### Power and pins -/

theorem test_pins : (100000 : Nat) ≠ 2 ^ F.HUB_INSTAGE_VIN.width ∧ (4095 : Nat) < 2 ^ F.HUB_INSTAGE_VIN.width ∧
    fget (run (.refclkMeasurement 1000) up) hubB F.HUB_SIGSTAT_REFCLK_OK = 1 ∧ fget (run (.refclkMeasurement 1001) up) hubB F.HUB_SIGSTAT_REFCLK_OK = 0 ∧
    fget (run (.refclkMeasurement (-5500)) up) hubB F.HUB_SIGSTAT_REFSEL = 1 ∧ fget (run (.refclkMeasurement (-5501)) up) hubB F.HUB_SIGSTAT_REFSEL = 0 ∧
    fget (run (.inputReturnInRange 5000) up) hubB F.HUB_INSTAGE_VIN = 4095 := by
  decide +kernel

/-- Witnesses of OrderlyStop. -/
theorem test_orderly_stop : modState up = 2 ∧ modState (phase 1) = 1 ∧ modState (mode 4 up) = 4 ∧ modState (mode 5 up) = 5 ∧
    odNum (mode 4 up) 0x2045 = 0 ∧ odNum (mode 4 up) 0x8021 = 0 ∧ modState (run .stopNReleased (mode 4 up)) = 2 ∧
    modState (run .stopNReleased (mode 5 up)) = 5 ∧ modState (mode 3 up) = 3 ∧ (coreOf (mode 3 up) 7 71).stopped = false ∧
    (coreOf (run (.orderlyStopCoreTimeout 7 71) (mode 3 up)) 7 71).stopped = true := by decide +kernel

theorem test_endpoint_stop : let s : State := { up with sys := { up.sys with epStop := true } }
    s.sys.epStop = true ∧ modState s = 2 ∧ (coreOf s 7 71).stopped = false := by decide +kernel

theorem test_stopped_entry : let s := fset (mode 3 up) hubB F.HUB_SIGSTAT_STOP_IN 1
    modState s = 3 ∧ allStopped s = true ∧ linksQuiet s = true ∧ fget s hubB F.HUB_SIGSTAT_STOP_IN = 1 ∧
    modState (run .stoppedEntry s) = 4 := by decide +kernel

/-- The module off, with every start condition met. -/
def offReady : State := { fset State.reset hubB F.HUB_INSTAGE_PRECHG_DONE 1 with power := { State.reset.power with rails := false } }

/-- A hold-up under way. -/
def holding : State := { fset (mode 7 up) hubB F.HUB_INSTAGE_HOLDUP 1 with power := { up.power with startOk := false, cause := 2 } }

/-- Witnesses of RailsTurnOff and InputLossHoldsUp. -/
theorem test_rails_off : up.power.rails = true ∧ inHoldup up = false ∧ flashReady up = true ∧ holding.power.rails = true ∧ inHoldup holding = true ∧
    holding.power.cause = 2 ∧ (coreOf holding 7 71).stopped = false ∧ offReady.power.rails = false ∧ up.flash.lastOff < 16 ∧
    (run .standbyDomainPowerUp offReady).power.standby = true := by
  decide +kernel

theorem test_holdup_stop : (coreOf (run (.holdupCoreStopTimeout 7 71) holding) 7 71).stopped = true ∧
    (run .menLowRecognised holding).power.rails = true := by decide +kernel

/-! ### Start-up -/

/-- A slot image that the boot ROM accepts. -/
def goodImg : ImgSlot := ⟨1, 1, 1, 0, true, []⟩

/-- Witnesses of StartupPhasesAdvance. -/
theorem test_start : offReady.power.rails = false ∧ fget offReady hubB F.HUB_SIGSTAT_MEN_IN = 1 ∧ offReady.power.needToggle = false ∧
    offReady.power.startOk = true ∧ offReady.power.standby = true ∧ offReady.power.switchClosed = true ∧ offReady.power.fuseOpen = false ∧
    fget offReady hubB F.HUB_INSTAGE_PRECHG_DONE = 1 ∧ odNum (run .startMoment offReady) 0x2044 = 1 ∧ bootPhase (phase 1) = 1 ∧
    starting (phase 1) = true ∧ bootPhase (run .railsInWindow (phase 1)) = 2 := by decide +kernel

theorem test_boot : let s := { phase 2 with flash := { (phase 2).flash with slotB := goodImg } }
    let r := run (.bootImageVerify 0) s
    bootPhase s = 2 ∧ starting s = true ∧ s.sys.accepted = none ∧ odNum s 0x2042 = 0 ∧ imageOk s (slotOf s (odNum s 0x2042)) = false ∧
    fget s hubB F.HUB_BOOTSTAT_SLOTFALLBACK = 0 ∧
    bootPhase r = 2 ∧ starting r = true ∧ r.sys.accepted = none ∧ imageOk r (slotOf r 1) = true ∧ fget r hubB F.HUB_BOOTSTAT_SLOTFALLBACK = 1 ∧
    odNum r 0x2042 = 0 ∧ (run (.bootImageVerify 1) s).sys.accepted = none ∧ (run (.bootImageVerify 1) r).sys.accepted = some 1 ∧
    bootPhase (run .hubFirmwareStarted (run (.bootImageVerify 1) r)) = 4 ∧ bootPhase (phase 3) = 3 ∧ starting (phase 3) = true := by decide +kernel

theorem test_release_and_train : bootPhase (phase 4) = 4 ∧ starting (phase 4) = true ∧ dieState (phase 4) 7 = 1 ∧ (phase 4).loom.lanePerm = [] ∧
    bootPhase (phase 5) = 5 ∧ starting (phase 5) = true ∧ dieState (phase 5) 7 ≤ 2 := by decide +kernel

/-- Witnesses of StartupEndsInServiceOrSafe. -/
theorem test_fill : let s := modDie (phase 6) 7 fun x => { x with trained := [0, 1] }
    bootPhase s = 6 ∧ starting s = true ∧ dieState s 7 = 1 ∧ (dieOf s 7).trained.length = 2 ∧ inStage s 6 7 = true ∧ dieState s 7 ≤ 2 ∧
    s.faults.openFaults = [] ∧ coreFenced s 7 71 = false := by decide +kernel

theorem test_assay_done : let s := { fset (mode 1 up) hubB F.HUB_BOOTSTAT_PHASE 7 with dies := (List.range 8).map fun d => (d, { DieSt.cold with refDone := true }) }
    bootPhase s = 7 ∧ starting s = true ∧ diesReady s (dieAssayed s) = true ∧ modState (run .moduleAssayDone s) = 2 := by decide +kernel

theorem test_self_test : (phase 6).faults.openFaults = [] ∧ starting (phase 6) = true ∧ bootPhase (phase 6) ≠ 9 ∧ modState up < 5 ∧
    up.faults.openFaults = [] := by decide +kernel

/-- Witnesses of ResetsOfModuleAndDie. -/
theorem test_resets : odCheck inst 0x2040 0 (.num 0xA5C3) (modState up != 6 && decide (bootPhase up ≥ 3)) up = 0 ∧ up.sys.resetting = false ∧
    odCheck inst 0x3017 0 (.num 0xA5C3) (modState up != 1 && dieState up 7 != 5) up = 0 ∧
    dieState up 7 ≠ 3 := by decide +kernel

theorem test_die_reset_ends : let s := modDie (odSet up 0x3007 1 3) 7 fun x => { x with filled := true }
    let g := modDie up 7 fun x => { x with goldenWait := true }
    let w := fset up hubB F.FLT_MSTAT_DIEREACT 1
    dieState s 7 = 3 ∧ dieFilled s 7 = true ∧ dieSwept s 7 = true ∧ (dieOf g 7).goldenWait = true ∧ dieState g 7 = 2 ∧ sectionsHeld g 7 = true ∧
    rereadDue g 6 .none = false ∧ (memcOf g 6 0).bad = [] ∧ (memcOf g 6 1).bad = [] ∧ (7 ^^^ 1 = 6) ∧
    fget w hubB F.FLT_MSTAT_DIEREACT = 1 ∧ w.faults.openFaults = [] := by decide +kernel

/-! ### Loom and ladder -/

/-- CORE_TARR of slot 0: arrays 0 to 511. -/
def arrs0 : Nat × Word := (0x110, 0x81FF0000#32)

/-- A core with tile operation `o` at the front of the queue of lane 15; its array nested and in state `st`. -/
def laneAt (o : TileOp) (op st : Nat) (l : List (Nat × Word)) : State :=
  let s := at71 (queued 15 (cmd [0x10#8, BitVec.ofNat 8 op]) [o]) ([win0, (0x2000, 0#32)] ++ l)
  { s with loom := { s.loom with arrs := [(arrKey 7 71 15, ⟨st, 0, 0, 0, none⟩)] } }

abbrev lanePre (o : TileOp) (op : Nat) (s : State) : Prop :=
  laneIdle s 7 71 15 = true ∧ laneRedo s 7 71 15 = none ∧ queueAt s 7 71 15 = [cmd [0x10#8, BitVec.ofNat 8 op]] ∧ tileOp s 7 71 1 = some o ∧ o.no = 1 ∧
  o.st = 0 ∧ o.lane = 15 ∧ s.faults.openFaults = [] ∧ (coreOf s 7 71).upsets = [] ∧ fget s (coreB 7 71) F.LOOM_CTRL_SPCHK_EN = 0

/-- Witnesses of LaneTakesItsCommand: a Serving array that fires at P4 and P8, and each reason why one does not. -/
theorem test_lane_takes : let o2 := { tile with op := 2, level := 1 }
    let s := laneAt tile 1 2 [arrs0]
    let s2 := laneAt o2 2 2 [arrs0]
    let f := laneAt tile 1 2 [arrs0, (0x2004, 0x8000#32)]
    let ln : State := { s2 with loom := { s2.loom with arrs := [(arrKey 7 71 15, ⟨2, 1, 0, 0, none⟩)] } }
    lanePre tile 1 s ∧ lanePre o2 2 s2 ∧ lanePre tile 1 f ∧ lanePre o2 2 ln ∧
    arrayInWindow (laneAt tile 1 2 []) 7 71 0 15 = false ∧ arrayInWindow s 7 71 0 15 = true ∧ arrayInWindow ln 7 71 0 15 = true ∧
    laneFenced f 7 71 15 = true ∧ laneFenced s 7 71 15 = false ∧ (arrOf (laneAt tile 1 3 [arrs0]) (arrKey 7 71 15)).st ≠ 2 ∧
    (arrOf s (arrKey 7 71 15)).st = 2 ∧ (arrOf ln (arrKey 7 71 15)).mode = 1 ∧ (joinOp 7 71 o2 ln).1.level = 1 ∧
    (tileOp (run (.loomP8 7 71 15) ln) 7 71 1).map (fun o => o.notFired) = some 4 := by decide +kernel

theorem test_lane_fires : let o2 := { tile with op := 2, level := 1 }
    let s := laneAt tile 1 2 [arrs0]
    let s2 := laneAt o2 2 2 [arrs0]
    (joinOp 7 71 tile s).1.level = 0 ∧ (joinOp 7 71 tile s).1.lean = false ∧ (joinOp 7 71 o2 s2).1.level = 1 ∧ (arrOf s2 (arrKey 7 71 15)).mode = 0 ∧
    Reads s 7 71 0 0 272 0 ∧ Reads s2 7 71 0 0 528 0 ∧ 0xFF#8 ∉ mread s (spadAddr 7 71 0) 16 ∧
    (tileOp (run (.loomP4 7 71 15) (laneAt tile 1 3 [arrs0])) 7 71 1).map (fun o => (o.st, o.notFired)) = some (1, 1) ∧
    (tileOp (run (.loomP4 7 71 15) (laneAt tile 1 2 [])) 7 71 1).map (fun o => o.notFired) = some 3 := by decide +kernel

theorem test_lane_redo : let o := { tile with st := 8, summ := some summ }
    let s := at71 { CoreSt.idle with ops := [o], redoQ := [1] } [win0, arrs0, (0x2000, 0#32)]
    o.lean = false ∧ summ.dual = true ∧ laneIdle s 7 71 15 = true ∧ laneRedo s 7 71 15 = some 1 ∧ tileOp s 7 71 1 = some o ∧ o.no = 1 ∧ o.st = 8 ∧ o.joined = true ∧ o.lane = 15 ∧
    s.faults.openFaults = [] ∧ (coreOf s 7 71).upsets = [] ∧ fget s (coreB 7 71) F.LOOM_CTRL_SPCHK_EN = 0 := by decide +kernel

/-- A core whose lanes are empty. -/
def quiet : State :=
  let s := at71 CoreSt.idle [(0x2000, 0#32)]
  { s with loom := { s.loom with arrs := [(arrKey 7 71 511, ⟨2, 0, 0, 0, none⟩)] } }

/-- A core whose lane 15 runs tile operation `o`. -/
def onLane (o : TileOp) (n : Nat) : State :=
  let s := at71 { CoreSt.idle with ops := o :: (List.range n).map fun i => { tile with no := i + 2, st := 3 } } [(0x2000, 0#32)]
  modLane 7 71 15 (fun l => { l with run := some 1 }) s

/-- A probe of array 511. -/
def probeB (op : Nat) : List Byte := [0x10#8, BitVec.ofNat 8 op, 0xFF#8, 1#8] ++ List.replicate 12 0#8

/-- Witnesses of ProbesOperationsAndTables. -/
theorem test_probes : let f := fset quiet (coreB 7 71) F.LOOM_STAT_LANE_FENCED 0x8000
    leAt (probeB 3) 2 2 % 512 = 511 ∧ probeBad 3 (probeB 3) = false ∧ probeBad 4 (probeB 4) = false ∧ laneQuiet quiet 7 71 15 = true ∧
    laneFenced quiet 7 71 15 = false ∧ (arrOf quiet (arrKey 7 71 511)).st = 2 ∧ fget quiet (coreB 7 71) F.LOOM_CTRL_SPCHK_EN = 0 ∧
    laneQuiet f 7 71 15 = true ∧ laneFenced f 7 71 15 = true ∧ fget quiet (coreB 7 71) F.LOOM_PROBE_LANE = 0 ∧ laneQuiet quiet 7 71 0 = true ∧
    laneFenced quiet 7 71 0 = false ∧ tracedLane quiet 7 ≠ some (16 * 71 + 0) ∧
    (coreOf (run (.loomWitnessProbe 7 71 (probeB 3)) f) 7 71).probeStat = 2 ^ 37 := by decide +kernel

theorem test_operations : (let o := { tile with st := 1 }
     (laneOf (onLane o 0) 7 71 15).run = some 1 ∧ tileOp (onLane o 0) 7 71 1 = some o ∧ o.no = 1 ∧ o.st = 1 ∧
     laneFenced (onLane o 0) 7 71 15 = false ∧ tallyUsed (onLane o 32) 7 71 = 32 ∧ tallyUsed (onLane o 31) 7 71 = 31) ∧
    (let o := { tile with st := 2 }
     tallyUsed (onLane o 31) 7 71 < 32 ∧ ((coreOf (onLane o 31) 7 71).ops.find? fun x => x.st == 2) = some o ∧ tileOp (onLane o 31) 7 71 o.no = some o) ∧
    fget quiet (coreB 7 71) F.LOOM_IDX_TABLE = 0 ∧ 5 % 8 < 6 ∧ (natBit 5 4 = true → natBit 5 3 = true) ∧ arrayBusy quiet 7 71 0 = false ∧
    arrayBusy (onLane { tile with arr := 0, st := 1 } 0) 7 71 (fget quiet (coreB 7 71) F.LOOM_IDX_ARRAY) = true ∧
    (arrOf (run (.loomIdataWrite 7 71 0x51D) quiet) (arrKey 7 71 0)) = ⟨5, 1, 1, 5, none⟩ := by decide +kernel

/-- A core whose operation 1 awaits its verdict, the ladder on. -/
def verdictAt (o : TileOp) (l : List (Nat × Word)) : State := at71 { CoreSt.idle with ops := [o], verdicts := [1] } l

/-- Witnesses of LadderVerdicts. -/
theorem test_ladder : let a := { tile with st := 3, clip := 2000, summ := some summ }
    let p := { a with first := 2, level := 2 }
    let g := at71 { CoreSt.idle with ops := [{ tile with st := 4 }], grantQ := [1] } []
    let g' : State := { g with serve := { g.serve with stormCur := 65536 } }
    let on : State := fset (verdictAt a []) (coreB 7 71) F.CORE_LADCTRL_EN 1
    let off : State := fset on (coreB 7 71) F.CORE_LADCTRL_EN 0
    let gr : State := fset (verdictAt p []) (coreB 7 71) F.CORE_STORM_GRANT 1
    (coreOf off 7 71).verdicts = [1] ∧ tileOp off 7 71 1 = some a ∧ a.no = 1 ∧ a.notFired = 0 ∧ a.deg = false ∧ a.level ≠ 2 ∧ a.level = 0 ∧
    fget off (coreB 7 71) F.CORE_LADCTRL_EN = 0 ∧ fget on (coreB 7 71) F.CORE_LADCTRL_EN = 1 ∧ (coreOf on 7 71).verdicts = [1] ∧ tileOp on 7 71 1 = some a ∧
    inTrouble on 7 71 a = true ∧ a.lean = false ∧ a.summ = some summ ∧ summ.clamp = 0 ∧ summ.dual = true ∧
    (coreOf gr 7 71).verdicts = [1] ∧ tileOp gr 7 71 1 = some p ∧ p.no = 1 ∧ p.notFired = 0 ∧ p.deg = false ∧ p.level = 2 ∧ p.floorExempt = false ∧
    p.summ = some summ ∧ grantLeft gr 7 71 = true ∧ (coreOf up 7 71).grantQ = [] ∧
    (coreOf g' 7 71).grantQ = [1] ∧ (coreOf g' 7 71).p16Q.length ≤ 8 ∧ tileOp g' 7 71 1 = some { tile with st := 4 } ∧ fget g' (coreB 7 71) F.CORE_STORM_USED < min g'.serve.stormCur 65535 ∧
    (coreOf (run (.ladderVerdict 7 71) on) 7 71).redoQ = [1] ∧ (tileOp (run (.ladderVerdict 7 71) off) 7 71 1).map (fun o => o.outcome) = some 1 ∧
    fget (run (.stormGrantWrite 7 71) g') (coreB 7 71) F.CORE_STORM_GRANT = 65535 := by decide +kernel

/-! ### Tally and mender -/

/-- A 21-bit address, or another little-endian number, in three bytes. -/
def b3 (n : Nat) : List Byte := [BitVec.ofNat 8 n, BitVec.ofNat 8 (n / 256), BitVec.ofNat 8 (n / 65536)]

/-- A tally command: operation, the three addresses, N. -/
def tallyB (op a b c n : Nat) : List Byte := [0x10#8, BitVec.ofNat 8 op] ++ b3 a ++ b3 b ++ b3 c ++ [0#8] ++ [BitVec.ofNat 8 n, 0#8, 0#8, 0#8]

/-- A valid target of 1 entry with 0 additions. -/
def target1 (s : State) : State := mwrite s (spadAddr 7 71 0) [0x10#8, 0#8, 1#8, 0#8]

/-- A core with one command in a queue. -/
def oneIn (key : Nat) (body : List Byte) : State := at71 (queued key (cmd body) []) [win0]

abbrev frontPre (key op : Nat) (body : List Byte) (s : State) : Prop :=
  queueAt s 7 71 key = [cmd body] ∧ leAt body 1 1 = op ∧ coreFenced s 7 71 = false ∧ gateHolds s 7 71 (cmd body) = none

/-- Witnesses of TallyClearsAndMerges and TallyAddsAndDrains. -/
theorem test_tally : let cl := tallyB 3 (2 ^ 20 - 32) 0 0 1
    let mg := tallyB 1 0 4096 0 1
    let dr := tallyB 2 0 4096 0 1
    frontPre 18 3 cl (oneIn 18 cl) ∧ isBlocked (oneIn 18 cl) 7 71 1 = false ∧
    Writes (oneIn 18 cl) 7 71 0 (tallyOf cl).a (16 + 16 * (tallyOf cl).n) (2 ^ 20 - 32) ∧
    frontPre 18 1 mg (target1 (oneIn 18 mg)) ∧ isBlocked (target1 (oneIn 18 mg)) 7 71 1 = false ∧ (tallyOf mg).accum = false ∧
    Reads (target1 (oneIn 18 mg)) 7 71 0 0 32 0 ∧ Writes (target1 (oneIn 18 mg)) 7 71 0 4096 32 4096 ∧
    verOk (mread (target1 (oneIn 18 mg)) (spadAddr 7 71 0) 32) = true ∧ leAt (mread (target1 (oneIn 18 mg)) (spadAddr 7 71 0) 32) 2 2 = (tallyOf mg).n ∧
    frontPre 18 2 dr (target1 (oneIn 18 dr)) ∧ (coreOf (target1 (oneIn 18 dr)) 7 71).glitches = [] ∧ Reads (target1 (oneIn 18 dr)) 7 71 0 0 32 0 ∧ isBlocked (target1 (oneIn 18 dr)) 7 71 1 = false ∧ (tallyOf dr).wsen = false ∧
    Writes (target1 (oneIn 18 dr)) 7 71 0 4096 4 4096 ∧ Writes (target1 (oneIn 18 dr)) 7 71 0 4112 16 4112 ∧
    mget (run (.tallyClear 7 71) (oneIn 18 cl)) (spadAddr 7 71 (2 ^ 20 - 32)) = 0x10#8 ∧
    mget (run (.tallyDrain 7 71) (target1 (oneIn 18 dr))) (spadAddr 7 71 4112) = 0x10#8 := by decide +kernel

theorem test_tally_addition : let o := { tile with st := 6, outcome := 1, vals := List.replicate 128 (-1), outAddr := 4096 }
    let s := at71 { CoreSt.idle with ops := [o] } [win0]
    isBlocked s 7 71 1 = false ∧ coreFenced s 7 71 = false ∧ (coreOf s 7 71).glitches = [] ∧ ((coreOf s 7 71).ops.find? fun x => x.no == 1 && x.st == 6) = some o ∧
    tileOp s 7 71 1 = some o ∧ o.no = 1 ∧ o.outcome = 1 ∧ o.accum = false ∧ o.skipped = false ∧ o.deg = false ∧ o.eTile < 256 ∧
    (∀ v ∈ o.vals, v.natAbs < 2 ^ 34) ∧ o.outAddr % 16 = 0 ∧ o.vals.length = 128 ∧ Writes s 7 71 0 o.outAddr (16 + 16 * 128) 4096 := by decide +kernel

/-- A mender command: operation, then k, n and m, BF16 inputs, no weight scales. -/
def mendB (op k n m : Nat) : List Byte :=
  [0x10#8, BitVec.ofNat 8 op] ++ b3 0 ++ b3 8192 ++ b3 16384 ++ b3 0 ++ [0#8, 0#8, 0#8, 0#8, 0#8, 0#8, BitVec.ofNat 8 k, 0#8, BitVec.ofNat 8 n, 0#8,
    BitVec.ofNat 8 (m - 1), 0#8, 1#8, 0#8, 1#8, 0#8, 0#8, 0#8]

/-- Witnesses of MenderResultsAwaitTheirAddition. -/
theorem test_mender : let b := fun op => mendB op 2 1 1
    (∀ op ∈ [1, 2, 3, 4, 5], frontPre 17 op (b op) (oneIn 17 (b op))) ∧ (mendOf (b 1)).wsen = false ∧ (mendOf (b 1)).m = 1 ∧ (mendOf (b 1)).n = 1 ∧
    (∀ op ∈ [1, 2, 5], let m := mendOf (b op)
      Reads (oneIn 17 (b op)) 7 71 0 m.w (m.n * m.k * weightBytes m.wfmt) m.w ∧ Reads (oneIn 17 (b op)) 7 71 0 m.x (m.k * if m.xbf16 then 2 else 4) 0) ∧
    Reads (oneIn 17 (b 4)) 7 71 0 (mendOf (b 4)).x (2 * 1) 0 ∧
    (let t := mendB 3 2 128 1
     frontPre 17 3 t (oneIn 17 t) ∧ (mendOf t).n = 128 ∧ (mendOf t).l = 0 ∧ ((coreOf (oneIn 17 t) 7 71).ops.find? fun o => o.no + 1 == 0) = none) := by
  decide +kernel

/-- Witnesses of RedoneStagedAndCompleted. -/
theorem test_redone_and_staged : let o := { tile with st := 5, level := 2, summ := some summ }
    let s := at71 { CoreSt.idle with ops := [o], p16Q := [1] } [win0]
    let full := at71 { CoreSt.idle with staged := (List.range 8).map fun i => (i + 1, []) } [(0x2608, 191#32)]
    let out := at71 { CoreSt.idle with out := [(8, 1)] } []
    (coreOf s 7 71).p16Q = [1] ∧ tileOp s 7 71 1 = some o ∧ o.no = 1 ∧ o.summ = some summ ∧ Reads s 7 71 0 4096 8 4096 ∧ summ.bf16 = false ∧
    isBlocked s 7 71 1 = false ∧ coverSource s 7 71 = (7, 71) ∧ rereadDue s 7 (.redo 7 71) = false ∧ FoliosClean s 7 ∧ (coreOf s 7 71).p16Held = [] ∧
    fget up (coreB 7 71) F.MEND_DIDX_ENTRY < 192 ∧ (coreOf up 7 71).staged.length < 8 ∧
    (8 ≤ (coreOf full 7 71).staged.length ∧ ∀ p ∈ (coreOf full 7 71).staged, p.1 ≠ fget full (coreB 7 71) F.MEND_DIDX_ARRAY) ∧
    192 ≤ fget (fset up (coreB 7 71) F.MEND_DIDX_ENTRY 192) (coreB 7 71) F.MEND_DIDX_ENTRY ∧
    busyOf out 7 71 8 < outOf out 7 71 8 := by decide +kernel

/-! ### Assay, care and cores -/

/-- An operator over the mailbox; a maker over the mailbox. -/
def oper : Writer := ⟨1, 2, 0, 1⟩
def makr : Writer := ⟨3, 2, 0, 1⟩

theorem test_adcs : let cal := modAdc 7 71 15 135 (fun a => { a with st := 3 }) up
    let sus := modAdc 7 71 15 127 (fun a => { a with st := 4, shade := 4097 }) up
    let bad := modAdc 7 71 15 127 (fun a => { a with st := 4, shade := 4097, strikes := [1, 2, 3] }) up
    let work := modAdc 7 71 15 127 (fun a => { a with st := 3 }) up
    let last := modLane 7 71 15 (fun l => { l with nextAdc := 127 }) up
    let noSpare := (List.range 8).foldl (fun s i => modAdc 7 71 15 (128 + i) (fun a => { a with st := 3 }) s) last
    (adcOf cal 7 71 15 135).st = 3 ∧ laneFenced last 7 71 15 = false ∧ coreFenced last 7 71 = false ∧ (laneOf last 7 71 15).nextAdc = 127 ∧
    (adcOf last 7 71 15 127).st = 0 ∧ freeSpare last 7 71 15 false = some 0 ∧ freeSpare noSpare 7 71 15 false = none ∧
    calPasses (-2022) 1966 128 256 = true ∧ calPasses (-2023) 0 0 0 = false ∧ (adcOf work 7 71 15 127).st = 3 ∧ work.faults.openFaults = [] ∧
    (adcOf sus 7 71 15 127).st = 4 ∧ sus.faults.openFaults = [] ∧ fget sus (coreB 7 71) F.LOOM_SPCHK_WINDOW < (adcOf sus 7 71 15 127).shade ∧
    (adcOf sus 7 71 15 127).strikes.length < fget sus (coreB 7 71) F.LOOM_SPCHK_STRIKES ∧ (adcOf bad 7 71 15 127).st = 4 ∧ bad.faults.openFaults = [] ∧
    fget bad (coreB 7 71) F.LOOM_SPCHK_WINDOW < (adcOf bad 7 71 15 127).shade ∧
    fget bad (coreB 7 71) F.LOOM_SPCHK_STRIKES ≤ (adcOf bad 7 71 15 127).strikes.length ∧
    (adcOf (run (.adcShadowDone 7 71 15 127) sus) 7 71 15 127).st = 0 ∧
    (adcOf (run (.adcSelfCalibrationDone 7 71 15 135 48 (-80) 0 0) cal) 7 71 15 135) = ⟨-3, 5, 1, 0, 0, [], true, 0⟩ ∧
    (adcOf (run (.adcPeriodicCalibration 7 71 15) last) 7 71 15 128).stands = 128 := by decide +kernel

/-- A module in Service with lane 15 of core 71 of die 7 due for a retrace and the reference good. -/
def retracing : State :=
  let s := modDie (fset up hubB F.HUB_SIGSTAT_REFCAL_OK 1) 7 fun x => { x with refOk := true }
  { s with care := { s.care with retrace := [(7, [16 * 71 + 15])] } }

/-- Witnesses of ReferenceAndTraces: a reference check at each side of 50 uV, a lane's trace and a column table. -/
theorem test_reference_and_traces : let s := retracing
    let q := modCare 7 71 (fun x => { x with tabQ := [511] }) up
    traceTurn s 7 71 15 = true ∧ laneFenced s 7 71 15 = false ∧ refCalOkNow s = true ∧ (dieOf s 7).refOk = true ∧ s.faults.openFaults = [] ∧
    (tget (fun _ => (0, false)) s.loom.refs 7).1 = 0 ∧ tget (fun _ => 1) s.loom.caps 7 = 1 ∧ tableAt q 7 71 = some 511 ∧
    (dieOf (run (.referenceCheckDone 7 (-50)) s) 7).refOk = true ∧ (dieOf (run (.referenceCheckDone 7 51) s) 7).refOk = false ∧
    tget (fun _ => []) up.care.retrace 7 = [] ∧ 7 ∉ (run (.referenceCheckDone 7 50) up).care.refWait := by decide +kernel

/-- Witnesses of WitnessesBoundsAndAges. -/
theorem test_witnesses_and_ages : let s : State := { quiet with probes := [(arrKey 7 71 511, List.replicate 64 [0, 0, 384, -384, 192, -192, 48, -48])] }
    let w : State := { fset up (coreB 7 71) F.ASSY_WSTAT_SETTLING 0 with therm := [(7, { Therm.start with tj := [(71, 5440)] })] }
    let c : State := { up with therm := [(7, { Therm.start with tj := [(71, 639)] })] }
    nextEval quiet 7 71 = some 511 ∧
    (arrOf s (arrKey 7 71 511)).st = 2 ∧ laneFenced s 7 71 (511 % 16) = false ∧ (winOf s (halfDie 7 71)).st ≠ 3 ∧ (∀ k, k < 8 → adcCorr s 7 71 (511 % 16) k = 0) ∧
    odNum s 0x4203 ≤ 64 ∧ (∀ p ∈ tget (fun _ => []) s.probes (arrKey 7 71 511), p.drop 2 = [384, -384, 192, -192, 48, -48]) ∧
    assaying s 7 71 = false ∧ (accOf s (arrKey 7 71 511)).stale = false ∧
    meanJunction w 7 71 = 85 ∧ junction w 7 71 = 5440 ∧ fget w (coreB 7 71) F.ASSY_WSTAT_SETTLING = 0 ∧ fget w (coreB 7 71) F.LOOM_STAT_FRUGAL_ACT = 0 ∧
    (accOf w (arrKey 7 71 511)).untraced = false ∧ devPct (accOf w (arrKey 7 71 511)).dev2 ≤ 1 / 4 ∧ (accOf w (arrKey 7 71 511)).lag = false ∧
    junction c 7 71 < 640 ∧
    entriesLag ({ w with loom := { w.loom with accs := [(arrKey 7 71 511, { Acc.none with ts := 5440 })] } } : State) 7 71 511 = false := by decide +kernel

/-- A core whose full core assay has ended its stages: lanes 0 to 14 fenced, lane 15 traced and calibrated, its array 511 swept and tabulated. -/
def assayed : State :=
  let s := fset (modLane 7 71 15 (fun l => { l with ran := true }) quiet) (coreB 7 71) F.LOOM_STAT_LANE_FENCED 0x7FFF
  let s := { s with loom := { s.loom with adcs := (List.range 136).map fun n => (laneKey 7 71 15 * 256 + n, { Adc.at n with cal := true }) } }
  modCare 7 71 (fun x => { x with assay := 1, swept := [511], tabbed := [511] }) s

/-- The last stage of a full core assay, a base recorded in it, and a start-up in which the sweep of a core whose lanes are traced may go on. -/
theorem test_assay_stages : fullAssayRuns assayed 7 71 = true ∧ assayStages assayed 7 71 = true ∧ (∀ p ∈ (dieOf assayed 7).rehome, p.2 ≠ 71) ∧
    assaying assayed 7 71 = true ∧ sweepTurn assayed 7 71 = true ∧ fget (run (.fullCoreAssayDone 7 71) assayed) (coreB 7 71) F.ASSY_WSTAT_SETTLING = 1 ∧
    (careOf (run (.fullCoreAssayDone 7 71) assayed) 7 71).assay = 0 := by decide +kernel

/-- An activity request: KIND, die, core, target (Table 9.12). -/
def act (k d c t : Nat) : OdVal := .num (k + 256 * d + 2048 * c + 2 ^ 18 * t)

theorem test_activities : let m := odSet up 0x8021 0 1
    (∀ p ∈ [(1, 0), (2, 15), (3, 15), (4, 511), (5, 0)], odCheck inst 0x4340 0 (act p.1 7 71 p.2) (dieState up 7 != 3) up = 0 ∧ activityStatus up (act p.1 7 71 p.2).nat = 0) ∧
    (laneOf up 7 71 15).nextAdc = 0 ∧ (adcOf up 7 71 15 0).st = 0 ∧ freeSpare up 7 71 15 false ≠ none ∧ (careOf up 7 71).asked = false ∧
    odCheck makr 0xF100 0 (.num (511 + 512 * 71 + 65536 * 7)) (dieState m 7 != 3) m = 0 ∧ selArray (511 + 512 * 71 + 65536 * 7) = some (7, 71, 511) ∧
    (careOf (run (.activityFullCoreAssay inst (act 5 7 71 0)) up) 7 71).asked = true := by decide +kernel

/-- A core whose engine programs array 15 at row `r`, column group `g`, at 20 °C. -/
def programming (r g : Nat) (paused : Bool) (st : Nat) : State :=
  let s := modArr (arrKey 7 71 15) (fun a => { a with st := st }) up
  { modCare 7 71 (fun x => { x with prog := some ⟨15, 0, r, paused, 0, [], 0, [], g, 0, [], []⟩ }) s with
    therm := [(7, { Therm.start with tj := [(71, 1280)] })] }

/-- Witnesses of ProgrammingWritesItsRow, at the last row and group, in range and out of it. -/
theorem test_programming : let p := programming 511 12 false 1
    let e := programming 511 13 false 1
    let r := programming 0 0 true 4
    (careOf p 7 71).prog = some ⟨15, 0, 511, false, 0, [], 0, [], 12, 0, [], []⟩ ∧ pulseRange p 7 71 = true ∧ (arrOf p (arrKey 7 71 15)).st = 1 ∧
    (∀ k, k < 2 → (memcOf p 7 k).bad = []) ∧ (careOf e 7 71).prog = some ⟨15, 0, 511, false, 0, [], 0, [], 13, 0, [], []⟩ ∧ (arrOf e (arrKey 7 71 15)).st = 1 ∧
    pulseRange ({ p with therm := [] } : State) 7 71 = false ∧ halted r = false ∧ dieState r 7 = 2 ∧ codesHeld r (arrKey 7 71 15) = true ∧
    pulseRange r 7 71 = true ∧ (arrOf (run (.programmingResume 7 71) r) (arrKey 7 71 15)).st = 1 ∧
    ((careOf (run (.programmingRowDone 7 71) e) 7 71).prog.map fun p => p.row) = some 512 := by decide +kernel

/-- Witnesses of WriteWindows on half-die 15. -/
theorem test_windows : let q := modCare 7 6 (fun x => { x with queue := [511] }) up
    let asked := modWin 15 (fun w => { w with st := 2 }) q
    let isOpen := modWin 15 (fun w => { w with st := 3 }) up
    (winOf up 15).st = 0 ∧ (winOf up 15).again = false ∧ up.care.winQ = [] ∧ (winOf asked 15).again = false ∧ asked.care.winQ = [] ∧ odNum up 0x4314 = 0 ∧ halfHasWork q 15 = true ∧ grantable up 15 = true ∧
    odCheck oper 0x4315 0 (.num 15) (dieState up 7 != 3) up = 0 ∧ (winOf asked 15).st = 2 ∧ halfWithin asked 15 = true ∧ 6 ∈ halfCores 1 ∧
    (careOf asked 7 6).queue = [511] ∧ (careOf asked 7 6).prog = none ∧ coreFenced asked 7 6 = false ∧ asked.loom.perm = [] ∧ ArrPerm.none.cyc < 10000 ∧ (winOf isOpen 15).again = false ∧ (winOf asked 15).closing = false ∧
    (winOf isOpen 15).forced = false ∧ halfBusy isOpen 15 = false ∧ (winOf (modWin 15 (fun w => { w with gap := true }) up) 15).gap = true ∧
    halfBusy (modWin 15 (fun w => { w with st := 3 }) (modCare 7 6 (fun x => { x with prog := some ⟨15, 0, 0, false, 0, [], 0, [], 0, 0, [], []⟩ }) up)) 15 = true := by
  decide +kernel

theorem test_tests_and_assays : let en := fset up (coreB 7 71) F.CORE_ID_ENABLED 1
    let due := modCare 7 71 (fun x => { x with test := 1, assay := 1, arrReq := [511] }) en
    let mid := fset (fset due (coreB 7 71) F.CORE_STAT_BOUNDARY 0) (coreB 7 71) F.CORE_TCTL_VALID 1
    coreEnabled en 7 71 = true ∧ coreFenced en 7 71 = false ∧ (careOf due 7 71).test = 1 ∧ coreFree due 7 71 = true ∧ 
    (careOf mid 7 71).test = 1 ∧ fget mid (coreB 7 71) F.CORE_STAT_SLOT = 0 ∧ fget mid (coreB 7 71) F.CORE_STAT_BOUNDARY = 0 ∧
    fget mid (coreB 7 71) F.CORE_TCTL_VALID 0 = 1 ∧ (∀ i, i < 4 → i ≠ 0 → fget mid (coreB 7 71) F.CORE_TCTL_VALID i = 0) ∧
    due.faults.openFaults = [] ∧ (careOf due 7 71).prog = none ∧ 511 ∈ (careOf due 7 71).arrReq ∧
    (careOf (programming 512 0 false 1) 7 71).prog = some ⟨15, 0, 512, false, 0, [], 0, [], 0, 0, [], []⟩ ∧ (arrOf (programming 512 0 false 1) (arrKey 7 71 15)).st = 1 ∧
    (winOf due (halfDie 7 71)).st ≠ 3 ∧ (winOf (programming 512 0 false 1) (halfDie 7 71)).st ≠ 3 ∧
    fget (run (.deferDeadline 7 71) mid) (coreB 7 71) F.CORE_TCTL_PREEMPT 0 = 1 := by decide +kernel

/-- A running core in the middle of a stitch of slot 0, whose pattern window (one page at 128 KiB) begins with an entry of engine `eng`. -/
def running (eng : Nat) (body : List Byte) (l : List (Nat × Word)) : State :=
  let s := at71 { CoreSt.idle with tasks := [(0, ⟨0, 5, 4096, 0, 0, false, [], 0, [], false⟩)] } ([win0, (0x0, 0x0447#32), (0x8, 0x4#32), (0x10c, 0x00010100#32), (0x100, 1#32)] ++ l)
  mwrite s (spadAddr 7 71 (256 * 4096)) ([0x10#8, BitVec.ofNat 8 eng] ++ List.replicate 14 0#8 ++ body)

theorem test_sequencer : Issues (running 3 (tallyB 3 0 0 0 1) []) 7 71 0 3 (tallyB 3 0 0 0 1) := by decide +kernel

theorem test_sequencer_stalled : let s := fset (running 3 (tallyB 3 0 0 0 1) []) (coreB 7 71) F.CORE_STAT_STALL_Q 1
    Issues s 7 71 0 3 (tallyB 3 0 0 0 1) ∧ fget s (coreB 7 71) F.CORE_STAT_STALL_Q = 1 ∧ (queueAt s 7 71 15).length < 4 ∧
    fget (run (.sequencerIssue 7 71) s) (coreB 7 71) F.CORE_TPC_PC 0 = 32 := by decide +kernel

/-- A slot's settings: windows of 1 MiB and 64 KiB. -/
def cfg : SlotCfg := ⟨65535, 65535, 1, 0, 256, 256, 16, 0, 511, true, 0, 1, 0, 0, 0, 1, 0, 0, 0, [], []⟩

/-- Witnesses of TaskSlots: settings that fit and one that does not, a slot of a task at its boundary and in the middle of its stitch. -/
theorem test_task_slots : let v := fset up (coreB 7 71) F.CORE_TCTL_VALID 1 3
    let m := fset (fset v (coreB 7 71) F.CORE_STAT_SLOT 3) (coreB 7 71) F.CORE_STAT_BOUNDARY 0
    let big := { cfg with tlen := 257 }
    fget up (coreB 7 71) F.CORE_TCTL_VALID 3 = 0 ∧ fromRole up 7 71 cfg = cfg ∧ windowsOk (growShared 7 71 cfg up) 7 71 3 cfg = true ∧ patternOk up 7 71 3 cfg = true ∧
    roleBlocked up cfg.binding cfg.step 7 71 = false ∧ fromRole up 7 71 big = big ∧ windowsOk (growShared 7 71 big up) 7 71 3 big = false ∧
    fget v (coreB 7 71) F.CORE_TCTL_VALID 3 = 1 ∧ fget v (coreB 7 71) F.CORE_STAT_BOUNDARY = 1 ∧ fget m (coreB 7 71) F.CORE_STAT_SLOT = 3 ∧
    fget m (coreB 7 71) F.CORE_STAT_BOUNDARY = 0 ∧ fget m (coreB 7 71) F.CORE_TCTL_VALID 3 = 1 ∧
    fget (run (.taskPreempt 7 71 3) m) (coreB 7 71) F.CORE_TCTL_PREEMPT 3 = 1 ∧ fget (run (.taskSlotClear 7 71 3) v) (coreB 7 71) F.CORE_TCTL_VALID 3 = 0 ∧
    fget (run (.taskSlotValidate 7 71 3 cfg) up) (coreB 7 71) F.CORE_TCTL_TENANT 3 = 65535 := by decide +kernel

theorem test_stitches : let s := at71 { CoreSt.idle with ending := true, failed := [0], staged := [(511, [])] } [(0x8, 0x4#32)]
    stitchDone s 7 71 = true ∧ stopWanted s = false ∧ (taskOf s 7 71 0).leaving = false ∧ fget s (coreB 7 71) F.CORE_TCTL_PREEMPT 0 = 0 ∧
    (careOf s 7 71).stageQ = [] ∧ (coreOf s 7 71).taken = false ∧ ((coreOf s 7 71).staged.map fun p => p.1).Nodup ∧ fget s (coreB 7 71) F.CORE_STAT_SLOT = 0 ∧ fget s (coreB 7 71) F.CORE_STAT_BOUNDARY = 0 ∧
    coreFenced s 7 71 = false ∧ s.faults.openFaults = [] ∧ 0 ∈ (coreOf s 7 71).failed ∧
    fget (run (.stitchBoundary 7 71) s) (coreB 7 71) F.CORE_STAT_BOUNDARY = 1 := by decide +kernel

theorem test_scratchpad : let r : Remote := ⟨1, 7, 71, 0, 0, 2 ^ 20 - 4, [1#8, 2#8, 3#8, 4#8], 0, []⟩
    let s : State := { at71 CoreSt.idle [win0, (0x100, 1#32)] with wire := [r] }
    let n : State := { up with wire := [r] }
    let q : Issued := ⟨1, 0, 0, [], [(0, 1)], [], 0⟩
    let rel := at71 { CoreSt.idle with relDue := [(0, 31)], ds := [(31, ⟨4096, 8, true, 1, true, 8⟩)], queues := [(19, [q])], held := [⟨19, 0, 0, 1⟩] } [win0]
    let poi := fset (at71 { CoreSt.idle with poisoned := [64] } []) (coreB 7 71) F.CORE_SHWIN_SBASE 1
    let poi' := fset poi (coreB 7 71) F.CORE_SHWIN_SLEN 1
    s.wire[0]? = some r ∧ isPush r = false ∧ n.wire[0]? = some r ∧ taskSlot s 7 71 0 0 = some 0 ∧ relMap s 7 71 0 (2 ^ 20 - 4) 4 true = some (2 ^ 20 - 4) ∧ taskSlot n 7 71 0 0 = none ∧
    (0, 31) ∈ (coreOf rel 7 71).relDue ∧ stillReads rel 7 71 0 31 = false ∧ (∀ w ∈ wordsOf 4096 8, inWords (coreOf (run (.dataSlotRelease 7 71 0 31) rel) 7 71).unfilled w = true) ∧
    fget rel (coreB 7 71) F.CORE_PATCTL_POISON = 0 ∧
    fget (fset rel (coreB 7 71) F.CORE_PATCTL_POISON 1) (coreB 7 71) F.CORE_PATCTL_POISON = 1 ∧ (dslotOf rel 7 71 0 31).base = 4096 ∧
    relMap rel 7 71 0 4096 8 true = some 4096 ∧ (∃ h ∈ (coreOf rel 7 71).held, h.key = 19) ∧ queueAt rel 7 71 19 = [q] ∧ gateHolds rel 7 71 q = some (0, 1) ∧
    64 ∈ (coreOf poi' 7 71).poisoned ∧ fget poi' (coreB 7 71) F.CORE_SHWIN_SBASE * 64 ≤ 64 ∧
    64 < fget poi' (coreB 7 71) F.CORE_SHWIN_SBASE * 64 + fget poi' (coreB 7 71) F.CORE_SHWIN_SLEN * 64 ∧
    mget (run (.remoteWriteArrival 0) s) (spadAddr 7 71 (2 ^ 20 - 1)) = 4#8 := by decide +kernel

/-! ### Vector, attention and porter commands -/

/-- A vector command: operation, N, formats (source + 4 × destination), MODE. Sources at 0 and 4096, destination at 8192. -/
def vecB (op n fmt mode : Nat) (aux : Nat) : List Byte :=
  [0x10#8, BitVec.ofNat 8 op] ++ b3 0 ++ b3 4096 ++ b3 8192 ++ b3 aux ++ [BitVec.ofNat 8 n, BitVec.ofNat 8 (n / 256), BitVec.ofNat 8 fmt, BitVec.ofNat 8 mode] ++
    List.replicate 14 0#8

theorem test_vector : (∀ p ∈ [(5, 0), (6, 0), (3, 0), (3, 1), (7, 0), (2, 0), (2, 1), (2, 2), (4, 1)],
      let b := vecB p.1 3 0 p.2 0
      frontPre 19 p.1 b (oneIn 19 b) ∧ (vecOf b).mode = p.2 ∧ (vecOf b).n = 3 ∧ (vecOf b).sfmt = 0 ∧ (vecOf b).dfmt = 0) ∧
    (let s := oneIn 19 (vecB 5 3 0 0 0)
     Reads s 7 71 0 0 12 0 ∧ Reads s 7 71 0 4096 12 4096 ∧ Reads s 7 71 0 4096 6 4096 ∧ Reads s 7 71 0 0 4 0 ∧ Writes s 7 71 0 8192 12 8192 ∧ Writes s 7 71 0 8192 4 8192 ∧
     mread (run (.vecAdd 7 71) (mwrite (mwrite s (spadAddr 7 71 2) [0x80#8, 0x3F#8]) (spadAddr 7 71 4098) [0x80#8, 0x3F#8])) (spadAddr 7 71 8192) 4 =
       [0#8, 0#8, 0#8, 0x40#8]) := by decide +kernel

theorem test_quant_and_cnt : let b := vecB 1 2 1 2 0
    let k := vecB 9 2 0 16 0
    frontPre 19 1 b (oneIn 19 b) ∧ (vecOf b).aux = 0 ∧ (vecOf b).n ≤ 512 ∧ natBit (vecOf b).mode 1 = true ∧ Reads (oneIn 19 b) 7 71 0 0 4 0 ∧
    Writes (oneIn 19 b) 7 71 0 8192 272 8192 ∧ Writes (oneIn 19 b) 7 71 0 8704 528 8704 ∧ (coreOf (oneIn 19 b) 7 71).summs.length < 64 ∧
    frontPre 19 9 k (oneIn 19 k) ∧ Reads (oneIn 19 k) 7 71 0 0 8 0 ∧ Writes (oneIn 19 k) 7 71 0 8192 4 8192 ∧ natBit (vecOf k).mode 4 = true := by decide +kernel

/-- Candidate records of one candidate at 0 and 4096, and a greedy row at 16384. -/
def sampling (mode : Nat) (n : Nat) : State :=
  let s := oneIn 19 (vecB 8 n 0 mode 16384)
  let r : Cands := ⟨false, 0, 0x3F800000, [(5, 0)]⟩
  mwrite (mwrite s (spadAddr 7 71 0) (candsBytes r)) (spadAddr 7 71 4096) (candsBytes r)

theorem test_sampling : (∀ m ∈ [0, 1, 2, 3], frontPre 19 8 (vecB 8 1 0 m 16384) (sampling m 1) ∧ (vecOf (vecB 8 1 0 m 16384)).mode = m) ∧
    Reads (sampling 0 1) 7 71 0 0 4 0 ∧ Writes (sampling 0 1) 7 71 0 8192 528 8192 ∧ f32Nan 0 = false ∧
    Reads (sampling 1 1) 7 71 0 0 528 0 ∧ Reads (sampling 1 1) 7 71 0 4096 528 4096 ∧
    f32Nan (candsOf (mread (sampling 1 1) (spadAddr 7 71 0) 528)).m = false ∧ (candsOf (mread (sampling 1 1) (spadAddr 7 71 0) 528)).list = [(5, 0)] ∧
    Reads (sampling 2 1) 7 71 0 16384 64 16384 ∧ Reads (sampling 3 1) 7 71 0 16384 80 16384 ∧ Writes (sampling 2 1) 7 71 0 8192 16 8192 ∧
    (sampleRowOf (mread (sampling 2 1) (spadAddr 7 71 16384) 64)).greedy = true ∧
    mread (run (.sampleDraw 7 71) (sampling 2 1)) (spadAddr 7 71 8192) 8 = [0x10#8, 2#8, 0#8, 0#8, 5#8, 0#8, 0#8, 0#8] := by decide +kernel

/-- A step table of one row of one position. -/
def table1 : List Byte := ([0x10#8, 0#8, 1#8, 0#8] ++ List.replicate 264 0#8) ++ [1#8] ++ List.replicate 51 0#8

/-- An attention command (query at 4096, states at 8192, output at 16384, one head, FIRST) with its blocks in place; fresh block at 12288. -/
def attnB (op : Nat) : List Byte := [0x10#8, BitVec.ofNat 8 op] ++ b3 4096 ++ b3 8192 ++ b3 16384 ++ [1#8, 1#8] ++ List.replicate 19 0#8

def attending (op : Nat) : State :=
  let s := at71 { queued 20 (cmd (attnB op)) [] with rowBuf := [(0, table1)] } [win0]
  let s := mwrite s (spadAddr 7 71 4096) ([0x10#8, 0#8, 0#8, 0#8, 1#8, 0#8, 0#8, 0#8] ++ b3 12288)
  let s := mwrite s (spadAddr 7 71 12288) [0x10#8, 0#8, 0#8, 0#8, 1#8]
  mwrite (mwrite s (spadAddr 7 71 8192) [0x10#8]) (spadAddr 7 71 16384) [0x10#8]

theorem test_attention : (∀ op ∈ [1, 2, 3], frontPre 20 op (attnB op) (attending op) ∧ runOf (attending op) 7 71 4 = none) ∧
    (let s := attending 1
     let a := attnOf (attnB 1)
     let h := mread s (spadAddr 7 71 4096) 16
     tget (fun _ => []) (coreOf s 7 71).rowBuf 0 = table1 ∧ table1 ≠ [] ∧ Reads s 7 71 0 a.q 16 4096 ∧ queryOk a.q h = true ∧ leAt h 2 2 = 0 ∧
     min (leAt h 4 2) (tableTotal (tableRows table1) - 0) = 1 ∧ a.heads = 1 ∧ addr21 h 8 = 12288 ∧ Reads s 7 71 0 12288 16 12288 ∧
     freshOk 12288 (mread s (spadAddr 7 71 12288) 16) = true ∧ leAt (mread s (spadAddr 7 71 12288) 16) 4 2 = 1 ∧ Reads s 7 71 0 12288 272 12288 ∧
     Reads s 7 71 0 4112 128 4112 ∧ a.first = true ∧ Reads s 7 71 0 8192 528 8192 ∧ Writes s 7 71 0 8192 528 8192 ∧
     statesOk 1 (mread s (spadAddr 7 71 8192) 528) = true ∧ statesOk 1 (mread s (spadAddr 7 71 16384) 528) = true ∧ Reads s 7 71 0 16384 528 16384 ∧
     Writes s 7 71 0 16384 512 16384 ∧ pageRanges (kvGeom s 7 71 0) a (servedRows (tableRows table1) 0 1) = []) := by decide +kernel

/-- A descriptor of 16 bytes: operation, flags, source 0, destination 4096 (bits 62–63 by `hi`), list at 8192 of one element. -/
def portB (op flags hi : Nat) : List Byte := (List.range 64).map fun i =>
  BitVec.ofNat 8 (tget (fun _ => 0) [(0, 0x10), (1, op), (2, flags), (17, 16), (23, hi), (24, 16), (33, 32), (36, 1)] i)

/-- A core of which channel 3 has descriptor `b`; VA page 0 is translated to DRAM page 1 of die 7, for reads, writes and appends. -/
def porting (b : List Byte) : State :=
  let s := at71 { queued 24 (cmd b) [] with tlb := [⟨0, 0, false, 7 * 2 ^ 48 + 0x1000C⟩], rowBuf := [(0, table1)] } [win0]
  mwrite s (spadAddr 7 71 0) [0x10#8, 0#8, 0#8, 0#8, 1#8]

def run0 (b : List Byte) : Run := ⟨cmd b, 0, .go, [], [], [], []⟩

/-- Witnesses of PorterMoves: COPY in the window, GATHER from and SCATTER and APPEND to a page of the die's DRAM, PUSH to the core above. -/
theorem test_porter : (∀ p ∈ [(1, 6, 0), (2, 4, 0), (3, 2, 0), (4, 2, 0), (5, 2, 0), (4, 2, 0xC0)], let b := portB p.1 p.2.1 p.2.2
      frontPre 24 p.1 b (porting b) ∧ runOf (porting b) 7 71 3 = none ∧ (portOf b).decrypt = false ∧ (portOf b).total = 16 ∧
      isKv (portOf b) = decide (p.2.2 = 0xC0) ∧ appendRoom (porting b) 7 71 16 = true) ∧
    (let s := porting (portB 1 6 0)
     Reads s 7 71 0 0 16 0 ∧ Writes s 7 71 0 4096 16 4096 ∧ Reads s 7 71 0 8192 8 8192 ∧ mread s (spadAddr 7 71 8192) 8 = List.replicate 8 0#8 ∧
     (∀ i, i < 16 → srcVa (portOf (portB 1 6 0)) [] i = none ∧ dstVa (portOf (portB 1 6 0)) [] i = none) ∧
     ∀ i, i < 16 → ∀ j, j < 16 → spadAddr 7 71 (0 + i) / 4 ≠ spadAddr 7 71 (4096 + j) / 4) ∧
    neighbour 71 0 = some 59 ∧ (portOf (portB 5 2 0)).dir = 0 ∧ (portOf (portB 5 2 0)).srcLocal = true ∧ 0 < (portOf (portB 5 2 0)).len ∧
    coreFenced (porting (portB 5 2 0)) 7 59 = false := by decide +kernel

/-- A translated page of the die's DRAM at which a list's one element begins. -/
theorem test_porter_lists : (∀ p ∈ [(2, 4), (3, 2), (4, 2)], let b := portB p.1 p.2 0
      let s := porting b
      (∀ k, k < 2 → (memcOf s 7 k).bad = []) ∧ dieNum s 7 = 7 ∧ leChunks 8 1 (mread s (spadAddr 7 71 8192) 8) = [0] ∧
      ∀ i, i < 16 → xlate s 7 71 (run0 b) i (p.1 != 2) (p.1 == 4) = .ok (7 * 2 ^ 50 + 0x10000 + i) ∧ (7 * 2 ^ 50 + 0x10000 + i) / 2 ^ 50 = 7 ∧
        (7 * 2 ^ 50 + 0x10000 + i) / 2 ^ 48 % 4 = 0 ∧ (if p.1 = 2 then srcVa (portOf b) [0] i = some i ∧ dstVa (portOf b) [0] i = none
          else srcVa (portOf b) [0] i = none ∧ dstVa (portOf b) [0] i = some i)) := by decide +kernel

/-- A descriptor that decrypts 4,096 bytes under key slot 255. -/
def decB : List Byte := (List.range 64).map fun i => BitVec.ofNat 8 (tget (fun _ => 0) [(0, 0x10), (1, 1), (2, 7), (4, 255), (17, 16), (25, 16)] i)

/-- COPYs that decrypt with and without their key, an APPEND past the buffer's 128 records, and a PUSH to a fenced core. -/
theorem test_porter_refused : let s := porting decB
    let k : State := { s with models := { s.models with keys := [(255, some ⟨0, true, List.replicate 64 0x11#8⟩)] } }
    let full := modCore (porting (portB 4 2 0)) 7 71 fun x => { x with appends := List.replicate 128 ⟨0, 1, 0, 7, 0, 0, [(0, [0#8])], []⟩ }
    frontPre 24 1 decB s ∧ (portOf decB).decrypt = true ∧ (portOf decB).srcLocal = true ∧ (portOf decB).dstLocal = true ∧ (portOf decB).len % 4096 = 0 ∧
    Reads k 7 71 0 0 4096 0 ∧ Writes k 7 71 0 4096 4096 4096 ∧ taskKey k 7 71 0 (portOf decB).keyslot = some (List.replicate 64 0x11#8) ∧
    taskKey s 7 71 0 (portOf decB).keyslot = none ∧ (portOf decB).total = 4096 ∧ appendRoom full 7 71 16 = false ∧ isKv (portOf (portB 4 2 0)) = false ∧
    neighbour 71 2 = none ∧ neighbour 11 1 = none ∧ coreFenced (fset up (coreB 7 59) F.CORE_ID_FENCED 1) 7 59 = true ∧
    0 ∈ (coreOf (run (.porterCopy 7 71 3) s) 7 71).failed := by decide +kernel

theorem test_porter_kv : let b := portB 4 2 0xC0
    let s := fset (porting b) (coreB 7 59) F.CORE_ID_ENABLED 1
    let fb := mread s (spadAddr 7 71 0) 272
    coreEnabled s 7 59 = true ∧ coreFenced s 7 59 = false ∧
    freshOk 0 (mread s (spadAddr 7 71 0) 16) = true ∧ Reads s 7 71 0 0 272 0 ∧ (kvElems (kvGeom s 7 71 0) (tableRows table1) fb).length = 1 ∧
    (∀ e ∈ kvElems (kvGeom s 7 71 0) (tableRows table1) fb, kvVa (kvGeom s 7 71 0) e.2.2.kva 4096 e.2.1 = 4096) ∧
    xlate s 7 71 (run0 b) 4096 true true = .ok (7 * 2 ^ 50 + 0x11000) ∧ xlate s 7 71 (run0 b) 0x3000 true true = .ok (7 * 2 ^ 50 + 0x13000) ∧
    appendRoom s 7 71 256 = true ∧ (coreOf (run (.kvAppend 7 71 3) s) 7 71).appends.length = 1 := by decide +kernel

/-- A channel that waits in state `w`, the context table entry of context 0 valid with its level-1 table at 4096. -/
def waiting (w : Wait) : State :=
  let s := setRun 7 71 3 (some ⟨cmd (portB 1 4 0), 0, w, [], [], [], []⟩) (porting (portB 1 4 0))
  mwrite s (dramAddr 7 0) [0#8, 1#8, 0#8, 0#8, 1#8]

/-- Its tables of levels 1 to 3, the last with a leaf of 2 MiB. -/
def mapped (w : Wait) : State :=
  let s := mwrite (waiting w) (dramAddr 7 0x1000) [1#8, 0x20#8, 0#8, 0#8, 0#8, 0#8, 7#8]
  mwrite (mwrite s (dramAddr 7 0x2000) [1#8, 0x30#8, 0#8, 0#8, 0#8, 0#8, 7#8]) (dramAddr 7 0x3000) [7#8, 0#8, 0#8, 0#8, 0#8, 0#8, 7#8]

theorem test_translation : let w := waiting (.walk 0 false)
    let f := waiting (.fault 1 1 0 false)
    runOf w 7 71 3 = some ⟨cmd (portB 1 4 0), 0, .walk 0 false, [], [], [], []⟩ ∧ pageWalk w 7 0 0 0 = .bad 1 1 ∧
    pageWalk (mapped (.walk 0 false)) 7 0 0 0 = .leaf true (7 * 2 ^ 48 + 7) ∧ (∀ k, k < 2 → (memcOf w 7 k).bad = []) ∧ (coreOf w 7 71).upsets = [] ∧ w.faults.openFaults = [] ∧
    runOf f 7 71 3 = some ⟨cmd (portB 1 4 0), 0, .fault 1 1 0 false, [], [], [], []⟩ ∧ (portOf (portB 1 4 0)).srcLocal = false ∧
    (portOf (portB 1 4 0)).dstLocal = true ∧ xlate f 7 71 (run0 (portB 1 4 0)) 0 false false = .ok (7 * 2 ^ 50 + 0x10000) ∧ dieNum f 7 = 7 ∧
    Writes f 7 71 0 4096 16 4096 ∧ runOf (run (.xrespResume 7 71 3) f) 7 71 3 = none ∧ (coreOf (run (.xrespFail 7 71 3) f) 7 71).failed = [0] := by decide +kernel

/-! ### The die network and memory -/

theorem test_quiet : (∀ e, (dieOf up e).barDone = false) ∧ ∀ g, (gopOf up g).isOpen = false := ⟨fun _ => rfl, fun _ => rfl⟩

theorem test_die_network : let n := fun k => setResent 7 71 3 k up
    let bar := fset (fset up (coreB 7 71) F.CORE_ID_ENABLED 1) (coreB 7 70) F.CORE_ID_ENABLED 1
    let clk := fset (fset up (coreB 7 71) F.CORE_CLK_CHANGING 1) (dieB 7) F.MESH_HCLK_CHANGING 1 1
    71 ∉ (dieOf up 7).outRouters ∧ resentAt up 7 71 3 = 0 ∧ resentAt (n 1) 7 71 3 = 1 ∧ resentAt (n 2) 7 71 3 = 2 ∧ (n 2).faults.openFaults = [] ∧
    fget (fset up (dieB 7) F.MESH_ROUTE_BUSY 1) (dieB 7) F.MESH_ROUTE_BUSY = 1 ∧ worstCore up 7 = none ∧
    (dieOf (modDie up 7 fun x => { x with fwUp := true }) 7).fwUp = true ∧ dieState up 7 ≤ 3 ∧ fget up hubB F.FLT_MSTAT_DIEREACT ≠ 2 ∧
    coreEnabled bar 7 71 = true ∧ coreFenced bar 7 71 = false ∧ 71 ∉ (dieOf bar 7).barrier ∧ fget bar (dieB 7) F.MESH_STAT_SEAM_LOST = 0 ∧
    fget clk (coreB 7 71) F.CORE_CLK_CHANGING = 1 ∧ halfOf 71 = 1 ∧ fget clk (dieB 7) F.MESH_HCLK_CHANGING 1 = 1 ∧
    (dieOf (run (.dieBarrierArrive 7 71) bar) 7).barrier = [71] := by decide +kernel

/-- The stacks of die 7 filled. -/
def filled : State := fset (fset up (dieB 7) F.MEMC_STAT_FILLED 1 0) (dieB 7) F.MEMC_STAT_FILLED 1 1

/-- Witnesses of DramAccessesAndFolios: accesses at the last byte of a die's DRAM, in a folio that a remap copy holds, and past the end; write merges. -/
theorem test_dram : let off := 0x17FFFFFFFF
    let st := stackOf (folioOf off)
    let held := modMemc 7 st (fun m => { m with copying := some (folioOf off / 2, 15) }) filled
    let buf := modMemc 7 1 (fun m => { m with buf := [(25165823, [(0, [1#8])])] }) filled
    let full := modMemc 7 1 (fun m => { m with buf := [(25165823, [(0, List.replicate 2048 1#8)])] }) filled
    dramServes filled 7 off = true ∧ folioHeld filled 7 off = false ∧ folioHeld held 7 off = true ∧ dramServes held 7 off = true ∧
    dramServes filled 7 0x1800000000 = false ∧ errorsIn filled 7 st (folioOf off / 2) = [] ∧ isUncorr (folioRead filled 7 st (folioOf off / 2)).1 = false ∧
    ((memcOf buf 7 1).buf.find? fun x => x.1 == 25165823) = some (25165823, [(0, [1#8])]) ∧ coversFolio [(0, 1)] = false ∧
    ((memcOf full 7 1).buf.find? fun x => x.1 == 25165823) = some (25165823, [(0, List.replicate 2048 1#8)]) ∧ coversFolio [(0, 2048)] = true ∧
    errorsIn buf 7 1 25165823 = [] ∧ (∀ k, k < 2 → (memcOf filled 7 k).bad = []) ∧
    mget (run (.dramWrite 7 off [9#8]) filled) (dramAddr 7 off) = 9#8 := by
  decide +kernel

/-- The stacks of die 7 filled at strength code `c`, folio 0 of stack 1 in error by one symbol, or two symbols of one codeword, and read on behalf of `who`. -/
def erring (c : Nat) (sym : List (Nat × Nat)) (q : List (Nat × Nat × MemUser)) : State :=
  let s := fset (fset filled (dieB 7) F.MEMC_CTRL_STRENGTH_ACT c 1) (dieB 7) F.MEMC_CTRL_SCRUB_EN 1 1
  modMemc 7 1 (fun m => { m with bad := [⟨0, sym, 3⟩], reread := q, prevPass := [0] }) s

theorem erring_read (c : Nat) (sym : List (Nat × Nat)) (q : List (Nat × Nat × MemUser)) (hs : errorsIn (erring c sym q) 7 1 0 = sym)
    (hc : fget (erring c sym q) (dieB 7) F.MEMC_CTRL_STRENGTH_ACT 1 = c) (hn : sym.isEmpty = false) :
    (folioRead (erring c sym q) 7 1 0).1 = (decodeFolio c (List.replicate 2048 0#8) sym (takeNat (erring c sym q)).1).1 := by
  have hz : mread (erring c sym q) (dramAddr 7 (2048 * folioAt 1 0)) 2048 = List.replicate 2048 0#8 := by
    rw [mread, List.eq_replicate_iff]
    refine ⟨by simp, fun b hb => ?_⟩
    obtain ⟨i, -, rfl⟩ := List.mem_map.1 hb
    rfl
  unfold folioRead
  simp only [hs, hc, hz, hn]
  rfl

/-- A symbol in error is corrected at strength P = 32 and not at P = 16; the check symbols of data make its syndromes zero (R326). -/
theorem test_folio_code : isCorr (folioRead (erring 1 [(0, 1)] []) 7 1 0).1 = true ∧ isUncorr (folioRead (erring 1 [(0, 1)] []) 7 1 0).1 = false ∧
    isUncorr (folioRead (erring 0 [(0, 1)] []) 7 1 0).1 = true ∧ isUncorr (folioRead (erring 0 [(0, 1)] [(0, 2, .none)]) 7 1 0).1 = true ∧
    syndromes 4 ([0x11, 0x22, 0x33] ++ rsCheck 4 [0x11, 0x22, 0x33]) = [0, 0, 0, 0] := by
  rw [erring_read 1 [(0, 1)] [] (by decide +kernel) (by decide +kernel) rfl, erring_read 0 [(0, 1)] [] (by decide +kernel) (by decide +kernel) rfl,
    erring_read 0 [(0, 1)] [(0, 2, .none)] (by decide +kernel) (by decide +kernel) rfl]
  simp only [decodeFolio_zeros]
  decide +kernel

theorem test_scrub_and_remap : let re := fun who => modMemc 7 1 (fun m => { m with reread := [(5, 2, who)] }) filled
    let sc := modMemc 7 1 (fun m => { m with prevPass := [0] }) (fset filled (dieB 7) F.MEMC_CTRL_SCRUB_EN 1 1)
    let bl := modMemc 7 1 (fun m => { m with copying := some (5, 15) }) sc
    (memcOf (re .none) 7 1).reread = [(5, 2, .none)] ∧ (re .none).faults.openFaults = [] ∧ isUncorr (folioRead (re .none) 7 1 5).1 = false ∧
    (memcOf (re (.merge [(0, [7#8])])) 7 1).reread = [(5, 2, .merge [(0, [7#8])])] ∧ (erring 0 [(0, 1)] [(0, 2, .none)]).faults.openFaults = [] ∧
    (memcOf (erring 0 [(0, 1)] [(0, 2, .none)]) 7 1).reread = [(0, 2, .none)] ∧ freeRemap (erring 0 [(0, 1)] [(0, 2, .none)]) 7 1 = some 0 ∧
    fget (erring 0 [(0, 1)] []) hubB F.FLT_MSTAT_DIEREACT ≠ 2 ∧ scrubBlocked (erring 1 [(0, 1)] []) 7 1 = false ∧ (memcOf (erring 1 [(0, 1)] []) 7 1).owed = 0 ∧
    fget (erring 1 [(0, 1)] []) (dieB 7) F.MEMC_CTRL_SCRUB_EN 1 ≠ 0 ∧ fget (erring 1 [(0, 1)] []) (dieB 7) F.MEMC_SCRUBPOS_FOLIO 1 = 0 ∧
    fget sc (dieB 7) F.MEMC_CTRL_SCRUB_EN 1 ≠ 0 ∧ fget sc (dieB 7) F.MEMC_STAT_FILLED 1 ≠ 0 ∧ scrubBlocked sc 7 1 = false ∧ (memcOf sc 7 1).owed = 0 ∧
    errorsIn sc 7 1 0 = [] ∧ scrubBlocked bl 7 1 = true := by decide +kernel

theorem test_remaps : let sc := modMemc 7 1 (fun m => { m with prevPass := [0] }) (fset filled (dieB 7) F.MEMC_CTRL_SCRUB_EN 1 1)
    let last := fset sc (dieB 7) F.MEMC_SCRUBPOS_FOLIO 25165823 1
    let cp := modMemc 7 1 (fun m => { m with copying := some (5, 15) }) filled
    let m := odSet up 0x8021 0 1
    let used := setRemaps 7 1 ((List.range 16).map fun i => some (i + 1)) up
    fget sc (dieB 7) F.MEMC_SCRUBPOS_FOLIO 1 ∈ (memcOf sc 7 1).prevPass ∧ some 0 ∉ remapsOf sc 7 1 ∧ freeRemap used 7 1 = none ∧
    (memcOf cp 7 1).copying = some (5, 15) ∧ (memcOf cp 7 1).waiting = [] ∧ odCheck makr 0xF110 0 (.num 15) (dieState m 7 != 3) m = 0 ∧
    fget (run (.scrubTick 7 1) last) (dieB 7) F.MEMC_SCRUBPOS_FOLIO 1 = 0 ∧ (remapsOf (run (.remapCopyDone 7 1) cp) 7 1)[15]? = some (some 5) := by
  decide +kernel

/-- Witnesses of InvalidationDropsTranslations. -/
theorem test_invalidation : let s := modDie up 7 fun x => { x with inval := some ⟨65535, false, 1, 1⟩ }
    fget up (dieB 7) F.MEMC_INVSTAT_BUSY = 0 ∧ (dieOf s 7).inval = some ⟨65535, false, 1, 1⟩ ∧
    (coreOf (run (.invalidationDone 7) (modCore s 7 71 fun x => { x with tlb := [⟨65535, 1, false, 0⟩, ⟨65535, 2, false, 0⟩] })) 7 71).tlb = [⟨65535, 2, false, 0⟩] := by
  decide +kernel

/-! ### Models, keys and patterns

The functions of Config that check signatures, unwrap keys and open chunks have no body; where a statement supposes what one of them answers, its
witness supposes the same. -/

/-- `n` bytes, zero but where listed. -/
def bytesAt (n : Nat) (l : List (Nat × Nat)) : List Byte := (List.range n).map fun i => BitVec.ofNat 8 (tget (fun _ => 0) l i)

/-- A queue entry of 64 bytes: a model command of identifier 9 under key slot 1, of handle 1, generation 1. -/
def modelE (op len : Nat) : List Byte := bytesAt 64 [(0, 0x10), (1, 1), (2, 9), (8, op), (10, 1), (12, 1), (24, len), (28, 1), (34, 1)]

/-- An upload key of tenant 0. -/
def upKey : KeySlot := ⟨0, false, List.replicate 40 0#8⟩

/-- A generation of binding 0 with one tile, on array 511 of core 71 of die 7. -/
def gen1 (st : Nat) : Gen := ⟨0, 1, st, 1, 0, 0, 0, 1, 0, List.range 8, 1, 1, 16, [⟨arrKey 7 71 511, 0, 0, 0, true, true, false⟩], [], [], false, [575]⟩

/-- A module whose admin queue 0 belongs to the operator, with key 1, object 1 (a base image without landing) and a list of generations. -/
def adm (o : Obj) (gens : List Gen) : State :=
  let s := fset (fset up hubB F.HUB_HIFCTRL_EN 1) (coreB 7 71) F.CORE_ID_ENABLED 1
  { s with
    hif := { s.hif with admin := [(0, { AdminQ.off with enable := true, role := 1, cqReserved := 1 })] }
    flash := { s.flash with kik := [1#8] }
    models := { s.models with objs := [(1, some o)], keys := [(1, some upKey)], gens := gens, pats := [⟨0, 1, 0, 64, [], false, []⟩] } }

/-- The head of an adapter of one section: 4,096 bytes at offset 4,096. -/
def head2 : List Byte := bytesAt 336 [(0, 0x10), (1, 2), (2, 0x20), (3, 1), (4, 1), (64, 0x50), (65, 1), (73, 32), (256, 5), (264, 1), (273, 16), (281, 16)]

/-- The head of a base image of one matrix of one row tile. -/
def head1 : List Byte := bytesAt 336 [(0, 0x10), (1, 1), (4, 1), (64, 0x50), (65, 1), (256, 1), (262, 1), (263, 1), (264, 1), (273, 16), (282, 3)]

def obj2 : Obj := ⟨2, 0, 0, 0, 0, false, head2, false, [], []⟩
def obj1 : Obj := ⟨1, 0, 0, 0, 0, false, head1, false, [], []⟩

/-- The chunk header of `n` payload bytes at offset `off` of an object, with `n` bytes of ciphertext and the tag. -/
def chunk (n off h : Nat) : List Byte := bytesAt (48 + n) [(0, 0x10), (4, n), (5, n / 256), (8, off), (9, off / 256), (24, h)]

theorem test_admin_taken : ringsLive (adm obj2 []) = true ∧ (adminOf (adm obj2 []) 0).disabling = false ∧
    (∀ op ∈ [1, 2, 3, 4, 5, 6, 7, 8, 9, 10], AdminTaken (adm obj2 []) 0 op (modelE op 64)) := by decide +kernel

theorem test_keys : (adm obj2 []).flash.kik ≠ [] ∧ keyForm 1 0 upKey.key = some upKey ∧ leAt (modelE 8 64) 34 1 = 1 ∧
    keyAt (adm obj2 []) (cmdSlot (modelE 9 64)) = some upKey ∧ keyAt (adm obj2 []) (cmdSlot (bytesAt 64 [(10, 2)])) = none ∧ up.flash.kik = [] ∧
    keyAt (run (.keyerase 0 (modelE 9 0)) (adm obj2 [])) 1 = none := by decide +kernel

/-- OPEN of an adapter: its one chunk opens to the head and 96 zero bytes. -/
theorem test_open (h : ∀ a b c d e, Config.gcmOpen a b c d e = some (head2 ++ List.replicate 96 0#8)) :
    let e := bytesAt 64 [(0, 0x10), (1, 1), (8, 1), (10, 1), (24, 0xE0), (25, 1)]
    let r := wholeChunks 1 0 upKey ((chunk 432 0 0).length / 64 + 1) [] (cmdData e (chunk 432 0 0)) (adm obj2 [])
    uploadKey (adm obj2 []) (cmdSlot e) (cmdTenant e) = some upKey ∧ (r.1 = 0 ∧ r.2.1 = head2 ++ List.replicate 96 0#8) := by
  refine ⟨by decide +kernel, ?_⟩
  have q : (chunk 432 0 0).length / 64 + 1 = 8 := by decide +kernel
  rw [q]
  unfold wholeChunks takeChunk
  simp only [h]
  decide +kernel

theorem test_open_heads : headStatus (adm obj2 []) (head2 ++ List.replicate 96 0#8) = 0 ∧ headStatus (adm obj2 []) [] ≠ 0 ∧
    privOk (adm obj2 []) 0 4096 = true ∧ wholeChunks 1 0 upKey 1 [] [] (adm obj2 []) = (0, [], adm obj2 []) := by decide +kernel

/-- PUT of 16 bytes at the start of the section. -/
theorem test_put (h : ∀ a b c d e, Config.gcmOpen a b c d e = some (List.replicate 16 7#8)) :
    let r := takeChunk 1 1 upKey (cmdData (modelE 2 64) (chunk 16 4096 1)) (adm obj2 [])
    r.1 = 0 ∧ r.2.1 = some ⟨4096, List.replicate 16 7#8, []⟩ := by
  unfold takeChunk
  simp only [h]
  decide +kernel

theorem test_put_sections : objAt (adm obj2 []) 1 = some obj2 ∧ uploadKey (adm obj2 []) 1 0 = some upKey ∧ sectionOf obj2 4096 = some 0 ∧
    sectionKnown (adm obj2 []) 1 obj2 0 = false ∧ (sectionAt obj2.head 0).off = 4096 ∧ (sectionAt obj2.head 0).len = 4096 ∧
    objInFlight (adm obj2 []) 1 = false ∧ objAt (adm obj1 []) 1 = some obj1 ∧ objAt (run (.modelClose 0 (modelE 10 0)) (adm obj2 [])) 1 = none := by decide +kernel

/-- A placement table of one entry: section 0, row tile 0 on array 511 of core 71 of die 7 of module 0. -/
def table2 : List Byte := bytesAt 240 [(0, 0x10), (2, 1), (4, 1), (133, 7 + 8 * (71 % 32)), (134, 71 / 32 + 252), (135, 7)]

theorem test_place (h : ∀ a b c d e, Config.gcmOpen a b c d e = some table2) :
    let e := bytesAt 64 [(0, 0x10), (1, 1), (8, 4), (10, 1), (12, 1), (24, 0x20), (25, 1), (28, 1)]
    let r := readWhole e (chunk 240 0 1) 1 0 (adm obj1 [])
    r.1 = 0 ∧ r.2.1 = table2 := by
  intro e r
  have q : readWhole e (chunk 240 0 1) 1 0 (adm obj1 []) = wholeChunks 1 1 upKey 5 [] (chunk 240 0 1) (adm obj1 []) := by
    unfold readWhole
    have u : uploadKey (adm obj1 []) (cmdSlot e) 0 = some upKey := by decide +kernel
    have v : cmdData e (chunk 240 0 1) = chunk 240 0 1 := by decide +kernel
    have w : (chunk 240 0 1).length / 64 + 1 = 5 := by decide +kernel
    have x : cmdSlot e = 1 := by decide +kernel
    rw [u, v, w, x]
  show r.1 = 0 ∧ r.2.1 = table2
  have z : r = wholeChunks 1 1 upKey 5 [] (chunk 240 0 1) (adm obj1 []) := q
  rw [z]
  unfold wholeChunks takeChunk
  simp only [h]
  decide +kernel

theorem test_place_table (hs : ∀ k x g, Config.ecdsaP384 k x g = true) (hd : ∀ x, Config.sha384 x = 0#384) : tableStatus obj1 table2 0 = 0 := by
  unfold tableStatus headDigest
  simp only [hs, hd]
  decide +kernel

theorem test_place_arrays : let e := bytesAt 64 [(0, 0x10), (1, 1), (8, 4), (10, 1), (12, 1), (28, 1)]
    let s := adm obj1 []
    let p : PEntry := ⟨0, 0, 0, 7, 71, 511, 0⟩
    tableEntries table2 = [p] ∧ pickBinding s e = some 0 ∧ s.models.gens.length < 8 ∧ p.isTile = true ∧ tableParts head1 [p] = [] ∧
    (addParts 1 1 [] s).isSome = true ∧ (currentGen s 0).isSome = false ∧ arraysOk s 0 obj1 [p] = true ∧
    recordHolds s ⟨0, 1, 0, [⟨p.key, 0, 0, 0⟩]⟩ p = true ∧ findRecord s e 0 = none ∧
    findRecord ({ s with flash := { s.flash with places := [⟨0, 1, 0, [⟨p.key, 0, 0, 0⟩]⟩] } } : State) e 0 = some ⟨0, 1, 0, [⟨p.key, 0, 0, 0⟩]⟩ := by decide +kernel

/-- A pattern image of one role: no entry, one data slot. -/
def image1 : List Byte := bytesAt 272 [(0, 0x10), (1, 1), (4, 16), (5, 1), (64, 1), (68, 1), (72, 64), (80, 128), (84, 176), (128, 160), (140, 1), (144, 255),
  (145, 255), (146, 1), (148, 1), (164, 1)]

theorem test_pattern (hs : ∀ k x g, Config.ecdsaP384 k x g = true) (hm : ∀ x, Config.minPsvn x = 0) : patternStatus (adm obj1 [gen1 1]) (gen1 1) 0 image1 = 0 := by
  unfold patternStatus
  simp only [hs, hm]
  decide +kernel

theorem test_generations : let s := modArr (arrKey 7 71 511) (fun a => { a with st := 3 }) (adm obj1 [gen1 1])
    genOf s 0 1 = some (gen1 1) ∧ genReady s (gen1 1) = true ∧ (readWhole (modelE 6 0) [] 1 0 s).1 = 0 ∧ (readWhole (modelE 6 0) [] 1 0 s).2.1 = [] ∧
    genOf (adm obj1 [gen1 2]) 0 1 = some (gen1 2) ∧ bindInFlight (adm obj1 [gen1 2]) 0 = false ∧
    ((genOf (run (.generationReady 0 1) s) 0 1).map fun g => g.st) = some 2 ∧
    ((genOf (run (.modelSwitch 0 (modelE 5 0)) (adm obj1 [gen1 2])) 0 1).map fun g => g.st) = some 3 := by decide +kernel

/-! ### Serving -/

/-- The rings of queue 0, with one completion slot reserved. -/
def rings0 : Rings := let r : Ring := { Ring.none with log2 := 6 }
  ⟨r, r, [], 1, r, [], 0, [], 0, none⟩

/-- A module that serves contexts `l` of queue 0 on binding 0, which it leads, with the Current generation `gen1`. -/
def srv (l : List (Nat × Ctx)) : State :=
  let s := adm obj1 [gen1 3]
  { s with
    hif := { s.hif with rings := [(0, some rings0)] }
    tenants := [(1, some { Tenant.free with st := 1 })]
    serve := { s.serve with
      queues := [(0, { Queue.off with enable := true, ctxmax := 2, tenant := 1 })]
      binds := [(0, { Binding.fresh with lead := true })]
      ctxs := l } }

/-- Context 0 of queue 0 in a state, of at most 64 positions. -/
def ctx0 (st : Nat) : Ctx := { Ctx.free with st := st, tenant := 1, maxlen := 64 }

/-- An entry of a serving queue with operation `op`, identifier 9, COUNT and other words listed. -/
def serveE (op : Nat) (l : List (Nat × Nat)) : List Byte := bytesAt 64 ([(0, 0x10), (1, 2), (2, 9), (8, op)] ++ l)

/-- A parameter image: MAXLEN 64, TEMP 0, TOPP 1. -/
def img0 : List Byte := bytesAt 128 [(0, 0x10), (12, 64), (38, 0x80), (39, 0x3F)]

theorem test_contexts : let s := srv []
    let f := { ctx0 1 with length := 1, pages := [(0, 1)] }
    let g : State := { srv [(0, f)] with serve := { (srv [(0, f)]).serve with groups := [(0, ⟨0, 1, 1, 1, 0, 0, false, false, [0]⟩)] } }
    fetched s 0 1 (serveE 1 []) = true ∧ serveFormOk (serveE 1 []) = true ∧ queueOpen s 0 = true ∧ imgInRange s img0 = true ∧
    leAt img0 12 4 % 2 ^ 21 = 64 ∧ imgHandles s 0 img0 = true ∧ freeContext s = some 0 ∧ newRange s 0 (rangeBytes s 0 64) = some 0 ∧ ctxsOfQueue s 0 = 0 ∧
    (queueOf s 0).ctxmax ≤ ctxsOfQueue (srv [(0, ctx0 1), (1, ctx0 1)]) 0 ∧
    fetched g 0 8 (serveE 8 [(24, 1)]) = true ∧ serveFormOk (serveE 8 [(24, 1)]) = true ∧ ctxOf g 0 = f ∧ (groupOf g 0).refs < 65535 ∧ freeContext g = some 1 ∧
    (newRange g 0 (rangeBytes g 0 64)).isSome = true ∧ ctxsOfQueue g 0 < (queueOf g 0).ctxmax ∧
    ServeTaken (srv [(0, ctx0 1)]) 0 7 (serveE 7 []) ∧ ServeTaken (srv [(0, ctx0 1)]) 0 6 (serveE 6 []) ∧ ServeTaken (srv [(0, ctx0 3)]) 0 6 (serveE 6 []) ∧
    (ctxOf (run (.serveCreate 0 (serveE 1 []) img0) s) 0).maxlen = 64 := by decide +kernel

theorem test_context_work : ServeTaken (srv [(0, ctx0 1)]) 0 2 (serveE 2 [(24, 2)]) ∧ topMaxpos (srv [(0, ctx0 1)]) 0 = 64 ∧
    (bindOf (srv [(0, ctx0 1)]) 0).vocab = 96000 ∧ 2 ≤ tokenBuffer ∧ (∀ st ∈ [1, 2, 3], ServeTaken (srv [(0, ctx0 st)]) 0 3 (serveE 3 [])) ∧
    (∀ st ∈ [1, 2, 3, 5], ServeTaken (srv [(0, ctx0 st)]) 0 4 (serveE 4 [])) ∧ (startPause 0 (srv [(0, ctx0 1)])).1 = true ∧
    (startPause 0 (srv [(0, { ctx0 1 with pages := [(0, 1)] })])).1 = true ∧
    (∀ st ∈ [1, 2, 3, 4, 5], ServeTaken (srv [(0, ctx0 st)]) 0 5 (serveE 5 [])) ∧ natBit (leAt (serveE 5 [(9, 2)]) 9 1) 1 = true ∧
    (ctxOf (run (.serveSubmit 0 (serveE 2 [(24, 2)]) [95999, 1]) (srv [(0, ctx0 1)])) 0).toks = [95999, 1] := by decide +kernel

/-- Context `c` and page group 0, of one frame at DRAM offset 0 of die 0. -/
def paged (c : Ctx) : State :=
  let s := srv [(0, { c with pages := [(0, 1)] })]
  { s with serve := { s.serve with groups := [(0, ⟨0, 1, 1, 1, 0, 0, false, false, [0]⟩)] } }

theorem test_pause_full : ServeTaken (paged (ctx0 1)) 0 4 (serveE 4 []) ∧ (cellarNeed (paged (ctx0 1)) 0).length = 1 ∧ (startPause 0 (paged (ctx0 1))).1 = false ∧
    (∀ st ∈ [4, 5, 6], ServeTaken (srv [(0, ctx0 st)]) 0 3 (serveE 3 []) ∧ ServeTaken (srv [(0, ctx0 st)]) 0 4 (serveE 4 [])) ∧
    (∀ st ∈ [7, 8], (∀ op ∈ [2, 3, 4, 5], ServeTaken (srv [(0, ctx0 st)]) 0 op (serveE op []))) := by decide +kernel

/-- A copied context with a sealed block, and a restore whose data is short of its block. -/
theorem test_cellar : let k : Block := ⟨1, 0, 0, 0, [], []⟩
    let s := paged { ctx0 4 with length := 1, blocks := [k] }
    let e := srv [(0, ctx0 6)]
    let z := srv [(0, { ctx0 6 with length := 1, blocks := [{ k with data := [1#8] }] })]
    (ctxOf s 0).st = 4 ∧ hubRereadDue s = false ∧ (sealBlocks 0 (ctxOf s 0) (ctxOf s 0).blocks s).1.isSome = true ∧ (ctxOf e 0).st = 6 ∧
    rangePending e (ctxBinding e (ctxOf e 0)) (ctxOf e 0).kvva (rangeBytes e (ctxBinding e (ctxOf e 0)) (ctxOf e 0).maxlen) = false ∧
    openBlocks e 0 (ctxOf e 0) [] = some [] ∧ framesOk e (ctxBinding e (ctxOf e 0)) { ctxOf e 0 with length := 0, pages := [] } 0 = true ∧
    (ctxOf e 0).destroyCid = [] ∧ (ctxOf z 0).st = 6 ∧ (ctxOf z 0).destroyCid = [] ∧ openBlocks z 0 (ctxOf z 0) [] = none ∧
    rangePending z (ctxBinding z (ctxOf z 0)) (ctxOf z 0).kvva (rangeBytes z (ctxBinding z (ctxOf z 0)) (ctxOf z 0).maxlen) = false := by decide +kernel

theorem test_copies_and_queues : let t := srv [(0, { ctx0 5 with ttl := 1 })]
    let p := paged (ctx0 1)
    let w : State := { p with serve := { p.serve with cows := [⟨0, 0, 1, 0, 7, false⟩], groups := p.serve.groups ++ [(7, ⟨0, 1, 0, 1, 0, 0, false, false, [65536]⟩)] } }
    let f : State := { p with serve := { p.serve with groups := [(0, ⟨0, 1, 0, 1, 0, 0, true, true, [0]⟩)] } }
    let v : OdVal := .bytes (bytesAt 32 [(0, 0x10), (2, 1), (5, 1), (8, 1)])
    (ctxOf t 0).st = 5 ∧ (ctxOf t 0).ttl ≠ 0 ∧ (ctxOf p 0).st = 1 ∧ 0 < odNum (odSet p 0x7028 0 1) 0x7028 ∧
    (w.serve.cows.find? fun x => x.ctx == 0 && x.page == 0 && !x.done) = some ⟨0, 0, 1, 0, 7, false⟩ ∧ hubRereadDue w = false ∧
    (copyFrames (ctxOf w 0) 0 [(0, 0, 65536)] w).1 = true ∧ (run .frameReclaim f).serve.groups = [] ∧
    odCheck oper 0x7030 2 v true up = 0 ∧ queueStatus up (odNum up 0x7030 1) v.bytesOf = 0 ∧ (ctxOf (run (.cellarTtlExpiry 0) t) 0).st = 0 := by decide +kernel

/-- A step of binding 0, led here, in a phase. -/
def step0 (phase : Nat) : Step := ⟨1, 0, 1, 64, false, 0, true, phase, [⟨0, 1, 0, 0, 0, 0, 1, 0, [], 0, 0, 0, 0, [], 0⟩], [], [], false, 0, [], [], [0, 0, 0, 0], [], [], [], 0, false, false, none, false, false, [], [], false, none, false, []⟩

/-- That step in flight, its context Stepping, in a module of a placement over `n` modules. -/
def stepping (p : Step) (n : Nat) : State :=
  let s := srv [(0, ctx0 3)]
  { s with serve := { s.serve with steps := [p], binds := [(0, { Binding.fresh with lead := true, modules := n })] } }

/-- Witnesses of StepsFormedAndStarted: the one Runnable context of the one queue of a binding led here. -/
theorem test_steps : let s := srv [(0, ctx0 2)]
    let u := mapParts (stepBoundary 0 s)
    (bindOf u 0).auditDue = [] ∧ formGen u 0 [] = some (gen1 3) ∧ mayForm u 0 (gen1 3) = true ∧ (bindOf u 0).confirmRows = [] ∧
    u.serve.queues = [(0, queueOf u 0)] ∧ (queueOf u 0).enable = true ∧ (queueOf u 0).bulk = false ∧ (queueOf u 0).binding = 0 ∧ 1 ≤ (queueOf u 0).weight ∧
    queueEligible u 0 = true ∧ u.serve.ctxs = [(0, ctx0 2)] ∧ framesOk u 0 (ctx0 2) 1 = true ∧ (bucketFor u 0 (gen1 3).gen 1).isSome = true ∧
    1 ≤ odNum u 0x7020 ∧ 1 ≤ odNum u 0x7021 ∧ (ctx0 2).retry < odNum u 0x7025 ∧ ringsOf u 0 = some rings0 ∧ freeOq rings0 = 64 := by decide +kernel

theorem test_step_messages : let st := fun (p : Step) (n : Nat) => stepOf (stepping p n) 0 1
    stepOf up 0 1 = none ∧ (bindOf up 0).lead = false ∧ stepOf (srv []) 0 5 = none ∧ (bindOf (srv []) 0).lead = true ∧ (currentGen (srv []) 0).isSome = true ∧
    st (step0 0) 2 = some (step0 0) ∧ copiesDone (stepping (step0 0) 2) (step0 0) = true ∧ stepModules (stepping (step0 0) 2) { step0 0 with gen := 9 } = 2 ∧
    slotsValid (stepping (step0 0) 2) { step0 0 with gen := 9 } = true ∧ st { step0 0 with lead := false, gen := 9 } 2 = some { step0 0 with lead := false, gen := 9 } ∧
    (ctxOf (run (.preptoExpiry 0 1) (stepping (step0 0) 2)) 0).st = 2 ∧
    (let s : State := { up with serve := { up.serve with binds := [(0, { Binding.fresh with promo := [(80, ⟨1, 4, 0, false, none⟩)] })] } }
     tget (fun _ => Promo.none) (bindOf s 0).promo 80 = ⟨1, 4, 0, false, none⟩ ∧
     tget (fun _ => Promo.none) (bindOf (run (.promotionHoldExpiry 0 80) s) 0).promo 80 = ⟨1, 4, 0, true, none⟩) := by
  decide +kernel

/-- Witnesses of GateCommitsOrAbandons on a step of the module alone: it fails, is not over, commits, or awaits its audit run. -/
theorem test_gate : let g9 := { step0 1 with gen := 9 }
    let s := stepping g9 1
    let bad := stepping { g9 with failed := true } 1
    let local_ := modCore s 7 71 fun x => { x with appends := [⟨0, 1, 0, 7, 1, 0, [(7 * 2 ^ 50 + 5, [9#8])], []⟩] }
    stepOf (gather 0 1 [] s) 0 1 = some g9 ∧ g9.lead = true ∧ g9.phase = 1 ∧ g9.auditOf = none ∧ modState s = 2 ∧ g9.failed = false ∧ auditRun s g9 = none ∧
    tasksOver s 0 1 = true ∧ stepModules s g9 = 1 ∧ g9.audited = false ∧ stepOf (gather 0 1 [] bad) 0 1 = some { g9 with failed := true } ∧
    (∀ d, d < 8 → ∀ k, k < 2 → (memcOf local_ d k).bad = []) ∧ (∀ k ∈ local_.cores, k.2.runs = []) ∧ dieNum s 7 = 7 ∧ (7 * 2 ^ 50 + 5) / 2 ^ 50 = 7 ∧
    stepModules (stepping g9 2) g9 = 2 ∧ (∀ r ∈ s.serve.steps, r.auditOf ≠ some (0, 1)) ∧
    (let r := fset (fset (stepping g9 1) (coreB 7 71) F.CORE_TCTL_VALID 1 0) (coreB 7 71) F.CORE_TCTL_ENDED 0 0
     tasksOver (modCore r 7 71 fun x => { x with tasks := [(0, { Task.none with binding := 0, step := 1 })] }) 0 1 = false) ∧
    mget (run (.commitDecision 0 1 [] [⟨[(5, 0)], 0⟩] []) local_) (dramAddr 7 5) = 9#8 := by decide +kernel

/-- A run of the audit of step 1 whose signature record is not the step's. -/
theorem test_gate_audit : let a := { step0 1 with gen := 9, audited := true, partner := some 1 }
    let s := stepping a 1
    let sig := List.replicate 64 0xFF#8
    (recordPairs s a [sig]).isSome = true ∧ ((recordPairs s a [sig]).getD []).all (sigPasses (odNum s 0x8074)) = false ∧ s.faults.openFaults = [] := by
  decide +kernel

theorem test_gate_messages : let done := stepping { step0 2 with done := [0], gen := 9 } 2
    let f := { step0 1 with lead := false, gen := 9 }
    let fol : State := { stepping f 2 with serve := { (stepping f 2).serve with binds := [(0, { Binding.fresh with modules := 2 })] } }
    let r := { step0 1 with auditOf := some (4, 6) }
    stepOf done 0 1 = some { step0 2 with done := [0], gen := 9 } ∧ stepModules done { step0 2 with gen := 9 } = 2 ∧ done.faults.openFaults = [] ∧
    fget done hubB F.FLT_MSTAT_LINKREACT ≠ 2 ∧ (ctxOf done 0).destroyCid = [] ∧ (bindOf fol 0).lead = false ∧ stepOf fol 0 1 = some f ∧
    (bindOf (stepping r 1) 0).lead = true ∧
    ((stepping r 1).serve.steps.find? fun r => r.binding == 0 && r.lead && r.auditOf == some (4, 6)) = some r ∧
    stepOf (stepping { step0 3 with audited := true } 1) 0 1 = some { step0 3 with audited := true } ∧ odCheck oper (0x8070 + 3) 11 (.num 1) true done = 0 ∧
    (ctxOf (run (.gatetoExpiry 0 1 1) done) 0).st = 7 := by decide +kernel

/-! ### The fabric -/

/-- Die 7's port 0 (internal, facing die 6) and port 5 (external) in a state and class. -/
def ports (st cls : Nat) : State :=
  [0, 5].foldl (fun s p => fset (fset (fset s (dieB 7) F.LINK_CTRL_EN 1 p) (dieB 7) F.LINK_STAT_STATE st p) (dieB 7) F.LINK_STAT_CLASS cls p) up

/-- With the cable of port 5 in place. -/
def cabled (s : State) : State := { s with power := { s.power with cables := [61] } }

/-- The IDENT of die 6, port 1, of the same module. -/
def ident0 : Ident := ⟨0x10, 2, 0, List.replicate 16 0#8, 6, 1, true, List.replicate 8 0#8, 0⟩

theorem test_ports : internalPort 7 5 = false ∧ 61 ∉ (ports 0 0).power.cables ∧ mayTrain (cabled (ports 0 0)) 7 5 = true ∧ 61 ∈ (cabled (ports 3 3)).power.cables ∧
    portClass (cabled (ports 3 3)) 7 5 ≠ 1 ∧ portClass (cabled (ports 3 1)) 7 5 = 1 ∧ (ports 3 1).faults.openFaults = [] ∧
    fget (ports 3 1) hubB F.FLT_MSTAT_LINKREACT ≠ 2 ∧ portState (ports 2 0) 7 5 = 2 ∧ portState (ports 1 0) 7 0 = 1 ∧ mayTrain (ports 1 0) 7 0 = true ∧
    mayTrain (ports 1 0) 7 5 = false ∧ fget (ports 2 0) (dieB 7) F.LINK_CTRL_WIDTHPOL 5 ≠ 1 ∧ 3 ≤ portState (ports 3 0) 7 5 ∧ expected (ports 3 0) 7 5 = false ∧
    expected (ports 3 0) 7 0 = true ∧ misreason (ports 3 0) 7 0 ident0 = 0 ∧ misreason (ports 3 0) 7 0 { ident0 with port := 0 } ≠ 0 ∧
    portState (ports 4 3) 7 5 = 4 ∧ portClass (ports 3 0) 7 0 = 0 ∧ (portAt (ports 3 0) 7 0).ident = none := by decide +kernel

theorem test_port_events : portState (run (.cableInserted 7 5) (ports 0 0)) 7 5 = 2 ∧ portState (run (.portTrainingDone 7 5 2) (ports 2 0)) 7 5 = 3 ∧
    portState (run (.portTrainingDone 7 5 0) (ports 2 0)) 7 5 = 1 ∧ portClass (run (.identReceived 7 0 ident0) (ports 3 0)) 7 0 = 1 ∧
    portState (run (.identReceived 7 0 { ident0 with port := 0 }) (ports 3 0)) 7 0 = 4 ∧ portClass (run (.disctoExpiry 7 0) (ports 3 0)) 7 0 = 2 := by decide +kernel

/-- A data packet of 2 bytes of tenant 0 for die `dst`. -/
def packet (dst addr : Nat) : Packet := ⟨0x10, 1, false, 0, false, false, 253, dst, 0, 0, 0, 2, addr, 0, [1#8, 2#8], 3⟩

/-- The check value of CRC-64/ECMA-182, that of the nine characters 1 to 9. -/
theorem test_crc : crc64 [0x31#8, 0x32#8, 0x33#8, 0x34#8, 0x35#8, 0x36#8, 0x37#8, 0x38#8, 0x39#8] = 0x6C40DF5F0B497347 := by decide +kernel

/-- The flit of zeros, whose CRC is zero, is good; it carries SEQ 0 and ACKSEQ 0. -/
theorem test_flit_of_zeros : flitOk (List.replicate 256 0#8) = true := by
  have h : ∀ n, crc64 (List.replicate n 0#8) = 0 := fun n => by
    induction n with
    | zero => rfl
    | succ n ih => exact ih
  simp only [flitOk, List.length_replicate, List.take_replicate, h]
  decide +kernel

theorem test_flits : let s := modPort 7 5 (fun x => { x with unacked := [0, 1] }) (ports 3 1)
    let a := modPort 7 5 (fun x => { x with asked := true }) s
    leAt (List.replicate 256 0#8) 2 2 % 4096 = 0 ∧ (portAt s 7 5).expSeq = 0 ∧ flitOk [] = false ∧ 3 ≤ portState s 7 5 ∧ (portAt s 7 5).asked = false ∧
    ((portAt s 7 5).replays.filter fun t => decide (hubTime s < t + 1000)).length < 16 ∧ (portAt a 7 5).asked = true ∧
    (portAt (run (.linkFlitReceive 7 5 1 0 []) s) 7 5).asked = true := by decide +kernel

theorem test_links : let s := modPort 7 5 (fun x => { x with expSeq := 4095, unacked := [4094, 4095] }) (ports 3 1)
    let r := modPort 7 5 (fun x => { x with retraining := true }) (ports 3 0)
    let f := fset (ports 3 1) (dieB 7) F.MEMC_STAT_FILLED 1 0
    let t : State := { fset (ports 3 1) (dieB 7) F.LINK_STAT_CLASS 1 3 with fab := { up.fab with routes := [((7 * 2) * 2 ^ 14 + 9, ⟨5, true, 3, true⟩)] } }
    (portAt s 7 5).expSeq = 4095 ∧ (portAt s 7 5).asked = false ∧ ((portAt s 7 5).unacked.findIdx? fun k => k == 4095) = some 1 ∧
    ((portAt s 7 5).replays.filter fun t => decide (hubTime s < t + 1000)).length < 16 ∧ (portAt r 7 5).retraining = true ∧ portClass r 7 5 ≠ 1 ∧
    portState (ports 1 0) 7 5 ≠ 3 ∧ (packet 7 0).addr / 2 ^ 48 % 4 = 0 ∧ (packet 7 (2 ^ 48)).addr / 2 ^ 48 % 4 ≠ 0 ∧ dieNum f 7 = 7 ∧ tenantPresent f 0 = true ∧
    ownsRange f 7 0 0 2 = true ∧ dramServes f 7 0 = true ∧ (packet 9 0).dst ≠ dieNum t 7 ∧ (packet 9 0).hops + 1 < 255 ∧ routeOf t 7 0 9 = ⟨5, true, 3, true⟩ ∧
    portClass t 7 5 = 1 ∧ internalPort 7 3 = false ∧ (∀ k, k < 2 → (memcOf f 7 k).bad = []) ∧
    mget (run (.packetArrival 7 5 (packet 7 0)) f) (dramAddr 7 1) = 2#8 ∧ (run (.packetArrival 7 5 (packet 9 0)) t).fab.sent.length = 1 := by decide +kernel

/-- Dies 0 and 1 with a Routed link between them, in group 0 with a global operation in a state. -/
def grouped (g : GOp) : State :=
  { ports 3 1 with fab := { up.fab with lsas := [(1, ⟨0, 1, 1, false, 1⟩), (8, ⟨1, 0, 1, false, 1⟩)], gops := [(0, g)] } }

/-- A plan of one position that holds this module. -/
def plan1 : List Byte := bytesAt 96 [(0, 0x10), (2, 1), (3, 1), (4, 1), (64, 7)]

theorem test_records_and_plans : let s := grouped GOp.idle
    let p : State := { up with flash := { up.flash with serial := [7#8] } }
    portClass s 7 5 = 1 ∧ localDie s 9 = none ∧ (lsaOf s 9 7).seq < 1 ∧ (lsaOf ({ s with fab := { s.fab with lsas := [(79, ⟨9, 7, 1, false, 1⟩)] } } : State) 9 7).seq = 1 ∧
    7 ∈ plannedDies up ∧ (∀ n ∈ plannedDies up, n < 2 ^ 14) ∧ up.fab.lsaAt + 100 ≤ hubTime ({ up with sys := { up.sys with hubTime := 100 } } : State) ∧
    odCheck inst 0x6000 0 (.bytes plan1) true p = 0 ∧ flashFails p 0x6000 0 = false ∧ planForm plan1 = true ∧ planCheck p plan1 = some 0 ∧ planCheck up plan1 = none ∧ planForm (8#8 :: plan1) = false := by decide +kernel

theorem test_global_operations : let s := grouped GOp.idle
    let o : GOp := ⟨true, 2, 5, [(0, ⟨true, [], true⟩)], none, []⟩
    isMember s 0 0 = true ∧ 1 ∈ childrenOf s 0 (dieNum s 0) ∧ (gopOf s 0).isOpen = false ∧ (gopOf (grouped o) 0).isOpen = true ∧ (gopOf (grouped o) 0).kind = 2 ∧
    (gopOf (grouped o) 0).seq = 5 ∧ (dieOpOf (gopOf (grouped o) 0) 0).sent = true ∧ dieNum s 0 = rootOf s 0 ∧ (gopOf (grouped o) 0).kind ≠ 3 ∧
    odCheck inst 0x6022 0 (.num 0xA5C3) true s = 0 ∧ portClass s 7 5 = 1 ∧ odCheck oper 0x6061 0 (.num 16) true s = 0 ∧ (∃ d, d < 8 ∧ isMember s 0 d = true) ∧
    (gopOf (run (.broadcast 0 0 9 true [1#8]) s) 0).payload = [1#8] := by decide +kernel

/-! ### Tenants and sessions -/

theorem test_tenants : let e := bytesAt 64 [(0, 0x10), (1, 1), (2, 1)]
    odCheck oper 0x7080 2 (.bytes e) true up = 0 ∧ odNum up 0x7080 1 = 1 ∧ tenantStatus up 1 e = 0 ∧ tenantStatus up 1 (bytesAt 64 [(0, 0x10), (1, 3), (2, 1)]) = 2 ∧
    ((tenantOf up 1).getD Tenant.free).st = 0 ∧ ((tenantOf (srv []) 1).getD Tenant.free).st = 1 ∧ twf (fun _ => none) (srv []).tenants = true ∧
    twf (fun _ => Queue.off) (srv []).serve.queues = true ∧ (tenantOf (run (.tenantRecordWrite oper (.bytes e)) up) 1).isSome = true ∧
    (up.flash.auditLog ++ up.mgmt.auditBuf).length < 1048576 ∧ (run .auditFlush up).flash.seals.length = 1 := by decide +kernel

/-- An audit log of any length is in reach of the statement on its erasing. -/
theorem test_audit_log_over (n : Nat) : ∃ s : State, n < (s.flash.auditLog ++ s.mgmt.auditBuf).length :=
  ⟨{ up with flash := { up.flash with auditLog := List.replicate (n + 1) ⟨6, 1, 1, false, 0, 0, 0, 0, 0, 0, 0, [], [], 0⟩ } }, by
    rw [List.length_append, List.length_replicate]; omega⟩

/-- A CMP datagram from a link-local address: TYPE, SESSION 5 or none, SEQ 2, payload, signed or not. -/
def dg (typ : Nat) (sess : Bool) (payload : List Byte) (sig : Bool) : Dgram :=
  ⟨0xFE80 * 2 ^ 112 + 1, 32580, 255, true, true, 32580,
   [0x10#8, BitVec.ofNat 8 typ, BitVec.ofNat 8 (b2n sig), 0#8, BitVec.ofNat 8 (5 * b2n sess), 0#8, 0#8, 0#8, 2#8, 0#8, 0#8, 0#8] ++
     leBytes 2 payload.length ++ [0#8, 0#8] ++ payload ++ List.replicate (if sig then 64 else 0) 0#8⟩

/-- The maker's session 5 from that address. -/
def ses : Session := ⟨5, 3, 1, 0, 0xFE80 * 2 ^ 112 + 1, 32580, some 1, [], none, none⟩

/-- A module with that session, and with a nonce for a maker's OPEN. -/
def sess : State := { up with mgmt := { up.mgmt with sessions := [ses], nonces := [⟨1, 0xFE80 * 2 ^ 112 + 1, 32580, 3, 0, 7⟩] } }

theorem test_challenge : CmpTaken sess 3 (dg 3 false [3#8, 0#8, 0#8] false) ∧ (reqOf (dg 3 false [3#8, 0#8, 0#8] false)).session = 0 ∧
    (reqOf (dg 3 false [3#8, 0#8, 0#8] false)).len = 3 ∧ leAt (reqOf (dg 3 false [3#8, 0#8, 0#8] false)).payload 0 1 = 3 ∧ sess.mgmt.holdCmp = false ∧
    CmpTaken sess 4 (dg 4 false (3#8 :: List.replicate 67 0#8) false) ∧ (reqOf (dg 4 false (3#8 :: List.replicate 67 0#8) false)).len = 68 ∧
    sess.mgmt.sessions.length < 16 ∧ openProves (reqOf (dg 4 false (3#8 :: List.replicate 67 0#8) false)) up = false ∧ sessionOf sess 5 ≠ none ∧
    (run (.cmpChalreq (dg 3 false [3#8, 0#8, 0#8] false)) up).mgmt.nonces.length = 1 ∧ (run (.sessionIdleExpiry 5) sess).mgmt.sessions = [] := by decide +kernel

/-- An OPEN whose signature verifies proves its role. -/
theorem test_open_proves (h : ∀ k d g, Config.ecdsaP256 k d g = true) : openProves (reqOf (dg 4 false (3#8 :: List.replicate 67 0#8) false)) sess = true := by
  unfold openProves
  simp only [h]
  have n : nonceFor sess (reqOf (dg 4 false (3#8 :: List.replicate 67 0#8) false)) = some ⟨1, 0xFE80 * 2 ^ 112 + 1, 32580, 3, 0, 7⟩ := by decide +kernel
  have k : keyOf sess (leAt (reqOf (dg 4 false (3#8 :: List.replicate 67 0#8) false)).payload 0 1)
      (leAt (reqOf (dg 4 false (3#8 :: List.replicate 67 0#8) false)).payload 1 2) = some Config.makerKey := by rfl
  rw [n, k]
  decide +kernel

/-- The requests of session 5: CLOSE, READ of OD 0x1000, WRITE of OD 0x2040, FWBEGIN of slot 1, FWEND, FWCOMMIT, each signed, and FWDATA. -/
theorem test_requests_next (h : ∀ k d g, Config.ecdsaP256 k d g = true) :
    ∀ p ∈ [(5, ([] : List Byte)), (6, bytesAt 8 [(1, 16)]), (7, bytesAt 14 [(0, 0x40), (1, 32), (3, 3), (8, 2)]), (8, bytesAt 8 [(0, 1)]), (10, []), (11, [])],
      CmpNext sess p.1 (dg p.1 true p.2 true) ses := by
  intro p hp
  simp only [List.mem_cons, List.not_mem_nil, or_false] at hp
  rcases hp with rfl | rfl | rfl | rfl | rfl | rfl
  all_goals
    exact ⟨by decide +kernel, by decide +kernel, by decide +kernel, by decide +kernel, by decide +kernel,
      fun _ => by simp [Req.verified, keyOf, ses, h], fun q hq => by cases hq; decide +kernel⟩

theorem test_data_next : CmpNext sess 9 (dg 9 true (bytesAt 6 [(5, 9)]) false) ses :=
  ⟨by decide +kernel, by decide +kernel, by decide +kernel, by decide +kernel, fun hn => absurd hn (by decide +kernel), fun hs => absurd hs (by decide +kernel),
    fun q hq => by cases hq; decide +kernel⟩

theorem test_requests_served : let g6 := dg 6 true (bytesAt 8 [(1, 16)]) true
    let g7 := dg 7 true (bytesAt 14 [(0, 0x40), (1, 32), (3, 3), (8, 2)]) true
    let w : Writer := ⟨3, 1, 0, 5⟩
    (reqOf g6).len = 8 ∧ leAt (reqOf g6).payload 3 1 = 0 ∧ readGate (cmpServing sess g6 ses) 3 1 0x1000 0 = 0 ∧ (reqOf g6).index = 0x1000 ∧ (reqOf g6).sub = 0 ∧
    odGate w 0x2040 0 (cmpServing sess g7 ses) = 0 ∧ (reqOf g7).index = 0x2040 ∧ totalOk 0x2040 0 2 = true ∧ leAt (reqOf g7).payload 8 4 = 2 ∧
    ((reqOf g7).payload.drop 12).length = 2 ∧ ses.role ≠ 1 ∧ servingOrStopped sess = true ∧ runningSlot sess = 0 ∧ sess.sys.upload = none ∧
    fget sess hubB F.HUB_BOOTSTAT_SLOTFALLBACK = 0 ∧ odNum sess 0x2042 = 0 := by decide +kernel

theorem test_upload : let s : State := { sess with sys := { sess.sys with upload := some (1, 2, 0, 5) } }
    let t := run (.fwdata (dg 9 true (bytesAt 6 [(5, 9)]) false)) s
    s.sys.upload = some (1, 2, 0, ses.id) ∧ leAt (reqOf (dg 9 true (bytesAt 6 [(5, 9)]) false)).payload 0 4 = 0 ∧
    ((reqOf (dg 9 true (bytesAt 6 [(5, 9)]) false)).payload.drop 4).length = 2 ∧ (slotOf t 1).bytes = [0#8, 9#8] ∧ t.sys.upload = some (1, 2, 2, 5) := by decide +kernel

theorem test_mailbox : let s := fset up hubB F.HUB_MBSTAT_DONE 1
    up.hif.d3hot = false ∧ fget up hubB F.HUB_SIGSTAT_PERST_IN = 0 ∧ (16 + 2 ^ 16) / 2 ^ 16 % 2 = 1 ∧ mailboxUp up = true ∧ fget up hubB F.HUB_MBSTAT_BUSY = 0 ∧
    fget up hubB F.HUB_MBSTAT_DONE = 0 ∧ fget s hubB F.HUB_MBSTAT_DONE = 1 ∧
    (serveMessage ⟨2, 0, 0, sliceBytes up.hif.mbReq 0 16⟩ false false (fset (fset up hubB F.HUB_MBCTRL_LEN 16) hubB F.HUB_MBCTRL_IRQEN 0)).2.2 = false ∧
    fget (run (.mailboxGo (16 + 2 ^ 16) false false) up) hubB F.HUB_MBSTAT_RLEN = 16 := by decide +kernel

/-! ### Faults, heat, the segment and the host interface -/

/-- An unacknowledged record of 0x0103 about core 71 of die 7, with sequence number 5. -/
def rec1 : LedgerRec := ⟨2, false, false, false, false, false, 0x0103, 71, 7, 0, 1, 0, 5⟩

/-- A state whose hub ledger holds that record, its fault open. -/
def faulted (s : State) : State := { s with faults := { s.faults with modLedger := [rec1], openFaults := [⟨2, 0x0103, 7, 71, 0, 5⟩] } }

theorem test_acknowledge : let s := faulted up
    odCheck oper 0x8002 0 (.num 5) true s = 0 ∧ odCheck oper 0x8002 0 (.num 0xFFFFFFFF) true s = 0 ∧ odCheck oper 0x8002 0 (.num 6) true s = 0 ∧
    (s.faults.modLedger.map fun r => r.seq).Nodup ∧ (∃ r ∈ s.faults.modLedger, r.seq = 5 ∧ r.ack = false ∧ mayAck oper.role r.cls = true) ∧
    (∀ r ∈ s.faults.modLedger, r.seq = 6 → r.ack = true ∨ mayAck oper.role r.cls = false) ∧
    (run (.faultAcknowledge oper (.num 5)) s).faults.openFaults = [] := by decide +kernel

theorem test_test_mode : let t := odSet (mode 4 up) 0x8021 0 1
    odGate makr 0x8020 0 up = 0 ∧ modState (mode 4 up) = 4 ∧ modState up ≠ 4 ∧ odNum t 0x8021 = 1 ∧ odNum up 0x8021 = 0 ∧
    odNum (run (.testModeEnter makr (.num 0xA5C3)) (mode 4 up)) 0x8021 = 1 := by decide +kernel

theorem test_force : let t := odSet (mode 4 up) 0x8021 0 1
    odGate makr 0x8030 0 t = 0 ∧ odGate inst 0x8030 0 t = 0 ∧ modState t = 4 ∧ t.faults.openFaults = [] ∧ sourceOf 0x0A01 = some ⟨0x0A01, 1, .unit, false⟩ ∧
    sourceOf 0x0B03 = some ⟨0x0B03, 3, .module, true⟩ ∧ sourceOf 0 = none ∧
    dieState t 7 ≠ 3 ∧ placeOk 0x0A01 7 23 = true ∧ placeOk 0x0A01 7 24 = false ∧ placeOk 0x0B03 15 0 = true ∧ placeOk 0x0B03 7 0 = false ∧
    stickySet (run (.faultForce inst (.num (0x0A01 + 2 ^ 32 * 7))) t) 7 0x0A01 = true := by decide +kernel

theorem test_unfence : let s := fset up (coreB 7 71) F.CORE_ID_FENCED 1
    odGate makr 0x8040 0 s = 0 ∧ coreFenced s 7 71 = true ∧ coreUnacked s 7 71 = false ∧ dieState s 7 = 2 ∧ s.faults.openFaults = [] ∧
    halted (mode 5 up) = true ∧ (coreOf up 7 71).stopped = false ∧ coreFenced (run (.coreUnfence makr (.num (7 + 8 * 71)) true true) s) 7 71 = false ∧
    (coreOf (run (.safeStateCoreStopTimeout 7 71) (mode 5 up)) 7 71).stopped = true := by decide +kernel

/-- Die 7 with core 71 enabled at a junction (2^−6 °C). -/
def warm (t : Int) : State :=
  { fset up (coreB 7 71) F.CORE_ID_ENABLED 1 with therm := [(7, { Therm.start with tj := [(71, t)] })] }

/-- Witnesses of ThermalUpdatesAndPowerCap: a cool die, one of which a core is about to reach STOPT, one at 115 °C. -/
theorem test_thermal : let temps : List Int := List.replicate 71 3000 ++ [3100]
    let hot : List Int := List.replicate 71 3000 ++ [7359]
    let ahead := fun (l : List Int) c => degrees (predicted (putJunctions 7 l [] [] [0, 0] (warm 3100)) 7 c)
    dieRuns (warm 3100) 7 = true ∧ (thermOf (warm 3100) 7).eps = [0, 0] ∧ (warm 3100).faults.openFaults = [] ∧ temps.getD 71 0 < 7360 ∧
    (∀ c, c < 72 → temps.getD c 0 ≤ temps.getD 71 0) ∧ (∀ c, c < 71 → temps.getD c 0 < temps.getD 71 0) ∧
    (∀ c, c < 72 → ahead temps c < odRat (warm 3100) 0x9023) ∧ (∀ c, c < 72 → hot.getD c 0 < 7360) ∧ modState (warm 3100) ≠ 7 ∧
    71 ∉ (thermOf (warm 3100) 7).stops ∧ odRat (warm 3100) 0x9023 ≤ ahead hot 71 ∧ 7360 ≤ (List.replicate 72 (7360 : Int)).getD 71 0 := by decide +kernel

theorem test_rise_and_window_codes : let s := fset (fset (warm 5120) (dieB 7) F.THRM_HALF_WINREQ 1 1) (dieB 7) F.THRM_HALF_WINCODE 3 1
    (thermOf up 7).rise.length = 2 ∧ fget up (dieB 7) F.THRM_HALF_WINREQ 1 = 0 ∧
    fget s (dieB 7) F.THRM_HALF_WINREQ 1 = 1 ∧ hottest s 7 (enabledIn s 7 1) = some (71, 5120) ∧ riseCode s 7 1 ≤ 24 ∧ dieRuns s 7 = true := by decide +kernel

theorem test_windows_and_cap : let w := modDie up 0 id
    let s : State := { w with care := { w.care with wins := [(15, { Win.closed with st := 2 })] } }
    let r : State := { w with care := { w.care with wins := [(15, { Win.closed with again := true })] } }
    let d := { warm 0 with therm := [(7, { Therm.start with dropped := [23] })] }
    (winOf s 15).st = 2 ∧ 15 ∉ s.care.winQ ∧ odNum s 0x9026 ≤ 24 ∧ (winOf r 15).again = true ∧ (winOf r 15).st = 0 ∧ up.power.rails = true ∧
    23 ∉ (thermOf up 7).dropped ∧ 23 ∈ (thermOf d 7).dropped ∧ fget up hubB F.HUB_PWRSTAT_CAPCODE ≤ 24 ∧
    (winOf (run (.winopenExpiry 15) s) 15).again = true ∧ (run (.hardTrip 7 23) up).power.rails = false ∧ (run (.hardTrip 7 23) d).power.rails = true ∧
    (run (.plateNodeUpdate true 7 21 30) up).cap.plate = 7 := by decide +kernel

/-- A partner's ANNOUNCE of 64 bytes whose first byte of the serial number is `b`. -/
def annc (b : Nat) : Dgram :=
  ⟨0xFE80 * 2 ^ 112 + 2, 32580, 255, true, true, 32580, [0x10#8, 2#8] ++ List.replicate 10 0#8 ++ [64#8, 0#8, 0#8, 0#8] ++ bytesAt 64 [(0, b)]⟩

theorem test_discovery : let s : State := { up with mgmt := { up.mgmt with solicitors := [(9, 32580, 3)] } }
    let q : State := { up with mgmt := { up.mgmt with annAt := some 0 } }
    CmpTaken up 1 (dg 1 false [] false) ∧ (reqOf (dg 1 false [] false)).session = 0 ∧ (reqOf (dg 1 false [] false)).len = 0 ∧ cmpUp s = true ∧
    (s.mgmt.solicitors.find? fun x => x.1 == 9 && x.2.1 == 32580) = some (9, 32580, 3) ∧ mayAnnounce up = true ∧ up.mgmt.dadFailed = false ∧ s.mgmt.dadFailed = false ∧ mayAnnounce q = false ∧
    dropsDatagram up (annc 1) = false ∧ leAt (annc 1).bytes 0 1 / 16 = 1 ∧ leAt (annc 1).bytes 1 1 = 2 ∧ leAt (annc 1).bytes 12 2 = 64 ∧
    (annc 1).bytes.length = 80 ∧ (sliceBytes (annc 1).bytes 16 64).take 16 ≠ serial16 up ∧ dropsDatagram up (annc 0) = false ∧
    (sliceBytes (annc 0).bytes 16 64).take 16 = serial16 up ∧ up.mgmt.partners.length ≤ 32 := by decide +kernel

theorem test_segment : let s : State := { up with mgmt := { up.mgmt with dadRun := true } }
    let f : State := { up with mgmt := { up.mgmt with dadFailed := true } }
    let p : State := { odSet (odSet up 0x1022 0 1) 0x1023 0 7 with mgmt := { up.mgmt with beacon := true } }
    s.mgmt.dadRun = true ∧ f.mgmt.dadFailed = true ∧ cmpUp up = true ∧ plcaStatus p = true ∧ odNum p 0x1023 ≠ 0 ∧ plcaStatus up = false ∧
    mayAnnounce (run (.dadDone false) s) = false ∧ plcaStatus (run .plcaBeaconLoss p) = false ∧
    ((run (.announceReceived (annc 1)) up).mgmt.partners.map fun q => q.addr) = [0xFE80 * 2 ^ 112 + 2] := by decide +kernel

/-- Rings of queue 0 of 64 entries each: one submission waits, 2 completions and 1 token record are written and not taken. -/
def rings1 : Rings :=
  let r : Ring := { Ring.none with log2 := 6 }
  ⟨{ r with tail := 1 }, { r with tail := 2, unsig := 2, itime := 1, vec := 3 }, [⟨1, 0, true, 0, 0, 0, 0⟩, ⟨1, 0, true, 1, 0, 0, 0⟩], 0,
    { r with tail := 1, unsig := 1, itime := 1, vec := 4 }, [⟨true, false, false, 0, false, false, 0, 0, 0, 0, 0⟩], 0, [], 0, none⟩

/-- An admin queue of the operator with the same rings. -/
def admin1 : AdminQ := ⟨true, 1, 0, rings1.sq, rings1.cq, rings1.cqEntries, 0, false, []⟩

/-- A live host interface with serving queue 0 and admin queue 0. -/
def host : State :=
  let s := fset up hubB F.HUB_HIFCTRL_EN 1
  { s with hif := { s.hif with rings := [(0, some rings1)], admin := [(0, admin1)] } }

theorem test_bells : ringsLive host = true ∧ host.power.rails = true ∧ capturing host hubDie = false ∧ host.faults.modLedger.length < 256 ∧
    ringsOf host 1 = none ∧ ringsOf host 0 = some rings1 ∧ rings1.clearing = none ∧ rings1.sq.size = 64 ∧ rings1.cq.size = 64 ∧ rings1.oq.size = 64 ∧
    rings1.cqEntries.length < 63 ∧ rings1.oqEntries.length < 63 ∧ (2 + 64 - rings1.cq.head) % 64 ≤ rings1.cqEntries.length ∧
    (1 + 64 - rings1.oq.head) % 64 ≤ rings1.oqEntries.length ∧ adminOf host 0 = admin1 ∧ (adminOf host 1).enable = false ∧
    fget (run (.doorbellCqhead false 0 63) host) hubB F.HUB_HIFQERR_REASON = 3 ∧ fget (run (.doorbellSqtail false 1 0) host) hubB F.HUB_HIFQERR_REASON = 2 ∧
    fget (run (.doorbellSqtail true 0 64) host) hubB F.HUB_HIFQERR_REASON = 1 ∧ (adminOf (run (.doorbellSqtail true 0 63) host) 0).sq.tail = 63 ∧
    (adminOf (run (.doorbellCqhead true 0 2) host) 0).cqEntries = [] := by decide +kernel

/-- A RINGSET entry for queue 1: rings at 4,096, 8,192 and 12,288 of 16 entries, vectors 1 and 2. -/
def ringE : List Byte := bytesAt 64 [(0, 0x10), (1, 3), (2, 9), (8, 1), (12, 1), (17, 16), (25, 32), (33, 48), (40, 4), (41, 4), (42, 4), (44, 1), (46, 2)]

/-- A RINGCLR entry for a queue. -/
def clrE (q : Nat) : List Byte := bytesAt 64 [(0, 0x10), (1, 3), (2, 9), (8, 2), (12, q)]

/-- That host after admin queue 0 has fetched its entry. -/
def took : State := { host with hif := { host.hif with admin := [(0, { admin1 with cqReserved := 1 })] } }

/-- That host with the admin queue's entry gone and serving queue 0's turn. -/
def turn : State := { host with hif := { host.hif with admin := [(0, { admin1 with sq := { rings1.sq with tail := 0 } })] } }

/-- Witnesses of QueuesFetchedSetAndSignalled and RingPhases. -/
theorem test_queues : let c : State := { took with hif := { took.hif with rings := [(0, some { rings1 with clearing := some (0, 9) })] } }
    adminTook took 0 3 1 ringE = true ∧ ringsetStatus took ringE = 0 ∧ adminTook took 0 3 1 (bytesAt 64 [(0, 0x10), (1, 3), (2, 9), (8, 1)]) = true ∧
    ringsetStatus took (bytesAt 64 [(0, 0x10), (1, 3), (2, 9), (8, 1)]) ≠ 0 ∧ adminTook took 0 3 2 (clrE 0) = true ∧ ringclrOk (clrE 0) = true ∧
    leAt (clrE 0) 12 4 = 0 ∧ leAt (clrE 1) 12 4 = 1 ∧ ringsOf took 1 = none ∧ ringsOf took 0 = some rings1 ∧ adminTook took 0 3 2 ((clrE 0).set 9 1) = true ∧
    ringclrOk ((clrE 0).set 9 1) = false ∧ (adminOf took 0).disabling = false ∧ queueStepping c 0 = false ∧ ringsLive c = true ∧
    ringsOf c 0 = some { rings1 with clearing := some (0, 9) } ∧ (ringsOf (run (.ringset 0 ringE) took) 1).isSome = true ∧
    ringsOf (run (.ringclrComplete 0) c) 0 = none := by decide +kernel

theorem test_fetches : headerReason true 1 ringE = 0 ∧ headerReason true 1 (clrE 0 |>.set 1 2) ≠ 0 ∧
    adminOpOk ringE = true ∧ adminOpOk (clrE 0 |>.set 8 3) = false ∧ headerReason true 1 (clrE 0 |>.set 8 3) = 0 ∧ headerReason false 0 (serveE 1 []) = 0 ∧
    headerReason false 0 (serveE 9 []) = 0 ∧ headerReason false 0 ringE ≠ 0 ∧
    (adminOf host 0).sq.head ≠ (adminOf host 0).sq.tail ∧ (adminOf host 0).cqReserved = 0 ∧ (adminOf host 0).disabling = false ∧
    (adminOf host 0).cqEntries.length < (adminOf host 0).cq.size ∧ fetchTurn turn = some 0 ∧ ringsLive turn = true ∧ ringsOf turn 0 = some rings1 ∧
    rings1.sq.head ≠ rings1.sq.tail ∧ rings1.cqEntries.length + rings1.cqReserved < rings1.cq.size ∧ fetchTurn host = none ∧
    (adminOf (run (.submissionFetch true 0 ringE) host) 0).cqReserved = 1 := by decide +kernel

theorem test_queue_steps : let s : State := { stepping (step0 1) 1 with hif := { up.hif with rings := [(0, some { rings1 with clearing := some (0, 9) })] } }
    queueStepping s 0 = true ∧ (ringsOf (run (.ringclrComplete 0) s) 0).isSome = true := by decide +kernel

/-- An admin record that enables (1) or disables (0) queue 0. -/
def adminE (en : Nat) : List Byte := bytesAt 64 [(0, 0x10), (1, en), (2, 4), (3, 4), (4, 1), (9, 16), (17, 32)]

theorem test_admin_records : odCheck oper 0x1060 2 (.bytes (adminE 1)) true up = 0 ∧ adminStatus (adminOf up 0) (adminE 1) = 0 ∧ odNum up 0x1060 1 = 0 ∧
    odCheck oper 0x1060 2 (.bytes (adminE 0)) true host = 0 ∧ adminStatus (adminOf host 0) (adminE 0) = 0 ∧
    (adminOf (run (.adminQueueRecordWrite oper (.bytes (adminE 1))) up) 0).role = 1 ∧
    adminOf (run (.adminQueueRecordWrite oper (.bytes (adminE 0))) host) 0 = { AdminQ.off with record := keepRecord (adminE 0) 0 0 } := by decide +kernel

theorem test_interrupts : let s : State := { up with hif := { host.hif with bells := [(bellKey false 0 0, 1)] } }
    halted host = false ∧ host.hif.d3hot = false ∧ 0 < rings1.cq.unsig ∧ rings1.cq.itime ≠ 0 ∧ 0 < rings1.oq.unsig ∧ rings1.oq.itime ≠ 0 ∧
    (adminOf host 0).enable = true ∧ up.sys.epStop = false ∧ up.hif.bells = [] ∧ up.hif.rings = [] ∧ hifReady s = true ∧ s.hif.d3hot = false ∧ rings1.held = [] ∧ rings1.dropped = 0 ∧ rings1.clearing = none ∧ 1 < rings1.sq.size ∧ s.sys.epStop = false ∧ halted s = false ∧
    fget s hubB F.HUB_HIFCTRL_EN = 0 ∧ ringsOf s 0 = some rings1 ∧ (run (.hifEnable true) s).hif.bells = [] ∧
    (tget (fun _ => MsixEnt.off) (run (.interruptTimerExpiry 1 0) host).hif.msix 4).pend = true := by decide +kernel

/-! ### The whole block -/

theorem test_register_writes : let b := fset up hubB F.HUB_MBSTAT_BUSY 1
    up.power.rails = true ∧ ({ up with power := { up.power with rails := false } } : State).power.rails = false ∧ fieldsAt .hub 0xFFFC = [] ∧ writerOf (fieldsAt .hub 0x400) ≠ none ∧
    (∃ w, writerOf (fieldsAt .hub 0x400) = some w ∧ mayWrite 0 w = false ∧ mayWrite 1 w = true) ∧ reservedIn (fieldsAt .hub 0x400) 0 = false ∧
    up.hif.d3hot = false ∧ fget up hubB F.HUB_SIGSTAT_PERST_IN = 0 ∧ fget up hubB F.HUB_MBSTAT_BUSY = 0 ∧ fget b hubB F.HUB_MBSTAT_BUSY = 1 ∧
    leAt (run (.registerWrite 2 15 0x17FC 4 0x01020304 false false) up).hif.mbReq 0x7FC 4 = 0x01020304 ∧
    (run (.registerWrite 2 15 0x17FC 4 5 false false) b).hif.mbReq = up.hif.mbReq ∧
    odNum (run (.manufactureCounterHourTick 3600000001) up) 0x1006 = 1 := by decide +kernel

theorem test_step_keeps_memory : Memory.wf State.reset.mem = true ∧ (∃ t, step { State.reset with pending := [.auditFlush] } = .next t ∧ t.pending = []) :=
  ⟨by decide +kernel, run .auditFlush State.reset, rfl, by decide +kernel⟩

/-- An empty queue: the hub's time tick, which is nothing without the rails. -/
theorem test_idle : step up = .next (idleTick up) ∧ (let s : State := { up with power := { up.power with rails := false } }; step s = .next s) := ⟨rfl, rfl⟩

/-- The fields with a reset value other than 0 are those of the lists that a reset puts back. -/
theorem test_reset_lists : ((resetCore ++ resetDie ++ resetHub).all fun f => f.rst != 0) = true := by decide +kernel

/-- No row of the table gives bits. -/
theorem test_no_bits : decodeTableWord 32 0 = none ∧ (State.reset.withFetchWord 32 0).pending = [] := by decide +kernel

/-- What a read returns: CORE_ID holds the core's own number and die; a write-only field and an unassigned offset read zero; LINK_STAT shows an
internal port; HUB_SIGSTAT in Service and at reset (SAFE_N asserted, MOD_STATE). -/
theorem test_reads : readRegister State.reset 3 (17 * 65536) % 2 ^ 11 = 17 + 128 * 3 ∧ natBits (readRegister State.reset 0 0x01002084) 6 1 = 1 ∧
    readRegister State.reset 0 0x01001804 = 0 ∧ readRegister up 15 0xFFFC = 0 ∧ natBits (readRegister up 15 0x400) 4 1 = 0 ∧
    natBits (readRegister State.reset 15 0x400) 4 1 = 1 ∧ readBar0 up 0x402 = readRegister up 15 0x400 ∧ natBits (readBar0 up 0x2004) 0 2 = 1 := by decide +kernel

end Sys2Proof.Tests
end

section
/-! SUPPORT. The rings (R572–R576): what a write of an entry leaves in its ring and keeps of everything else, and the phase after a
whole pass. -/

namespace Sys2Proof.Machine

/-! ### Messages of interrupts touch the MSI-X table alone -/

/-- Only the MSI-X table differs. -/
def MsixOnly (s t : State) : Prop := t = { s with hif := { s.hif with msix := t.hif.msix } }

theorem MsixOnly.refl (s : State) : MsixOnly s s := rfl

section
variable {s t : State} (h : MsixOnly s t)
include h
theorem MsixOnly.regs : t.regs = s.regs := by rw [h]
theorem MsixOnly.od : t.od = s.od := by rw [h]
theorem MsixOnly.faults : t.faults = s.faults := by rw [h]
theorem MsixOnly.serve : t.serve = s.serve := by rw [h]
theorem MsixOnly.mem : t.mem = s.mem := by rw [h]
theorem MsixOnly.rings : t.hif.rings = s.hif.rings := by rw [h]
theorem MsixOnly.admin : t.hif.admin = s.hif.admin := by rw [h]
theorem MsixOnly.d3hot : t.hif.d3hot = s.hif.d3hot := by rw [h]
theorem MsixOnly.ringsOf (q : Nat) : ringsOf t q = ringsOf s q := by unfold Machine.ringsOf; rw [h.rings]
theorem MsixOnly.adminOf (a : Nat) : adminOf t a = adminOf s a := by unfold Machine.adminOf; rw [h.admin]
end

theorem sendVec_msix (v : Nat) (s : State) : MsixOnly s (sendVec v s) := by
  unfold sendVec
  split <;> rfl

theorem sendVec_if_msix (b : Bool) (v : Nat) (s : State) : MsixOnly s (if b then sendVec v s else s) := by
  split
  · exact sendVec_msix v s
  · exact .refl s

/-- A field reads alike in two states with the same registers. -/
theorem fget_congr {s t : State} (h : t.regs = s.regs) (b : Nat) (f : Fld) (i : Nat) : fget t b f i = fget s b f i := by
  unfold fget rget; rw [h]

/-- Whether rings are written depends on registers and D3hot alone. -/
theorem ringsLive_congr {s t : State} (h : t.regs = s.regs) (k : t.hif.d3hot = s.hif.d3hot) : ringsLive t = ringsLive s := by
  have hboot : bootPhase t = bootPhase s := fget_congr h hubB _ 0
  have hmod : modState t = modState s := fget_congr h hubB _ 0
  rw [ringsLive, ringsLive, hifReady, hifReady, halted, halted, fget_congr h, hboot, hmod, k]

@[simp] theorem ringsLive_setRings (s : State) (q : Nat) (r : Option Rings) : ringsLive (setRings s q r) = ringsLive s := rfl

/-! ### An entry written -/

section
variable {s : State} {q : Nat} {r : Rings} (hr : ringsOf s q = some r) (live : ringsLive s = true)
include hr live

/-- A completion entry is put behind the others with the ring's PHASE, and the tail advances (R574). -/
theorem cqWrite_live (kind status cid result detail : Nat) (res now : Bool) : ∃ u, MsixOnly s u ∧
    cqWrite q kind status cid result detail res now s = setRings u q (some { r with
      cq := (r.cq.counted now).advance
      cqEntries := r.cqEntries ++ [⟨kind, status, r.cq.phase, cid, r.sq.head, result, detail⟩]
      cqReserved := if res then r.cqReserved - 1 else r.cqReserved }) :=
  ⟨_, sendVec_if_msix (ringSignals now r.cq) r.cq.vec s, by simp only [cqWrite, hr, live, if_true]⟩

/-- A token record is put behind the others with the ring's PHASE, and the tail advances (R574). -/
theorem oqWrite_live (t : TokRec) : ∃ u, MsixOnly s u ∧
    oqWrite q t s = setRings u q (some { r with
      oq := (r.oq.counted (decide (t.fin ≠ 0))).advance
      oqEntries := r.oqEntries ++ [{ t with phase := r.oq.phase }] }) :=
  ⟨_, sendVec_if_msix (ringSignals (decide (t.fin ≠ 0)) r.oq) r.oq.vec s, by simp only [oqWrite, hr, live, if_true]⟩

end

/-- An admin queue that is not to be disabled stays as it is. -/
theorem adminSettle_of_enabled (a : Nat) (s : State) (h : (adminOf s a).disabling = false) : adminSettle a s = s := by
  simp [adminSettle, h]

/-- An admin queue's completion entry is put behind the others with the ring's PHASE, and the tail advances (R574). -/
theorem completeAdmin_live (a kind status cid result : Nat) (s : State) (hd : (adminOf s a).disabling = false) (live : ringsLive s = true) :
    let x := adminOf s a
    ∃ u, MsixOnly s u ∧ completeAdmin a kind status cid result s = setAdmin u a { x with
      cq := (x.cq.counted false).advance
      cqEntries := x.cqEntries ++ [⟨kind, status, x.cq.phase, cid, x.sq.head, result, 0⟩]
      cqReserved := x.cqReserved - 1 } := by
  refine ⟨_, sendVec_if_msix (ringSignals false (adminOf s a).cq) (adminOf s a).cq.vec s, ?_⟩
  simp only [completeAdmin, live, if_true]
  exact adminSettle_of_enabled a _ (by simp [hd])

/-- The completion of an admin command changes no ring of a serving queue. -/
theorem completeAdmin_rings (a kind status cid result : Nat) (s : State) :
    (completeAdmin a kind status cid result s).hif.rings = s.hif.rings := by
  have settle : ∀ u : State, (adminSettle a u).hif.rings = u.hif.rings := by
    intro u
    unfold adminSettle
    dsimp only
    split <;> rfl
  unfold completeAdmin
  dsimp only
  rw [settle]
  split
  · exact (sendVec_if_msix _ _ s).rings
  · rfl

/-! ### RINGSET -/

/-- A good RINGSET leaves the three rings fresh: indices 0 and PHASE 1 (R572, R582). -/
theorem ringset_good (a : Nat) (e : List Byte) (s : State) (took : adminTook s a 3 1 e = true) (good : ringsetStatus s e = 0) :
    ringsOf (ringset a e s) (leAt e 12 4) = some ⟨Ring.fresh (leAt e 16 8) (leAt e 40 1) 0 0 0,
      Ring.fresh (leAt e 24 8) (leAt e 41 1) (leAt e 44 2) (leAt e 48 1) (leAt e 50 2), [], 0,
      Ring.fresh (leAt e 32 8) (leAt e 42 1) (leAt e 46 2) (leAt e 49 1) (leAt e 52 2), [], 0, [], 0, none⟩ := by
  simp only [ringset, took, good, and_self, if_true]
  unfold ringsOf
  rw [completeAdmin_rings]
  exact ringsOf_setRings_same s _ _

/-! ### A pass round a ring -/

/-- After `k` entries, at most a whole pass, the tail has moved on by `k` places and PHASE is inverted exactly where it passed the end. -/
theorem Ring.repeat_advance (r : Ring) (h : r.tail < r.size) (k : Nat) (hk : k ≤ r.size) : let p := Nat.repeat Ring.advance k r
    p.log2 = r.log2 ∧ p.tail = (r.tail + k) % r.size ∧ p.phase = if r.tail + k < r.size then r.phase else !r.phase := by
  induction k with
  | zero => simp [Nat.repeat, h, Nat.mod_eq_of_lt h]
  | succ k ih =>
    obtain ⟨hlog, htail, hphase⟩ := ih (by omega)
    have hsize : (Nat.repeat Ring.advance k r).size = r.size := by simp only [Ring.size, hlog]
    have hnext : (r.tail + (k + 1)) % r.size = 0 ↔ r.tail + (k + 1) = r.size := by
      constructor
      · intro h0
        obtain ⟨m, hm⟩ := Nat.dvd_of_mod_eq_zero h0
        have hm1 : m = 1 := by
          rcases m with _ | _ | m
          · omega
          · rfl
          · rw [Nat.mul_add, Nat.mul_add] at hm; omega
        rw [hm, hm1, Nat.mul_one]
      · intro he; rw [he, Nat.mod_self]
    have hstep : ((Nat.repeat Ring.advance k r).tail + 1) % (Nat.repeat Ring.advance k r).size = (r.tail + (k + 1)) % r.size := by
      rw [hsize, htail, Nat.mod_add_mod, Nat.add_assoc]
    refine ⟨hlog, hstep, ?_⟩
    change (if _ = 0 then !(Nat.repeat Ring.advance k r).phase else (Nat.repeat Ring.advance k r).phase) = _
    rw [hstep, hphase]
    simp only [hnext]
    rcases Nat.lt_trichotomy (r.tail + (k + 1)) r.size with hlt | heq | hgt
    · rw [if_neg (by omega), if_pos (by omega), if_pos hlt]
    · rw [if_pos heq, if_pos (by omega), if_neg (by omega)]
    · rw [if_neg (by omega), if_neg (by omega), if_neg (by omega)]

end Sys2Proof.Machine
end

section
namespace Sys2Proof
open Machine

/-- Settles O55: each write of an entry has one equation, and a whole pass is an induction on the entries written. -/
theorem ringPhases : Obligations.RingPhases := by
  refine ⟨?_, ?_, ?_, ?_, ?_⟩
  · intro aq e s took good
    exact ⟨_, rfl, _, ringset_good aq e s took good, rfl, rfl, rfl, rfl, rfl, rfl⟩
  · intro q kind status cid result detail res now r s hr live
    obtain ⟨u, -, hw⟩ := cqWrite_live hr live kind status cid result detail res now
    rw [hw, ringsOf_setRings_same]
    exact ⟨_, _, rfl, rfl, rfl, rfl, rfl⟩
  · intro q t r s hr live
    obtain ⟨u, -, hw⟩ := oqWrite_live hr live t
    rw [hw, ringsOf_setRings_same]
    exact ⟨_, _, rfl, rfl, rfl, rfl, rfl⟩
  · intro a kind status cid result s x hd live y
    obtain ⟨u, -, hw⟩ := completeAdmin_live a kind status cid result s hd live
    have hy : y = _ := (congrArg (adminOf · a) hw).trans (adminOf_setAdmin_same u a _)
    rw [hy]
    exact ⟨⟨_, rfl, rfl⟩, rfl, rfl⟩
  · intro r h
    obtain ⟨-, htail, hphase⟩ := r.repeat_advance h r.size (Nat.le_refl _)
    refine ⟨?_, ?_⟩
    · rw [htail, Nat.add_mod_right, Nat.mod_eq_of_lt h]
    · rw [hphase, if_neg (by omega)]

end Sys2Proof
end

section
/-! SUPPORT. Doorbells (R572, R573, R576): what a discarded write records, what a head or a tail stores, and what held events leave. -/

namespace Sys2Proof.Machine

/-! ### An F0 notice of the hub -/

/-- Changing the first record that matches leaves a record of the same class and code. -/
theorem exists_mem_modFirst_again (p : LedgerRec → Bool) (l : List LedgerRec) (r : LedgerRec) (h : r ∈ l) :
    ∃ x ∈ modFirst p LedgerRec.again l, x.cls = r.cls ∧ x.code = r.code := by
  induction l with
  | nil => cases h
  | cons y l ih =>
    simp only [modFirst]
    rcases List.mem_cons.mp h with rfl | hl
    · split
      · refine ⟨_, List.mem_cons_self, ?_⟩
        unfold LedgerRec.again
        split <;> exact ⟨rfl, rfl⟩
      · exact ⟨r, List.mem_cons_self, rfl, rfl⟩
    · split
      · exact ⟨r, List.mem_cons_of_mem _ hl, rfl, rfl⟩
      · obtain ⟨x, hx, hc⟩ := ih hl
        exact ⟨x, List.mem_cons_of_mem _ hx, hc⟩

/-- An occurrence coalesces only with a record of its class and code. -/
theorem exists_mem_of_coalesces {l : List LedgerRec} {cls code die inst : Nat} (h : coalesces l cls code die inst = true) :
    ∃ r ∈ l, r.cls = cls ∧ r.code = code := by
  unfold coalesces at h
  split at h
  next r hf =>
    have hp := List.find?_some hf
    simp only [Bool.and_eq_true, beq_iff_eq] at hp
    exact ⟨r, List.mem_of_find?_eq_some hf, hp.2, hp.1.1.1⟩
  next => cases h

/-- A record of class F0 with the hub as its DIE goes in front of a module ledger with room, and touches neither a register nor the host
interface. -/
theorem addRecord_hub_notice (mk : LedgerRec) (s : State) (hc : mk.cls = 0) (hd : mk.die = hubDie) (room : s.faults.modLedger.length < 256) :
    let t := addRecord mk s
    t.regs = s.regs ∧ t.hif = s.hif ∧ ∃ r ∈ t.faults.modLedger, r.cls = 0 ∧ r.code = mk.code := by
  simp [addRecord, formCper, ledgerPush, hc, hd, room, hubDie]

/-- Whether the hub's collector captures depends on the phase and OD 0x8021 alone. -/
theorem capturing_hub_congr {s t : State} (h : bootPhase t = bootPhase s) (k : odNum t 0x8021 = odNum s 0x8021) :
    capturing t hubDie = capturing s hubDie := by
  simp [capturing, h, k, hubDie]

/-- A notice outside capture stands in the module ledger as an F0 of 0x0B00, and touches neither a register nor the host interface. -/
theorem hubNotice_recorded (v : Nat) (s : State) (cap : capturing s hubDie = false) (room : s.faults.modLedger.length < 256) :
    let t := hubNotice v s
    t.regs = s.regs ∧ t.hif = s.hif ∧ ∃ r ∈ t.faults.modLedger, r.cls = 0 ∧ r.code = 0x0B00 := by
  have hcount : countFault 0 hubDie s = odInc s 0x8000 5 := rfl
  have hod : odNum (odInc s 0x8000 5) 0x8021 = odNum s 0x8021 := by
    unfold odNum odInc odSet
    rw [odGet_odPut_other _ _ _ _ _ _ (by decide)]
  have hcap : capturing (odInc s 0x8000 5) hubDie = false := (capturing_hub_congr (fget_congr (odInc_regs s 0x8000 5 1) hubB _ 0) hod).trans cap
  simp only [hubNotice, notice, hcount, recordFault, hcap, Bool.false_eq_true, if_false]
  split
  next hm =>
    simp only [Bool.and_eq_true] at hm
    obtain ⟨r, hr, hcls, hcode⟩ := exists_mem_of_coalesces hm.2
    obtain ⟨x, hx, xcls, xcode⟩ := exists_mem_modFirst_again _ _ r hr
    exact ⟨rfl, rfl, x, hx, xcls.trans hcls, xcode.trans hcode⟩
  next => exact addRecord_hub_notice _ _ rfl rfl room

/-! ### A discarded write -/

/-- HUB_HIFQERR as a discarded write sets it. -/
def setQerr (admin : Bool) (q reason : Nat) (s : State) : State :=
  fset (fset (fset (fset s hubB F.HUB_HIFQERR_QUEUE q) hubB F.HUB_HIFQERR_ADMIN (b2n admin)) hubB F.HUB_HIFQERR_REASON reason)
    hubB F.HUB_HIFQERR_VALID 1

@[simp] theorem setQerr_od (admin : Bool) (q reason : Nat) (s : State) : (setQerr admin q reason s).od = s.od := by
  rw [setQerr, fset_od, fset_od, fset_od, fset_od]
@[simp] theorem setQerr_faults (admin : Bool) (q reason : Nat) (s : State) : (setQerr admin q reason s).faults = s.faults := by
  rw [setQerr, fset_faults, fset_faults, fset_faults, fset_faults]
@[simp] theorem setQerr_hif (admin : Bool) (q reason : Nat) (s : State) : (setQerr admin q reason s).hif = s.hif := by
  rw [setQerr, fset_hif, fset_hif, fset_hif, fset_hif]
@[simp] theorem setQerr_serve (admin : Bool) (q reason : Nat) (s : State) : (setQerr admin q reason s).serve = s.serve := by
  rw [setQerr, fset_serve, fset_serve, fset_serve, fset_serve]
@[simp] theorem setQerr_mem (admin : Bool) (q reason : Nat) (s : State) : (setQerr admin q reason s).mem = s.mem := by
  rw [setQerr, fset_mem, fset_mem, fset_mem, fset_mem]

/-- The phase stands in another register. -/
theorem bootPhase_setQerr (admin : Bool) (q reason : Nat) (s : State) : bootPhase (setQerr admin q reason s) = bootPhase s := by
  unfold bootPhase setQerr
  rw [fget_fset_key _ _ _ _ _ _ _ _ (by decide), fget_fset_key _ _ _ _ _ _ _ _ (by decide),
    fget_fset_key _ _ _ _ _ _ _ _ (by decide), fget_fset_key _ _ _ _ _ _ _ _ (by decide)]

/-- The four fields of HUB_HIFQERR lie apart, so each reads as it was set. -/
theorem setQerr_fields (admin : Bool) (q reason : Nat) (s : State) (hq : q < 2 ^ 18) (hr : reason < 2 ^ 3) :
    let t := setQerr admin q reason s
    fget t hubB F.HUB_HIFQERR_VALID = 1 ∧ fget t hubB F.HUB_HIFQERR_REASON = reason ∧ fget t hubB F.HUB_HIFQERR_QUEUE = q ∧
      fget t hubB F.HUB_HIFQERR_ADMIN = b2n admin := by
  refine ⟨?_, ?_, ?_, ?_⟩ <;> unfold setQerr
  · exact fget_fset_same _ _ _ _ _ (by decide)
  · rw [fget_fset_apart _ _ _ _ _ _ _ _ (by decide) (by decide), fget_fset_same _ _ _ _ _ (by decide)]
    exact Nat.mod_eq_of_lt hr
  · rw [fget_fset_apart _ _ _ _ _ _ _ _ (by decide) (by decide), fget_fset_apart _ _ _ _ _ _ _ _ (by decide) (by decide),
      fget_fset_apart _ _ _ _ _ _ _ _ (by decide) (by decide), fget_fset_same _ _ _ _ _ (by decide)]
    exact Nat.mod_eq_of_lt hq
  · rw [fget_fset_apart _ _ _ _ _ _ _ _ (by decide) (by decide), fget_fset_apart _ _ _ _ _ _ _ _ (by decide) (by decide),
      fget_fset_same _ _ _ _ _ (by decide)]
    cases admin <;> rfl

/-- A cause sets its own bit and sends at most a message. -/
theorem hifCause_msix (f : Fld) (s : State) : MsixOnly (fset s hubB f 1) (hifCause f s) := by
  unfold hifCause
  dsimp only
  exact sendVec_if_msix _ 0 _

/-- A field of another register than the cause's reads as before. -/
theorem fget_hifCause (f g : Fld) (s : State) (h : fkey hubB g 0 ≠ fkey hubB f 0) : fget (hifCause f s) hubB g = fget s hubB g := by
  rw [fget_congr (hifCause_msix f s).regs, fget_fset_key _ _ _ _ _ _ _ _ h]

/-- The state in which a discarded write is noticed: HUB_HIFQERR names it and its cause is set. -/
def qerrRaised (admin : Bool) (q reason : Nat) (s : State) : State := hifCause F.HUB_HIFCAUSE_QERR (setQerr admin q reason s)

section
variable (admin : Bool) (q reason : Nat) (s : State)

theorem qerrRaised_msix : MsixOnly (fset (setQerr admin q reason s) hubB F.HUB_HIFCAUSE_QERR 1) (qerrRaised admin q reason s) :=
  hifCause_msix _ _

@[simp] theorem qerrRaised_faults : (qerrRaised admin q reason s).faults = s.faults := by
  rw [(qerrRaised_msix admin q reason s).faults, fset_faults, setQerr_faults]

@[simp] theorem qerrRaised_rings : (qerrRaised admin q reason s).hif.rings = s.hif.rings := by
  rw [(qerrRaised_msix admin q reason s).rings, fset_hif, setQerr_hif]

@[simp] theorem qerrRaised_admin : (qerrRaised admin q reason s).hif.admin = s.hif.admin := by
  rw [(qerrRaised_msix admin q reason s).admin, fset_hif, setQerr_hif]

@[simp] theorem qerrRaised_serve : (qerrRaised admin q reason s).serve = s.serve := by
  rw [(qerrRaised_msix admin q reason s).serve, fset_serve, setQerr_serve]

@[simp] theorem qerrRaised_mem : (qerrRaised admin q reason s).mem = s.mem := by
  rw [(qerrRaised_msix admin q reason s).mem, fset_mem, setQerr_mem]

theorem capturing_qerrRaised : capturing (qerrRaised admin q reason s) hubDie = capturing s hubDie := by
  apply capturing_hub_congr
  · exact (fget_hifCause _ _ _ (by decide)).trans (bootPhase_setQerr admin q reason s)
  · unfold odNum odGet
    rw [(qerrRaised_msix admin q reason s).od, fset_od, setQerr_od]

end

/-- A discarded write raises HUB_HIFQERR, is noticed and is counted; a queue number of the module is not cut. -/
theorem discardBell_eq (admin : Bool) (q reason v : Nat) (s : State) (hq : q < if admin then 16 else 2 ^ 18) :
    discardBell admin q reason v s = odInc (hubNotice v (qerrRaised admin q reason s)) 0x1061 9 := by
  have hqueue : (if admin then q % 16 else q) = q := by
    cases admin
    · rfl
    · exact Nat.mod_eq_of_lt hq
  simp only [discardBell, qerrRaised, setQerr, hqueue]

/-- A discarded write is named by HUB_HIFQERR and noticed, and changes no ring (R573). -/
theorem discardBell_discarded (admin : Bool) (q reason v : Nat) (s : State) (cap : capturing s hubDie = false)
    (room : s.faults.modLedger.length < 256) (hq : q < if admin then 16 else 2 ^ 18) (hr : reason < 2 ^ 3) :
    Discarded admin q reason s (discardBell admin q reason v s) := by
  have hwide : q < 2 ^ 18 := by
    split at hq
    · omega
    · exact hq
  obtain ⟨qvalid, qreason, qqueue, qadmin⟩ := setQerr_fields admin q reason s hwide hr
  obtain ⟨nregs, nhif, nrec⟩ := hubNotice_recorded v (qerrRaised admin q reason s)
    ((capturing_qerrRaised admin q reason s).trans cap) (by rwa [qerrRaised_faults])
  have nled := hubNotice_ledger v (qerrRaised admin q reason s)
  rw [discardBell_eq admin q reason v s hq]
  have hfield : ∀ f : Fld, fkey hubB f 0 ≠ fkey hubB F.HUB_HIFCAUSE_QERR 0 →
      fget (odInc (hubNotice v (qerrRaised admin q reason s)) 0x1061 9) hubB f = fget (setQerr admin q reason s) hubB f :=
    fun f hf => (fget_congr ((odInc_regs _ 0x1061 9 1).trans nregs) hubB f 0).trans (fget_hifCause _ f _ hf)
  refine ⟨?_, ?_, ?_, ?_, ?_, ?_, ?_, ?_, ?_⟩
  · rw [hfield _ (by decide), qvalid]
  · rw [hfield _ (by decide), qreason]
  · rw [hfield _ (by decide), qqueue]
  · rw [hfield _ (by decide), qadmin]
  · rw [odInc_faults]; exact nrec
  · rw [odInc_hif, nhif, qerrRaised_rings]
  · rw [odInc_hif, nhif, qerrRaised_admin]
  · rw [odInc_serve, nled.serve, qerrRaised_serve]
  · rw [odInc_mem, nled.mem, qerrRaised_mem]

/-! ### Held events -/

/-- Every serving queue but one, every admin queue, serving and memory are as before. -/
def OtherRings (q : Nat) (s t : State) : Prop :=
  (∀ k, k ≠ q → ringsOf t k = ringsOf s k) ∧ t.hif.admin = s.hif.admin ∧ t.serve = s.serve ∧ t.mem = s.mem

theorem OtherRings.refl (q : Nat) (s : State) : OtherRings q s s := ⟨fun _ _ => rfl, rfl, rfl, rfl⟩

theorem OtherRings.trans {q : Nat} {s t u : State} (h : OtherRings q s t) (k : OtherRings q t u) : OtherRings q s u :=
  ⟨fun j hj => (k.1 j hj).trans (h.1 j hj), k.2.1.trans h.2.1, k.2.2.1.trans h.2.2.1, k.2.2.2.trans h.2.2.2⟩

theorem MsixOnly.otherRings {s t : State} (h : MsixOnly s t) (q : Nat) : OtherRings q s t :=
  ⟨fun k _ => h.ringsOf k, h.admin, h.serve, h.mem⟩

theorem setRings_otherRings (s : State) (q : Nat) (r : Option Rings) : OtherRings q s (setRings s q r) :=
  ⟨fun k hk => ringsOf_setRings_other s q r k hk, rfl, rfl, rfl⟩

/-- Every admin queue but one, every ring of a serving queue, serving and memory are as before. -/
def OtherAdmins (a : Nat) (s t : State) : Prop :=
  (∀ k, k ≠ a → adminOf t k = adminOf s k) ∧ t.hif.rings = s.hif.rings ∧ t.serve = s.serve ∧ t.mem = s.mem

theorem setAdmin_otherAdmins (s : State) (a : Nat) (x : AdminQ) : OtherAdmins a s (setAdmin s a x) :=
  ⟨fun k hk => adminOf_setAdmin_other s a x k hk, rfl, rfl, rfl⟩

/-- Where the rings `r` of a queue stood, events alone were written behind its completion entries, and none where none was held or dropped. -/
def EventsFollow (q : Nat) (r : Rings) (s t : State) : Prop :=
  OtherRings q s t ∧ ∃ r' l, ringsOf t q = some r' ∧ r'.cq.head = r.cq.head ∧ r'.cqEntries = r.cqEntries ++ l ∧ (∀ e ∈ l, e.kind = 3) ∧
    (r.held = [] → r.dropped = 0 → l = [])

/-- Where nothing is written, nothing follows. -/
theorem EventsFollow.refl {q : Nat} {r : Rings} {s : State} (hr : ringsOf s q = some r) : EventsFollow q r s s :=
  ⟨.refl q s, r, [], hr, rfl, (List.append_nil _).symm, by simp, fun _ _ => rfl⟩

/-- An event written, its place in the holding area given up first: the entry, then what follows it. -/
theorem cqWrite_event {q : Nat} {r : Rings} {s : State} (live : ringsLive s = true) (held : List Event) (dropped status code ctx detail : Nat) :
    ∃ e t r', cqWrite q 3 status code ctx detail false true (setRings s q (some { r with held := held, dropped := dropped })) = t ∧
      OtherRings q s t ∧ ringsLive t = true ∧ ringsOf t q = some r' ∧ r'.cq.head = r.cq.head ∧ r'.cqEntries = r.cqEntries ++ [e] ∧ e.kind = 3 := by
  have live' : ringsLive (setRings s q (some { r with held := held, dropped := dropped })) = true := live
  obtain ⟨u, hu, hw⟩ := cqWrite_live (ringsOf_setRings_same s q _) live' 3 status code ctx detail false true
  refine ⟨_, _, _, hw, ?_, ?_, ringsOf_setRings_same u q _, rfl, rfl, rfl⟩
  · exact ((setRings_otherRings s q _).trans (hu.otherRings q)).trans (setRings_otherRings u q _)
  · rw [ringsLive_setRings, ringsLive_congr hu.regs hu.d3hot]; exact live'

/-- Held events, while slots are free, follow behind the entries that stay (R576). -/
theorem flushHeld_eventsFollow (n q : Nat) (r : Rings) (s : State) (hr : ringsOf s q = some r) (live : ringsLive s = true) :
    EventsFollow q r s (flushHeld n q s) := by
  induction n generalizing s r with
  | zero => exact .refl hr
  | succ n ih =>
    rw [flushHeld, hr]
    dsimp only
    split
    next =>
      split
      next ev rest hheld =>
        obtain ⟨e, t, r₁, ht, hother, tlive, tr, thead, tent, ekind⟩ :=
          cqWrite_event (q := q) (r := r) live rest r.dropped ev.status ev.code ev.ctx ev.detail
        obtain ⟨hother', r', l, hr', hhead, hent, hkind, -⟩ := ih r₁ t tr tlive
        rw [ht]
        refine ⟨hother.trans hother', r', e :: l, hr', hhead.trans thead, ?_, ?_, ?_⟩
        · rw [hent, tent, List.append_assoc, List.singleton_append]
        · exact List.forall_mem_cons.mpr ⟨ekind, hkind⟩
        · intro hnone; rw [hheld] at hnone; cases hnone
      next hheld =>
        split
        next hdrop =>
          obtain ⟨e, t, r', ht, hother, -, tr, thead, tent, ekind⟩ :=
            cqWrite_event (q := q) (r := r) live r.held 0 0 7 0 r.dropped
          rw [ht]
          exact ⟨hother, r', [e], tr, thead, tent, by simp [ekind], fun _ h0 => absurd h0 (by omega)⟩
        next => exact .refl hr
    next => exact .refl hr

/-! ### Tails and heads -/

section
variable {s : State} {q v : Nat}

/-- A serving queue with no rings, or whose rings are being removed, discards all three doorbells. -/
theorem takes_gone (h : ringsOf s q = none ∨ ∃ r, ringsOf s q = some r ∧ r.clearing.isSome = true) :
    takeSqTail false q v s = discardBell false q 2 v s ∧ takeCqHead false q v s = discardBell false q 2 v s ∧
      takeOqHead false q v s = discardBell false q 2 v s := by
  rcases h with h | ⟨r, h, hc⟩
  · simp [takeSqTail, takeCqHead, takeOqHead, h]
  · simp [takeSqTail, takeCqHead, takeOqHead, h, hc]

section
variable {r : Rings} (hr : ringsOf s q = some r) (hc : r.clearing = none)
include hr hc

theorem takeSqTail_rings : takeSqTail false q v s =
    if r.sq.size ≤ v then discardBell false q 1 v s else setRings s q (some { r with sq := { r.sq with tail := v } }) := by
  simp [takeSqTail, hr, hc]

theorem takeCqHead_rings : takeCqHead false q v s =
    if r.cq.size ≤ v then discardBell false q 1 v s
    else if r.cqEntries.length < (v + r.cq.size - r.cq.head) % r.cq.size then discardBell false q 3 v s
    else flushHeld 66 q (setRings s q (some { r with
      cq := { r.cq with head := v }, cqEntries := r.cqEntries.drop ((v + r.cq.size - r.cq.head) % r.cq.size) })) := by
  simp [takeCqHead, released, hr, hc]

theorem takeOqHead_rings : takeOqHead false q v s =
    if r.oq.size ≤ v then discardBell false q 1 v s
    else if r.oqEntries.length < (v + r.oq.size - r.oq.head) % r.oq.size then discardBell false q 3 v s
    else setRings s q (some { r with
      oq := { r.oq with head := v }, oqEntries := r.oqEntries.drop ((v + r.oq.size - r.oq.head) % r.oq.size) }) := by
  simp [takeOqHead, released, hr, hc]

/-- A completion head that names a written entry releases those before it; events alone follow behind the rest. -/
theorem takeCqHead_released (live : ringsLive s = true) (hv : v < r.cq.size) (hn : (v + r.cq.size - r.cq.head) % r.cq.size ≤ r.cqEntries.length) :
    OtherRings q s (takeCqHead false q v s) ∧ ∃ r' l, ringsOf (takeCqHead false q v s) q = some r' ∧ r'.cq.head = v ∧
      r'.cqEntries = r.cqEntries.drop ((v + r.cq.size - r.cq.head) % r.cq.size) ++ l ∧ (∀ e ∈ l, e.kind = 3) ∧
      (r.held = [] → r.dropped = 0 → l = []) := by
  rw [takeCqHead_rings hr hc, if_neg (by omega), if_neg (by omega)]
  obtain ⟨hother, r', l, hr', hhead, hent, hrest⟩ := flushHeld_eventsFollow 66 q _ _ (ringsOf_setRings_same s q
    (some { r with cq := { r.cq with head := v }, cqEntries := r.cqEntries.drop ((v + r.cq.size - r.cq.head) % r.cq.size) })) live
  exact ⟨(setRings_otherRings s q _).trans hother, r', l, hr', hhead, hent, hrest⟩

end

theorem takeSqTail_admin : takeSqTail true q v s =
    if (adminOf s q).enable = false ∨ (adminOf s q).disabling = true then discardBell true q 2 v s
    else if (adminOf s q).sq.size ≤ v then discardBell true q 1 v s
    else setAdmin s q { adminOf s q with sq := { (adminOf s q).sq with tail := v } } := by
  simp [takeSqTail]

theorem takeCqHead_admin : takeCqHead true q v s =
    if (adminOf s q).enable = false then discardBell true q 2 v s
    else if (adminOf s q).cq.size ≤ v then discardBell true q 1 v s
    else if (adminOf s q).cqEntries.length < (v + (adminOf s q).cq.size - (adminOf s q).cq.head) % (adminOf s q).cq.size then discardBell true q 3 v s
    else setAdmin s q { adminOf s q with
      cq := { (adminOf s q).cq with head := v }
      cqEntries := (adminOf s q).cqEntries.drop ((v + (adminOf s q).cq.size - (adminOf s q).cq.head) % (adminOf s q).cq.size) } := by
  simp [takeCqHead, released]

end

/-! ### The three commands -/

/-- A state in which the module serves doorbells: rings live, rails on, out of PERST_N. -/
structure ServesBells (s : State) : Prop where
  live : ringsLive s = true
  rails : s.power.rails = true
  perst : fget s hubB F.HUB_SIGSTAT_PERST_IN = 0

/-- A doorbell of a queue of the module is taken at once, its value cut to 16 bits. -/
theorem bell_served (take : Bool → Nat → Nat → State → State) {admin : Bool} {q : Nat} (which v : Nat) {s : State} (h : ServesBells s)
    (hq : q < if admin then 16 else 2 ^ 18) : bell take admin q which v s = take admin q (v % 65536) s := by
  have hd3 : s.hif.d3hot = false := by
    have := h.live
    simp only [ringsLive, Bool.and_eq_true, Bool.not_eq_true'] at this
    exact this.2
  have hin : decide (q ≥ if admin then 16 else 2 ^ 18) = false := decide_eq_false (Nat.not_le.mpr hq)
  have hperst : (fget s hubB F.HUB_SIGSTAT_PERST_IN == 1) = false := by rw [h.perst]; rfl
  simp only [bell, hd3, h.rails, hperst, hin, h.live, Bool.not_true, Bool.or_self, Bool.false_eq_true, if_false, if_true]

section
variable {admin : Bool} {q : Nat} (v : Nat) {s : State} {P : State → Prop} (h : ServesBells s) (hq : q < if admin then 16 else 2 ^ 18)
include h hq

theorem completes_doorbellSqtail (hp : P (takeSqTail admin q (v % 65536) s)) : Completes (.doorbellSqtail admin q v) s P :=
  ⟨_, rfl, by rwa [bell_served _ _ _ h hq]⟩

theorem completes_doorbellCqhead (hp : P (takeCqHead admin q (v % 65536) s)) : Completes (.doorbellCqhead admin q v) s P :=
  ⟨_, rfl, by rwa [bell_served _ _ _ h hq]⟩

theorem completes_doorbellOqhead (hp : P (takeOqHead admin q (v % 65536) s)) : Completes (.doorbellOqhead admin q v) s P :=
  ⟨_, rfl, by rwa [bell_served _ _ _ h hq]⟩

end

end Sys2Proof.Machine
end

section
namespace Sys2Proof
open Machine

/-- Settles O54: each doorbell has one equation by the state of its queue, and every branch is a discarded write, a stored tail or a
head with the entries before it released. -/
theorem doorbellsDiscardedOrTaken : Obligations.DoorbellsDiscardedOrTaken := by
  intro q v s i live rails perst cap room
  have hs : ServesBells s := ⟨live, rails, perst⟩
  refine ⟨?_, ?_⟩
  · intro hq other gone
    have discard : ∀ reason, reason < 2 ^ 3 → Discarded false q reason s (discardBell false q reason i s) :=
      fun reason hr => discardBell_discarded false q reason i s cap room hq hr
    refine ⟨?_, ?_⟩
    · intro hgone
      obtain ⟨htail, hcq, hoq⟩ := takes_gone (v := i) hgone
      refine ⟨completes_doorbellSqtail v hs hq ?_, completes_doorbellCqhead v hs hq ?_, completes_doorbellOqhead v hs hq ?_⟩
      · rw [htail]; exact discard 2 (by decide)
      · rw [hcq]; exact discard 2 (by decide)
      · rw [hoq]; exact discard 2 (by decide)
    · intro r hr hc
      refine ⟨fun hv => completes_doorbellSqtail v hs hq ?_, fun hv => completes_doorbellSqtail v hs hq ?_,
        fun hv => completes_doorbellCqhead v hs hq ?_,
        ⟨fun hv hn => completes_doorbellCqhead v hs hq ?_, fun hv hn => completes_doorbellCqhead v hs hq ?_⟩,
        fun hv => completes_doorbellOqhead v hs hq ?_,
        ⟨fun hv hn => completes_doorbellOqhead v hs hq ?_, fun hv hn => completes_doorbellOqhead v hs hq ?_⟩⟩
      · rw [takeSqTail_rings hr hc, if_pos hv]; exact discard 1 (by decide)
      · rw [takeSqTail_rings hr hc, if_neg (Nat.not_le.mpr hv)]
        exact ⟨ringsOf_setRings_same s q _, setRings_otherRings s q _⟩
      · rw [takeCqHead_rings hr hc, if_pos hv]; exact discard 1 (by decide)
      · rw [takeCqHead_rings hr hc, if_neg (Nat.not_le.mpr hv), if_pos hn]; exact discard 3 (by decide)
      · exact takeCqHead_released hr hc live hv hn
      · rw [takeOqHead_rings hr hc, if_pos hv]; exact discard 1 (by decide)
      · rw [takeOqHead_rings hr hc, if_neg (Nat.not_le.mpr hv), if_pos hn]; exact discard 3 (by decide)
      · rw [takeOqHead_rings hr hc, if_neg (Nat.not_le.mpr hv), if_neg (Nat.not_lt.mpr hn)]
        exact ⟨setRings_otherRings s q _, ringsOf_setRings_same s q _⟩
  · intro hq x other
    have discard : ∀ reason, reason < 2 ^ 3 → Discarded true q reason s (discardBell true q reason i s) :=
      fun reason hr => discardBell_discarded true q reason i s cap room hq hr
    refine ⟨fun hoff => completes_doorbellSqtail v hs hq ?_, fun hon hkeep hv => completes_doorbellSqtail v hs hq ?_,
      fun hon hkeep hv => completes_doorbellSqtail v hs hq ?_, fun hoff => completes_doorbellCqhead v hs hq ?_,
      fun hon hv => completes_doorbellCqhead v hs hq ?_,
      ⟨fun hon hv hn => completes_doorbellCqhead v hs hq ?_, fun hon hv hn => completes_doorbellCqhead v hs hq ?_⟩,
      completes_doorbellOqhead v hs hq rfl⟩
    · rw [takeSqTail_admin, if_pos hoff]; exact discard 2 (by decide)
    · rw [takeSqTail_admin, if_neg (by simp [x, hon, hkeep]), if_pos hv]; exact discard 1 (by decide)
    · rw [takeSqTail_admin, if_neg (by simp [x, hon, hkeep]), if_neg (Nat.not_le.mpr hv)]
      exact ⟨adminOf_setAdmin_same s q _, setAdmin_otherAdmins s q _⟩
    · rw [takeCqHead_admin, if_pos hoff]; exact discard 2 (by decide)
    · rw [takeCqHead_admin, if_neg (by simp [x, hon]), if_pos hv]; exact discard 1 (by decide)
    · rw [takeCqHead_admin, if_neg (by simp [x, hon]), if_neg (Nat.not_le.mpr hv), if_pos hn]; exact discard 3 (by decide)
    · rw [takeCqHead_admin, if_neg (by simp [x, hon]), if_neg (Nat.not_le.mpr hv), if_neg (Nat.not_lt.mpr hn)]
      exact ⟨adminOf_setAdmin_same s q _, setAdmin_otherAdmins s q _⟩

end Sys2Proof
end
